-- ==== Sys2Proof/Word.lean ====
section
/-! DEFINITION. Word.lean: the plain words, finite name sets and containers every other file uses. -/

namespace Sys2Proof

/-- A byte of device memory. -/
abbrev Byte := BitVec 8

/-- A 16-bit word. -/
abbrev W16 := BitVec 16

/-- A 32-bit word; the bits of an FP32 value (R112). -/
abbrev W32 := BitVec 32

/-- A 64-bit word. -/
abbrev W64 := BitVec 64

/-- A 57-bit device address (R230). -/
abbrev Addr := BitVec 57

/-- Sparse data by key, in one canonical form: keys strictly rising, no entry equal to the value an
unlisted key reads as. -/
abbrev Map (α : Type) := List (Nat × α)

/-- The three instruction streams of a tile (R30, R303). -/
inductive Stream where
  | f | b | u
  deriving DecidableEq, Repr

/-- The four engines of a tile, in the bit order of R303. -/
inductive Engine where
  | fetch | matrix | vector | store
  deriving DecidableEq, Repr

/-- State of a stream (R31, R306). -/
inductive StreamState where
  | idle | running | halted | faulted
  deriving DecidableEq, Repr

/-- State of an accumulator set (R75). -/
inductive AccState where
  | empty | accumulating | ended | draining
  deriving DecidableEq, Repr

/-- State of a partition (R389). -/
inductive PartState where
  | unformed | forming | stopped | running | restarting | preempted | held
  deriving DecidableEq, Repr

/-- Element formats (R112). -/
inductive Fmt where
  | fp32 | bf16 | fp16 | e4m3 | e5m2 | e3m2 | e2m3 | e2m1 | int8
  deriving DecidableEq, Repr

/-- An exact value: a NaN, a signed infinity, or the number (-1)^neg * mant * 2^expo. -/
inductive Fp where
  | nan
  | inf (neg : Bool)
  | fin (neg : Bool) (mant : Nat) (expo : Int)
  deriving DecidableEq, Repr

/-- Rounding modes (R118). -/
inductive RoundMode where
  | nearestEven
  | towardZero
  | stochastic (r : Nat)
  deriving DecidableEq, Repr

/-- A value of a dictionary object (R459): an unsigned or signed number of its own width, or a string of bytes. -/
inductive Value where
  | num (n : Int)
  | bytes (b : List Byte)
  deriving DecidableEq, Repr

/-- One row of an object table (R475): index, index stride and instances, first and last subindex, type code
(R460), access code (R461: 0 RO, 1 RW, 2 WO, 3 RWC, 4 LW), writes of an LW row, persistence code, default, name,
least and greatest value or length. -/
structure ObjRow where
  index : Nat
  stride : Nat
  count : Nat
  first : Nat
  last : Nat
  typ : Nat
  acc : Nat
  lw : Nat
  pers : Nat
  dflt : Value
  name : String
  lo : Int
  hi : Int
  deriving DecidableEq, Repr

/-- What a bank-side operation does (R49); `undefined` stands for an undefined operation code (R48). -/
inductive BankOp where
  | addF32 | addBf16 | addF32FromBf16 | addBf16FromF32
  | compF32 | compBf16
  | maxIdx | minIdx
  | rowClaim | rowAddF32 | rowAddBf16
  | undefined
  deriving DecidableEq, Repr

/-- Who requests a bank-side operation (R49): a tile engine for a stream, a Retriever request by its number, or a
remote write, named by its peer, its partition here and its sequence number. -/
inductive BankReq where
  | tile (t : Fin 64) (x : Stream) (e : Engine)
  | retriever (id : Nat)
  | flow (peer : Fin 1024) (part : Fin 16) (seq : BitVec 32)
  deriving DecidableEq, Repr

/-- A request to a memory line (R251): a read, a plain write of bytes at an offset of the line, or a read-modify-write
at an offset: STORE's bank operations 1 to 5 (R320), 6 the add of FP32 values to BF16 elements, 7 a row claim (R49). -/
inductive MemReq where
  | read
  | write (off : Fin 64) (data : List Byte)
  | modify (op : Fin 8) (off : Fin 64) (data : List Byte)
  deriving DecidableEq, Repr

/-- Where an uncorrectable error is met (R248, R251): by a request to a 64-byte line of memory, or as a parity error of
a tile's accumulators, buffers or queues in the work of a stream at an engine. -/
inductive ErrorSite where
  | line (line : BitVec 51)
  | parity (t : Fin 64) (x : Stream) (e : Engine)
  deriving DecidableEq, Repr

/-- A received LFT packet: whether its CRC-32C is right (R366), header fields and payload (R367). `typ` is the type as the
header names it: a command's own, or, 8 to 15, one that this version does not know. -/
structure LftPacket where
  crcOk : Bool
  version : BitVec 4
  typ : BitVec 4
  retx : Bool
  srcPeer : Fin 1024
  srcPart : Fin 16
  dstPart : Fin 16
  seq : BitVec 32
  aux : BitVec 32
  addr : BitVec 64
  operand : BitVec 64
  payload : List Byte
  deriving DecidableEq, Repr

/-- A doorbell that a work core stores to: the core and the doorbell's partition (R288). -/
structure Door where
  core : Fin 96
  part : Fin 16
  deriving DecidableEq, Repr

/-- A burst whose retries are exhausted: its interface and how many of its bursts had been retried before (R249, R258). -/
structure Burst where
  itf : Fin 160
  retried : BitVec 32
  deriving DecidableEq, Repr

/-- A read item of a DAP READ (R457). -/
structure ReadItem where
  index : BitVec 16
  sub : BitVec 8
  flags : BitVec 8
  offset : BitVec 32
  maxLen : BitVec 16
  deriving DecidableEq, Repr

/-- A write item of a DAP WRITE (R457): the value's bytes, most significant first. -/
structure WriteItem where
  index : BitVec 16
  sub : BitVec 8
  data : List Byte
  deriving DecidableEq, Repr

/-- A client's message after READY (R456). -/
inductive DapMsg where
  | read (items : List ReadItem)
  | write (items : List WriteItem)
  | commit
  | discard
  | confirm (token : BitVec 32)
  | subscribe (mask : BitVec 16) (minSev : BitVec 8) (fromSeq : BitVec 64)
  | eventAck (seq : BitVec 64)
  | ping
  | close
  | bad (typ : BitVec 8)
  deriving DecidableEq, Repr

/-- What the best master clock algorithm compares of an Announce (R380): the grandmaster's priority 1, clock class,
accuracy, variance, priority 2 and identity, and the steps removed from it. -/
structure PtpClock where
  priority1 : BitVec 8
  cls : BitVec 8
  accuracy : BitVec 8
  variance : BitVec 16
  priority2 : BitVec 8
  gm : BitVec 64
  steps : BitVec 16
  deriving DecidableEq, Repr

/-- What every PTP message carries (R380): its transport (0 Layer 2, 1 UDP over IPv4, 2 UDP over IPv6), domain, source port
identity, sequence number and correction in 2^-16 ns. -/
structure PtpHead where
  transport : Fin 3
  domain : BitVec 8
  source : BitVec 80
  seq : BitVec 16
  corr : BitVec 64
  deriving DecidableEq, Repr

/-- A PTP message (R380): Announce; Sync, in one-step form with its time of sending, and its Follow_Up in two-step form;
Delay_Resp; a peer's Pdelay_Req, Pdelay_Resp and Pdelay_Resp_Follow_Up; a PTP management message. A timestamp is 48 bits
of seconds and 32 of nanoseconds; an answer names the port that asked. -/
inductive PtpMsg where
  | announce (h : PtpHead) (c : PtpClock)
  | sync (h : PtpHead) (twoStep : Bool) (origin : BitVec 80)
  | followUp (h : PtpHead) (origin : BitVec 80)
  | delayResp (h : PtpHead) (received : BitVec 80) (asker : BitVec 80)
  | pdelayReq (h : PtpHead)
  | pdelayResp (h : PtpHead) (twoStep : Bool) (received : BitVec 80) (asker : BitVec 80)
  | pdelayFollow (h : PtpHead) (sent : BitVec 80) (asker : BitVec 80)
  | management (h : PtpHead)
  deriving DecidableEq, Repr

/-- How a received Ethernet frame came (R359, R361, R385): whether its FCS is right, its priority tag (none: untagged), the
FEC codewords that the sub-port corrected and could not correct since the frame before it, and whether the receive buffer
of its priority asks the sender to pause. -/
structure FrameCheck where
  fcsOk : Bool
  pcp : Option (BitVec 3)
  corrected : BitVec 32
  uncorrectable : BitVec 32
  full : Bool
  deriving DecidableEq, Repr

/-- A CMIS reading of a front optic (R362, R487): its alarm and warning flags and the state of its module state machine:
1 low power, 2 powering up, 3 ready, 4 powering down, 5 fault. -/
structure OpticReading where
  flags : BitVec 16
  state : Fin 6
  deriving DecidableEq, Repr

/-- Where a DAP frame comes from (R449): over Ethernet II (0), IPv4 (1), IPv6 to the link-local address (2) or to the routed
one (3); its EtherType or UDP destination port, source MAC address, IP address and UDP port, and its VLAN tag. -/
structure DapSource where
  ip : Fin 4
  service : BitVec 16
  mac : BitVec 48
  addr : BitVec 128
  port : BitVec 16
  vlan : Option (BitVec 12)
  deriving DecidableEq, Repr

/-- How a DAP frame arrives: on a sub-port or the management port (128), from where, with its header (R449, R450). -/
structure DapArrival where
  via : Fin 129
  src : DapSource
  header : BitVec 128
  deriving DecidableEq, Repr

/-- A register write with no row of its own: an object of the dictionary by a session, or by software a field of a
stream control block (R306) or the `valid` bit of a fault record (R334). -/
inductive RegWrite where
  | object (sess : BitVec 32) (index : BitVec 16) (sub : BitVec 8) (data : List Byte)
  | entry (t : Fin 64) (x : Stream) (v : BitVec 64)
  | firstStep (t : Fin 64) (x : Stream) (v : BitVec 64)
  | faultValid (t : Fin 64) (v : Bool)
  deriving DecidableEq, Repr

/-- Kinds of an instruction fault (R332), by code. -/
inductive FaultKind where
  | encoding | stream | shape | format | sequence | address | sync | descriptor | parity
  deriving DecidableEq, Repr

end Sys2Proof
end

