-- ==== Sys2Proof/Syntax.lean ====
section
/-! DEFINITION. Syntax.lean: the commands of the block: one constructor per row of spec/opcode_table.json, and the
shapes of their operands. -/

namespace Sys2Proof


/-- The commands (spec/opcode_table.json), in the table's order. Fin operands name units; BitVec operands are words.
  -/
inductive Instr where
  /-- NOP (R309). Control instruction dispatched by the sequencer with no effect. -/
  | nop (t : Fin 64) (x : Stream) (w : BitVec 122)
  /-- STEP (R309). Marks the start of the stream's code for the next step and records the step marks. -/
  | step (t : Fin 64) (x : Stream) (w : BitVec 122)
  /-- JUMP (R309). Redirects the stream's fetch to a 16-byte-aligned target and discards words fetched beyond it. -/
  | jump (t : Fin 64) (x : Stream) (w : BitVec 122)
  /-- END (R309). Stops fetching; the stream becomes HALTED once its dispatched instructions complete. -/
  | endStream (t : Fin 64) (x : Stream) (w : BitVec 122)
  /-- MMA (R57). Accumulates A times B, both natural, into the active accumulator set; dense or sparse. -/
  | mma (t : Fin 64) (x : Stream) (w : BitVec 122)
  /-- MMA_T (R63). Accumulating product with A, B or both read through the transposing feeders. -/
  | mmaT (t : Fin 64) (x : Stream) (w : BitVec 122)
  /-- BWD2 (R96). B-stream gradient product, DX or DW, against a gradient panel buffer, with an optional panel load.
  -/
  | bwd2 (t : Fin 64) (x : Stream) (w : BitVec 122)
  /-- DRAIN (R79). Drains the shadow accumulator set through the epilogue into the tile store. -/
  | drain (t : Fin 64) (x : Stream) (w : BitVec 122)
  /-- LOAD (R318). Copies whole lines, linear or by copy descriptor, into the tile's own store. -/
  | load (t : Fin 64) (x : Stream) (w : BitVec 122)
  /-- LOADT (R319). Copies far rows into the tile store transposed. -/
  | loadt (t : Fin 64) (x : Stream) (w : BitVec 122)
  /-- STORE (R320). Writes lines from the tile store, locally or to a peer, plain or with a bank operation. -/
  | store (t : Fin 64) (x : Stream) (w : BitVec 122)
  /-- GATHER (R182). Issues a Retriever gather request named by a request descriptor. -/
  | gather (t : Fin 64) (x : Stream) (w : BitVec 122)
  /-- SCATTER_ADD (R182). Issues a Retriever scatter-add or merge request named by a request descriptor. -/
  | scatterAdd (t : Fin 64) (x : Stream) (w : BitVec 122)
  /-- UPD_P1 (R148). Sends a group's pass-1 command to the Update engines that hold its slices. -/
  | updP1 (t : Fin 64) (x : Stream) (w : BitVec 122)
  /-- UPD_P2 (R148). Sends a group's pass-2 command to the Update engines that hold its slices. -/
  | updP2 (t : Fin 64) (x : Stream) (w : BitVec 122)
  /-- VEXEC (R323). Runs a vector program from the tile store until VEND. -/
  | vexec (t : Fin 64) (x : Stream) (w : BitVec 122)
  /-- REDUCE_SLOT_SUM (R327). Waits on the tie counter, folds weight-gradient slots and writes the bucket slice. -/
  | reduceSlotSum (t : Fin 64) (x : Stream) (w : BitVec 122)
  /-- REDUCE_SELECT (R223). Selects active and cut neurons from scores and writes the list, counts and audit rows. -/
  | reduceSelect (t : Fin 64) (x : Stream) (w : BitVec 122)
  /-- REDUCE_AUDIT (R225). Computes lost mass and missed neurons for the audited rows and updates the audit record. -/
  | reduceAudit (t : Fin 64) (x : Stream) (w : BitVec 122)
  /-- NORMRC (R104). Recompute-backward of LayerNorm or RMSNorm in two sweeps. -/
  | normrc (t : Fin 64) (x : Stream) (w : BitVec 122)
  /-- SMAXRC (R105). Recompute-backward of a soft-maximum in two sweeps. -/
  | smaxrc (t : Fin 64) (x : Stream) (w : BitVec 122)
  /-- SIGNAL (R263). Adds to or raises a local or remote counter once the writes it covers are visible. -/
  | signal (t : Fin 64) (x : Stream) (w : BitVec 122)
  /-- WATCH (R270). Arms a watch register on a counter target without waiting. -/
  | watch (t : Fin 64) (x : Stream) (w : BitVec 122)
  /-- WAIT (R270). Blocks the engine in its stream until a watch register fires, registering it inline in form 1. -/
  | wait (t : Fin 64) (x : Stream) (w : BitVec 122)
  /-- VEND (R325). Ends the vector program. -/
  | vend (t : Fin 64) (w : BitVec 58)
  /-- VLD (R325). Loads a 2 KiB vector register from the tile store. -/
  | vld (t : Fin 64) (w : BitVec 58)
  /-- VST (R325). Stores a 2 KiB vector register to the tile store. -/
  | vst (t : Fin 64) (w : BitVec 58)
  /-- VADD (R325). Element-wise vector add. -/
  | vadd (t : Fin 64) (w : BitVec 58)
  /-- VSUB (R325). Element-wise vector subtract. -/
  | vsub (t : Fin 64) (w : BitVec 58)
  /-- VMUL (R325). Element-wise vector multiply. -/
  | vmul (t : Fin 64) (w : BitVec 58)
  /-- VFMA (R325). Element-wise fused multiply-add into vd, rounded once. -/
  | vfma (t : Fin 64) (w : BitVec 58)
  /-- VMAX (R325). Element-wise maximum. -/
  | vmax (t : Fin 64) (w : BitVec 58)
  /-- VMIN (R325). Element-wise minimum. -/
  | vmin (t : Fin 64) (w : BitVec 58)
  /-- VCGT (R325). Element-wise greater-than mask. -/
  | vcgt (t : Fin 64) (w : BitVec 58)
  /-- VSEL (R325). Element-wise select under a mask. -/
  | vsel (t : Fin 64) (w : BitVec 58)
  /-- VEXP (R325). Element-wise exponential. -/
  | vexp (t : Fin 64) (w : BitVec 58)
  /-- VLOG (R325). Element-wise natural logarithm. -/
  | vlog (t : Fin 64) (w : BitVec 58)
  /-- VRCP (R325). Element-wise reciprocal. -/
  | vrcp (t : Fin 64) (w : BitVec 58)
  /-- VRSQ (R325). Element-wise reciprocal square root. -/
  | vrsq (t : Fin 64) (w : BitVec 58)
  /-- VCVT (R325). Converts a register between formats with the given rounding mode. -/
  | vcvt (t : Fin 64) (w : BitVec 58)
  /-- VAND (R325). Bitwise AND. -/
  | vand (t : Fin 64) (w : BitVec 58)
  /-- VOR (R325). Bitwise OR. -/
  | vor (t : Fin 64) (w : BitVec 58)
  /-- VXOR (R325). Bitwise XOR. -/
  | vxor (t : Fin 64) (w : BitVec 58)
  /-- VSHL (R325). INT32 shift left or arithmetic shift right. -/
  | vshl (t : Fin 64) (w : BitVec 58)
  /-- VBC (R325). Broadcasts a scalar register into every element. -/
  | vbc (t : Fin 64) (w : BitVec 58)
  /-- VRSUM (R325). Sums a register's elements by the aligned method into a scalar register. -/
  | vrsum (t : Fin 64) (w : BitVec 58)
  /-- VRMAX (R325). Finds a register's largest element and its lowest index. -/
  | vrmax (t : Fin 64) (w : BitVec 58)
  /-- SADD (R325). Adds a sign-extended immediate to a scalar register. -/
  | sadd (t : Fin 64) (w : BitVec 58)
  /-- SLOOP (R325). Decrements a scalar register and branches while it is nonzero. -/
  | sloop (t : Fin 64) (w : BitVec 58)
  /-- SLD (R325). Loads a U64 from the tile store into a scalar register. -/
  | sld (t : Fin 64) (w : BitVec 58)
  /-- SST (R325). Stores a scalar register as a U64 to the tile store. -/
  | sst (t : Fin 64) (w : BitVec 58)
  /-- SWREAD (R325). Reads a watch register's status or counter value into a scalar register. -/
  | swread (t : Fin 64) (w : BitVec 58)
  /-- HAND_OVER (R76). When the shadow set is EMPTY, the ended active set becomes the shadow set and the last
  accumulating instruction completes. -/
  | handOver (t : Fin 64)
  /-- LOAD_COMPLETE (R40). The last line of a LOAD lands, releasing interlocked accesses that overlap it. -/
  | loadComplete (t : Fin 64) (x : Stream) (seq : BitVec 32)
  /-- PANEL_LOAD_COMPLETE (R94). A gradient panel or sparse half finishes loading, letting readers of the buffer
  accumulate. -/
  | panelLoadComplete (t : Fin 64) (x : Stream) (seq : BitVec 32)
  /-- SIDE_OPERAND_LOADED (R82). A DRAIN's side operand is wholly in the side buffer, so the drain may start. -/
  | sideOperandLoaded (t : Fin 64) (x : Stream) (seq : BitVec 32)
  /-- TOKEN_TIMEOUT (R55). A head instruction held on a token or credit beyond tile.token_timeout_us stops the tile
  and restarts the partition. -/
  | tokenTimeout (t : Fin 64) (x : Stream) (e : Engine)
  /-- BANK_SIDE_OP (R48). A bank-side operation reaches its bank and is applied to one 64-byte line. -/
  | bankSideOp (t : Fin 64) (line : Fin 393216) (op : BankOp) (operand : BitVec 1024)
    (req : BankReq)
  /-- STREAM_RUN (R307). A write of run = 1 to a stream control block starts the stream at entry. -/
  | streamRun (t : Fin 64) (x : Stream)
  /-- HUB_SIGNAL_APPLY (R264). The hub applies a local signal once its covered writes are visible and sends any
  whistles. -/
  | hubSignalApply (k : Nat)
  /-- HELD_SIGNAL_APPLY (R267). A held remote signal is applied when its flow's landed watermark reaches it. -/
  | heldSignalApply (k : Nat)
  /-- COUNTER_ADD (R262). A work-core store to offset 0x08 of a counter line adds to the counter. -/
  | counterAdd (c : Fin 96) (n : Fin 16384) (v : BitVec 64)
  /-- COUNTER_MAX (R262). A work-core store to offset 0x10 of a counter line raises the counter to the stored value.
  -/
  | counterMax (c : Fin 96) (n : Fin 16384) (v : BitVec 64)
  /-- COUNTER_INIT (R262). A work-core store to offset 0x18 sets the counter while the job is stopped. -/
  | counterInit (c : Fin 96) (n : Fin 16384) (v : BitVec 64)
  /-- WATCH_REGISTER (R272). A watch registration reaches the hub and fires at once if its target already holds. -/
  | watchRegister (k : Nat)
  /-- WATCH_SLOT_FREED (R271). A freed watch slot admits a registration that was waiting for one. -/
  | watchSlotFreed (k : Nat)
  /-- WATCH_TIMEOUT (R274). A watch timeout elapses and the watch completes with TIMEOUT. -/
  | watchTimeout (list : Fin 3) (k : Nat)
  /-- WHISTLE_ARRIVAL (R273). A whistle reaches its waiter, completing a WAIT, readying a work item or starting a
  queue head. -/
  | whistleArrival (k : Nat)
  /-- SYNC_SELECT (R282). A write to dbg.sync_select takes a snapshot of one counter for inspection. -/
  | syncSelect (n : BitVec 16)
  /-- ENQUEUE (R289). A 64-byte work-item descriptor written to an enqueue port is checked and copied into a slot. -/
  | enqueue (d : Fin 4) (c : Fin 96) (whole : Bool) (desc : BitVec 512)
  /-- ENQUEUE_SLOT_FREED (R291). A held enqueue write takes a slot when one frees or the quota allows. -/
  | enqueueSlotFreed (k : Nat)
  /-- ITEM_DISPATCH (R296). A free core takes the oldest READY item of the highest level it may run. -/
  | itemDispatch (c : Fin 96)
  /-- ITEM_RETURN (R294). An item returns; done_counter is signalled after its stores are acknowledged. -/
  | itemReturn (c : Fin 96) (status : BitVec 64)
  /-- ITEM_FAULT (R294). An item takes a RISC-V exception and the partition restarts. -/
  | itemFault (c : Fin 96) (cause pc : BitVec 64)
  /-- ITEM_OVERRUN (R294). An item still RUNNING after sched.run_limit_us is stopped and the partition restarts. -/
  | itemOverrun (c : Fin 96)
  /-- AGING_EVALUATION (R297). Once per microsecond the scheduler raises the levels of starved READY items. -/
  | agingEvaluation (d : Fin 4)
  /-- HOUND_DOORBELL (R165). A store of a sample descriptor address to the partition's Hound doorbell queues or
  refuses a trail. -/
  | houndDoorbell (door : Door) (addr : BitVec 64)
  /-- HOP_CLOSE (R170). When every slot of a hop is written, final local indices are assigned and the hop counter is
  signalled. -/
  | hopClose (p : Fin 16)
  /-- TRAIL_COMPLETE (R175). Hound writes status 1 and signals complete_counter after the trail's other lines. -/
  | trailComplete (p : Fin 16)
  /-- RETRIEVER_REQUEST_COMPLETE (R186). A gather's rows are visible or a scatter-add's adds applied, and
  done_counter is signalled. -/
  | retrieverRequestComplete (k : Nat)
  /-- MERGE_ADD (R195). A merge-add is stored or summed into a row of the step's touched-row set, or dropped as a
  stray. -/
  | mergeAdd (k : Nat)
  /-- DEFERRED_ROW_DELIVERED (R196). A deferred lookup is delivered once pass 2 reports its row written or the
  update is skipped. -/
  | deferredRowDelivered (k : Nat)
  /-- MIGRATION_SWITCH (R201). A hot-row copy completes, the epoch advances and the new home takes effect with held
  writes applied. -/
  | migrationSwitch (k : Nat)
  /-- PUBLISH_DOORBELL (R203). A store of a table number to the publish doorbell stages or refuses a table
  replacement. -/
  | publishDoorbell (door : Door) (t : BitVec 32)
  /-- VERSION_FREED (R206). A no-longer-current descriptor loses its last pin and is written to freed. -/
  | versionFreed (k : Nat)
  /-- MASK_LOAD_DOORBELL (R211). A store of a mask descriptor address starts or refuses a mask load. -/
  | maskLoadDoorbell (door : Door) (addr : BitVec 64)
  /-- PLAN_BUILT (R212). The planner finishes, writes the plan or a failed header, and signals done_counter. -/
  | planBuilt (p : Fin 16)
  /-- PASS1_SLICE (R149). The Update engine runs pass 1 on a slice: checks the record, reads state and forms norm
  sums. -/
  | pass1Slice (d : Fin 4)
  /-- DIE_PASS1_COMPLETE (R149). A die completes pass 1 for all its groups, stamps its partial and signals the
  pass-1 counter. -/
  | diePass1Complete (p : Fin 16) (d : Fin 4)
  /-- NORM_COMBINE (R149). The norm die combines a unit's die slots into FP32 norms once every die shows the step. -/
  | normCombine (p : Fin 16) (gi : Fin 4096) (k : Fin 65536)
  /-- PASS2_START (R152). A pass-2 queue head starts when the global-norm counter reaches s + 1. -/
  | pass2Start (d : Fin 4)
  /-- PASS2_SLICE_DONE (R152). A slice's block writes complete and its next step record is written. -/
  | pass2SliceDone (d : Fin 4)
  /-- GROUP_UPDATE_DONE (R146). The last slice of a group writes its record and the norm die signals the group step
  and boundary counters. -/
  | groupUpdateDone (p : Fin 16) (gi : Fin 4096)
  /-- STEP_BOUNDARY (R21). The boundary counter reaches its target, buffers swap and step state is released. -/
  | stepBoundary (p : Fin 16)
  /-- PLACEMENT_RELOAD (R234). A write of 1 to place.reload rereads the placement table at the next boundary. -/
  | placementReload (p : Fin 16) (v : BitVec 8)
  /-- UNCORRECTABLE_ERROR (R251). A read meets an uncorrectable error; the line is poisoned and requests park for a
  refill. -/
  | uncorrectableError (e : ErrorSite) (req : MemReq)
  /-- REFILL_ARRIVED (R253). A refill source line arrives, serves parked requests and starts page retirement. -/
  | refillArrived (k : Nat) (good : Bool) (corrected : Bool)
  /-- PAGE_COPY_DONE (R253). A retired page's copy completes and its address is remapped. -/
  | pageCopyDone (k : Nat)
  /-- LINK_CRC_FAILURE (R249). A burst exhausts its CRC retries and the interface is retrained. -/
  | linkCrcFailure (burst : Burst)
  /-- RETRAIN_DONE (R249). A GDDR7 interface retrain completes or fails. -/
  | retrainDone (i : Fin 160) (ok : Bool)
  /-- PATROL_SCRUB (R250). The patrol scrub reads and corrects lines and retires pages over their threshold. -/
  | patrolScrub (line : BitVec 51) (found : BitVec 16) (reads : BitVec 16)
  /-- FAR_READ_TIMEOUT (R241). A T2 read unanswered within timeout_us completes poisoned. -/
  | farReadTimeout (k : Nat)
  /-- WINDOW_OPEN (R239). Software writes state 1 to a window entry, opening it. -/
  | windowOpen (w : Fin 256) (entry : BitVec 512)
  /-- WINDOW_CLOSE (R239). Software writes state 2 to a window entry; it reaches CLOSED when outstanding reads
  complete. -/
  | windowClose (w : Fin 256)
  /-- PROGRESS_CHANGE (R244). A change of the progress counter issues prefetch entries and classifies those at their
  use points. -/
  | progressChange (p : Fin 16)
  /-- PREFETCH_LANDED (R242). A prefetch entry's bytes land and its arrive_counter is signalled. -/
  | prefetchLanded (p : Fin 16) (i : Fin 65536)
  /-- PREFETCH_CREDITS_RETURNED (R245). The release counter reaches an entry's issue count and its credits return. -/
  | prefetchCreditsReturned (p : Fin 16) (i : Fin 65536)
  /-- PEER_TABLE_WRITE (R363). A write to a peer entry, acting only on enable while enabled. -/
  | peerTableWrite (peer : Fin 1024) (entry : BitVec 512)
  /-- LFT_HELLO_RECEIVED (R369). A HELLO marks a path UP, agrees a version or reveals a new incarnation. -/
  | lftHelloReceived (sub : Fin 128) (peer : Fin 1024) (mid inc : BitVec 64) (versions : BitVec 16) (youAre : Fin 1024)
  /-- LFT_WRITE_RECEIVED (R373). A sequenced WRITE is checked and applied once, or refused with a NAK. -/
  | lftWriteReceived (h : LftPacket)
  /-- LFT_READ_RECEIVED (R374). A READ is checked and answered with READ_DATA. -/
  | lftReadReceived (h : LftPacket)
  /-- LFT_READ_DATA_RECEIVED (R374). A READ_DATA answer completes window-read lines good or poisoned. -/
  | lftReadDataReceived (h : LftPacket)
  /-- LFT_SIGNAL_RECEIVED (R267). A sequenced SIGNAL is checked and applied, held or dropped. -/
  | lftSignalReceived (h : LftPacket)
  /-- LFT_REDUCE_RECEIVED (R376). A REDUCE contribution is combined into its reduction round. -/
  | lftReduceReceived (h : LftPacket) (ops : BitVec 32)
  /-- LFT_ACK_RECEIVED (R372). An ACK settles landed packets and grants credit. -/
  | lftAckReceived (h : LftPacket)
  /-- LFT_NAK_RECEIVED (R373). A NAK settles a refused sequence, faulting the STORE or restarting the sender of a
  SIGNAL. -/
  | lftNakReceived (h : LftPacket)
  /-- LFT_RETRANSMIT_TIMEOUT (R372). An unacknowledged packet older than lft.rto_us is sent again on another path. -/
  | lftRetransmitTimeout (peer : Fin 1024) (part : Fin 16) (seq : BitVec 32)
  /-- ACK_TIMER (R372). The receiver sends an ACK after 2 µs with packets unacknowledged. -/
  | ackTimer (peer : Fin 1024) (part : Fin 16)
  /-- HELLO_INTERVAL (R369). The HELLO timer sends a HELLO on every path of every enabled peer. -/
  | helloInterval (peer : Fin 1024)
  /-- PEER_TIMEOUT (R378). A flow whose peer has no path or an old unacknowledged packet fails and bound partitions
  restart. -/
  | peerTimeout (peer : Fin 1024)
  /-- REDUCE_DOORBELL (R375). A store of a reduction descriptor address starts an LFT reduction. -/
  | reduceDoorbell (door : Door) (addr : BitVec 64)
  /-- REDUCTION_DONE (R376). The last round ends, the result is written and done_counter is signalled. -/
  | reductionDone (k : Nat)
  /-- LINK_UP (R360). A sub-port achieves FEC alignment and PCS lock. -/
  | linkUp (l : Fin 128)
  /-- LINK_DOWN (R360). A sub-port loses alignment; its unacknowledged packets are resent at once. -/
  | linkDown (l : Fin 128)
  /-- LINK_HOLD_EXPIRY (R360). A sub-port held down for 10 s after flapping retries. -/
  | linkHoldExpiry (l : Fin 128)
  /-- FRAME_RECEIVED (R359). A received Ethernet frame is checked for size and FCS and passed on or dropped. -/
  | frameReceived (l : Fin 128) (len : BitVec 16) (check : FrameCheck)
  /-- PFC_FRAME_RECEIVED (R361). A received PFC frame pauses or releases priorities on a sub-port. -/
  | pfcFrameReceived (l : Fin 128) (enable times : BitVec 8)
  /-- PFC_WATCHDOG (R361). A priority paused beyond port.pfc_watchdog_ms raises fabric.pfc_storm and pause is
  ignored for 1 s. -/
  | pfcWatchdog (l : Fin 128) (k : Fin 8)
  /-- OPTIC_INSERTED (R362). An optic is inserted, identified, checked for power and given an Application. -/
  | opticInserted (p : Fin 4) (copper : Bool) (powerMw : BitVec 32) (apps : BitVec 4) (vendor part serial : List Byte)
  /-- OPTIC_REMOVED (R362). An optic is removed and its sub-ports go down. -/
  | opticRemoved (p : Fin 4)
  /-- PTP_MESSAGE (R380). A PTP event or general message is timestamped and drives the clock servo. -/
  | ptpMessage (port : Fin 129) (m : PtpMsg)
  /-- ANNOUNCE_TIMEOUT (R382). Announce messages stop for the receipt timeout and device time enters HOLDOVER. -/
  | announceTimeout
  /-- HOLDOVER_LIMIT (R382). HOLDOVER beyond time.holdover_limit_s becomes FREERUN. -/
  | holdoverLimit
  /-- FORM (R391). Powers, zeroes, self-tests and claims counters for a partition, leaving it STOPPED. -/
  | form (p : Fin 16)
  /-- START (R390). Reads the job's tables and starts every stream in the same TILE cycle. -/
  | start (p : Fin 16)
  /-- STOP (R390). Resets the partition without undo, orphans and re-owns its counters, and leaves it STOPPED. -/
  | stop (p : Fin 16)
  /-- PREEMPT (R406). Pauses the partition at the boundary of its current step. -/
  | preempt (p : Fin 16)
  /-- RESUME (R406). Lets every stream of a preempted partition dispatch again. -/
  | resume (p : Fin 16)
  /-- RESTART (R390). Commands a restart of the current step. -/
  | restart (p : Fin 16)
  /-- DISSOLVE (R390). Returns every resource and makes the partition UNFORMED. -/
  | dissolve (p : Fin 16)
  /-- PARTITION_RESTART (R395). A restart cause stops, quiesces, undoes and rewinds the partition and replays step
  s. -/
  | partitionRestart (p : Fin 16)
  /-- HEALTH_PROBE (R400). A probe interval elapses; a unit that misses enough probes is declared dead. -/
  | healthProbe (u : Fin 264) (answered : Bool)
  /-- REPLACEMENT_READY (R402). A pool tile is powered, zeroed and given the logical number and tag. -/
  | replacementReady (t : Fin 64)
  /-- RETIRE_REQUEST (R403). A write to tile.retire_request retires and replaces a logical tile. -/
  | retireRequest (t : BitVec 8)
  /-- TEST_REQUEST (R404). A write to tile.test_request self-tests a pool tile. -/
  | testRequest (ph : BitVec 8)
  /-- POOL_TEST_TIMER (R404). The daily timer self-tests each pool tile. -/
  | poolTestTimer (d : Fin 4)
  /-- SELF_TEST_DONE (R401). A self-test ends; a passing unit rejoins the pool and a failing one is retired. -/
  | selfTestDone (u : Fin 268) (pass : Bool)
  /-- INPUT_SAMPLE (R411). The input voltage and current are measured and classified into bands. -/
  | inputSample (mv ma : BitVec 32)
  /-- INPUT_FAULT (R412). An input fault powers down every domain except MGMT and runs the kennel save. -/
  | inputFault
  /-- KENNEL_SAVE_DONE (R412). The kennel save completes and MGMT and AO turn off. -/
  | kennelSaveDone
  /-- IDLE_TIMER_EXPIRY (R416). A DOZE, NAP or SLEEP timer expires and the domain commits to entering that state. -/
  | idleTimerExpiry (i : Fin 48) (st : Fin 4)
  /-- DOMAIN_WAKE (R420). A request, packet, whistle or frame reaches a domain that is not ACTIVE and wakes it. -/
  | domainWake (i : Fin 48)
  /-- STATE_ENTRY_DONE (R421). A power-state entry completes; a held wake starts the exit at once. -/
  | stateEntryDone (i : Fin 48)
  /-- STATE_EXIT_DONE (R421). A domain becomes ACTIVE and held traffic is delivered in order. -/
  | stateExitDone (i : Fin 48)
  /-- POWER_EVALUATION (R428). Every 100 µs the power manager compares input power with the cap and steps the stage.
  -/
  | powerEvaluation (array : BitVec 32)
  /-- THERMAL_REPORT (R430). A die reports its sensor reading and its temperature level changes. -/
  | thermalReport (sensor : Fin 51) (milliC : Int)
  /-- COOLANT_SAMPLE (R431). Coolant flow and inlet temperature set the coolant limit. -/
  | coolantSample (flow : BitVec 32) (inlet : Int)
  /-- THERMAL_CRITICAL (R432). A critical level or lost flow powers off every domain except MGMT. -/
  | thermalCritical (kind : Fin 3) (unit : Fin 64)
  /-- PWR_EN_HIGH (R435). PWR_EN rising with input in range begins a cold start. -/
  | pwrEnHigh
  /-- PWR_EN_LOW (R435). PWR_EN falling powers the module down without an input fault. -/
  | pwrEnLow
  /-- RST_N_LOW (R436). RST_N held low for 1 µs requests a reset and holds domains in reset. -/
  | rstNLow
  /-- RST_N_HIGH (R436). RST_N released lets a held cold start or warm reset continue. -/
  | rstNHigh
  /-- COLD_START (R438). The module runs the cold start sequence through bring-up, zeroing and PTP wait to READY. -/
  | coldStart (slot : BitVec 6) (svc : Bool) (fail : Fin 13) (detail : BitVec 32)
  /-- GDDR7_TRAINING_DONE (R441). Interface training ends; failing interfaces make their group unusable. -/
  | gddr7TrainingDone (failed : BitVec 160)
  /-- PTP_WAIT_EXPIRY (R442). Step 11 ends at lock or after dev.ptp_wait_s. -/
  | ptpWaitExpiry
  /-- BOOT_READY (R443). Steps 7 to 11 complete and the module becomes READY. -/
  | bootReady
  /-- HOLDUP_CHARGED (R443). The hold-up store reaches 85 % and kennel-held flash settings are written. -/
  | holdupCharged
  /-- WARM_RESET (R445). A warm reset powers domains off and reruns the cold start from step 3 with saved training. -/
  | warmReset (slot : BitVec 6) (svc : Bool) (fail : Fin 13) (detail : BitVec 32)
  /-- DEV_RESET (R445). A write of 1 to dev.reset answers the request and starts a warm reset. -/
  | devReset (v : BitVec 8)
  /-- DAP_HELLO (R452). A client HELLO opens a handshake and is answered with HELLO_ACK. -/
  | dapHello (via : Fin 129) (src : DapSource) (nonce : BitVec 256) (versions : BitVec 16) (role : BitVec 8) (key : List Byte)
  /-- DAP_KEY (R452). KEY completes the handshake, derives keys and grants a role with READY. -/
  | dapKey (came : DapArrival) (ct sig : List Byte)
  /-- HANDSHAKE_TIMEOUT (R453). KEY not arriving within 5 s ends the handshake without a session. -/
  | handshakeTimeout (sess : BitVec 32)
  /-- DAP_FRAME_RECEIVED (R450). A DAP frame is checked, authenticated and joined to its message. -/
  | dapFrameReceived (came : DapArrival) (payload tag : List Byte)
  /-- REASSEMBLY_TIMEOUT (R450). A message whose segments are not all received within 1 s is discarded. -/
  | reassemblyTimeout (sess seq : BitVec 32)
  /-- READ (R457). Reads up to 64 object values or descriptions. -/
  | read (sess seq : BitVec 32) (items : List ReadItem)
  /-- WRITE (R457). Writes up to 64 items in order, each by its access class. -/
  | write (sess seq : BitVec 32) (items : List WriteItem)
  /-- COMMIT (R463). Checks the session's staged set and commits it whole or refuses it. -/
  | commit (sess seq : BitVec 32)
  /-- DISCARD (R456). Discards the session's staged values. -/
  | discard (sess seq : BitVec 32)
  /-- CONFIRM (R467). Programs a fuse row with a valid token and reads it back. -/
  | confirm (sess seq token : BitVec 32)
  /-- SUBSCRIBE (R469). Sets or replaces the session's event subscription. -/
  | subscribe (sess seq : BitVec 32) (mask : BitVec 16) (minSev : BitVec 8) (fromSeq : BitVec 64)
  /-- EVENT_ACK (R469). Acknowledges delivered event records. -/
  | eventAck (sess seq : BitVec 32) (acked : BitVec 64)
  /-- PING (R456). Keeps the session alive and is answered. -/
  | ping (sess seq : BitVec 32)
  /-- CLOSE (R455). Ends the session, discarding its staged values and subscription. -/
  | close (sess seq : BitVec 32)
  /-- IDLE_TIMEOUT (R455). No valid message within dap.idle_timeout_s ends the session. -/
  | idleTimeout (sess : BitVec 32)
  /-- EVENT_RESEND_TIMER (R469). Records unacknowledged 1 s after sending are sent again. -/
  | eventResendTimer (sess : BitVec 32)
  /-- ALERT_CLEAR (R470). A write of 1 to dap.alert_clear releases ALERT_N. -/
  | alertClear (v : BitVec 8)
  /-- REGISTER_WRITE (R462). A write to an RW object with no row of its own takes effect by its access class. -/
  | registerWrite (w : RegWrite)
  /-- ATT_NONCE (R481). A write of att.nonce starts a signed attestation report for the session. -/
  | attNonce (sess : BitVec 32) (nonce : BitVec 256)
  /-- ATT_REPORT_BUILT (R508). The attestation report is signed and becomes ready, or fails. -/
  | attReportBuilt (sess : BitVec 32) (signed : Bool)
  /-- FW_UPDATE_BEGIN (R498). Starts receiving an image into the non-active slot. -/
  | fwUpdateBegin (sess : BitVec 32) (slot : BitVec 8) (len : BitVec 32)
  /-- FW_UPDATE_BLOCK (R498). Receives one half of an image block and queues the block for programming when whole. -/
  | fwUpdateBlock (sess : BitVec 32) (block : BitVec 16) (half : BitVec 8) (crc : BitVec 32) (data : List Byte)
  /-- FW_BLOCK_PROGRAMMED (R498). A block is erased, programmed and read back, and counted. -/
  | fwBlockProgrammed
  /-- FW_UPDATE_MANIFEST (R498). Stores the signed manifest. -/
  | fwUpdateManifest (sess : BitVec 32) (m : List Byte)
  /-- FW_UPDATE_ACTIVATE (R498). Starts verification, or repeats the handover checks, of the received image. -/
  | fwUpdateActivate (sess : BitVec 32) (v : BitVec 8)
  /-- FW_VERIFY_DONE (R497). Verification accepts or rejects the image. -/
  | fwVerifyDone
  /-- FW_ACTIVATION (R500). Writes the boot record, loads standby microcode and hands over management firmware. -/
  | fwActivation
  /-- FW_UPDATE_ABORT (R498). Abandons the update and marks the target slot empty. -/
  | fwUpdateAbort (sess : BitVec 32) (v : BitVec 8)
  /-- ROM_RECOVERY (R502). The ROM enters recovery and serves a restricted DAP. -/
  | romRecovery
  /-- MODULE_REMAP_WRITE (R482). The module programs a fuse.remap bit for a tile it retired. -/
  | moduleRemapWrite (d : Fin 4)
  /-- IDENTIFY_WRITE (R488). A write to panel.identify_s starts or stops identify. -/
  | identifyWrite (v : BitVec 16)
  /-- IDENTIFY_EXPIRY (R488). The identify countdown reaches 0 and identify ends. -/
  | identifyExpiry
  /-- REMOVAL_REQUEST (R522). A removal request preempts running partitions toward safe-to-remove. -/
  | removalRequest
  /-- REMOVAL_CANCEL (R523). A cancel through panel.removal_request darkens the blue LED and resumes partitions. -/
  | removalCancel
  /-- REMOVAL_SAFE (R522). Every condition holds, the blue LED lights and panel.removal_safe is raised. -/
  | removalSafe
  /-- QUIESCE_REQUEST (R521). A quiesce request preempts every running partition. -/
  | quiesceRequest
  /-- QUIESCED (R521). Every formed partition is preempted, stopped or held and panel.quiesced is raised. -/
  | quiesced
  /-- LED_TEST (R488). A write of 1 to panel.led_test lights every LED for 3 s. -/
  | ledTest (v : BitVec 8)
  /-- ALARM_CLEAR (R487). A write of 1 to optic.alarm_clear clears the latched optic alarms. -/
  | alarmClear (p : Fin 4) (v : BitVec 8)
  /-- TRACE_ARM (R491). A write to dbg.trace_arm arms or stops tracing. -/
  | traceArm (v : BitVec 8)
  /-- SVC_SHORT_PRESS (R518). A press released within 1 s toggles identify. -/
  | svcShortPress
  /-- SVC_HOLD (R518). A 5 s hold requests or cancels a quiesce. -/
  | svcHold
  /-- HANDLE_PAD_TOUCH (R519). A 2 s touch of the handle pad makes a removal request. -/
  | handlePadTouch (began : Fin 4)
  /-- LEVER_OPEN (R520). The lever switch opens, raising panel.lever_open and requesting removal. -/
  | leverOpen
  /-- LEVER_CLOSED (R520). The lever closes and panel.lever_closed is raised. -/
  | leverClosed
  /-- HANDLING_SAMPLE (R520). An accelerometer sample above panel.handling_mg reports handling. -/
  | handlingSample (mg : BitVec 16)
  /-- LIVE_INSERTION (R512). The module is inserted into a live slot and limits its inrush current. -/
  | liveInsertion
  /-- FLASH_SETTINGS_PROGRAM (R462). The coalesced write of saved-in-flash settings programs the settings area, at
  most once per second. -/
  | flashSettingsProgram
  /-- OPTIC_MONITOR_READ (R487). Once per second the module reads each front optic's CMIS monitors and latches alarm
  and warning flags. -/
  | opticMonitorRead (p : Fin 4) (temp supply : BitVec 32) (lanes : List Byte) (reading : OpticReading)
  /-- PAUSE_IGNORE_EXPIRY (R361). The 1 s during which pause is ignored on a priority of a sub-port after a PFC
  storm ends, and pause is honoured again. -/
  | pauseIgnoreExpiry (l : Fin 128) (k : Fin 8)
  /-- LED_TEST_EXPIRY (R488). The 3 s of panel.led_test end and every LED returns to its pattern. -/
  | ledTestExpiry
  /-- MERGE_DIRECTORY_CLEARED (R197). The merge unit finishes emptying a merge directory after a boundary, after 2 ×
  merge_rows × 16 ÷ 256 MCTL cycles. -/
  | mergeDirectoryCleared (p : Fin 16) (t : Fin 256) (die : Fin 4)
  /-- SVC_POWER_UP_RELEASE (R440). SVC, held at step 3 of a cold start, is released before 10 s, and the sequence
  continues from step 4. -/
  | svcPowerUpRelease
  /-- MANAGEMENT_PORT_LINK_UP (R516). The 1000BASE-T management link completes auto-negotiation on the selected
  medium and comes up. -/
  | managementPortLinkUp
  /-- MANAGEMENT_PORT_LINK_DOWN (R516). The 1000BASE-T management link goes down, by a cable change or a change of
  dap.mgmt_media. -/
  | managementPortLinkDown
  deriving DecidableEq, Repr

end Sys2Proof
end

