-- ==== Sys2Proof/Config.lean ====
section
/-! DEFINITION. Config.lean: what one module or one implementation fixes, and every free value: constants without a
body, so that nothing can be proved of a value they take. Each is named in notes/assumptions. -/

namespace Sys2Proof.Config

/-- A number as n bytes: how an uninterpreted function of known length is given. -/
def bytesOf : Nat → Nat → List Byte
  | 0, _ => []
  | n + 1, v => BitVec.ofNat 8 v :: bytesOf n (v / 256)

/-- Free value of a drawn or undefined number, by the state's free counter (log 2, DESIGN CHOICE). -/
opaque freeNat : Nat → Nat

/-- Free byte of memory left undefined (R176, R213), by the free counter and address (log 2, DESIGN CHOICE). -/
opaque freeByte : Nat → Nat → Byte

/-- VEXP's choice among the results within 2 ulp, by operand (R326, log 13, DESIGN CHOICE). -/
opaque expPick : BitVec 32 → Nat

/-- VLOG's choice among the results within 2 ulp, by operand (R326, log 13, DESIGN CHOICE). -/
opaque logPick : BitVec 32 → Nat

/-- VRCP's choice between the two neighbours of the exact result, by operand (R326, log 13, DESIGN CHOICE). -/
opaque rcpPick : BitVec 32 → Bool

/-- VRSQ's choice between the two neighbours of the exact result, by operand (R326, log 13, DESIGN CHOICE). -/
opaque rsqPick : BitVec 32 → Bool

/-- Result of exponential 0, logarithm 1, reciprocal 2 or reciprocal square root 3 at an operand for which the spec
states none: ln(+inf), 1/inf, rsqrt(+inf), rsqrt(-0) (R326, log 13, DESIGN CHOICE). -/
opaque fnOpen : Nat → BitVec 32 → BitVec 32

/-- Sign of the zero that VMAX (true) or VMIN gives for zeros of different sign (R325, log 13, DESIGN CHOICE). -/
opaque zeroSign : Bool → Bool

/-- INT32 result outside the format, by operation (0 add, 1 subtract, 2 multiply, 3 multiply-add) and operands
(R325, log 13, DESIGN CHOICE). -/
opaque int32Wide : Nat → BitVec 32 → BitVec 32 → BitVec 32 → BitVec 32

/-- Unit identity that the watch list shows for a waiter that is no tile engine, by a number of the waiter (R284, log 29, DESIGN CHOICE). -/
opaque waiterId : Nat → Nat

/-- Exit address of a die's scheduler, in ra at dispatch (R293, log 8, DESIGN CHOICE). -/
opaque exitAddr : Nat → BitVec 64

/-- Address of the enqueue port of a die's scheduler, read from 0x3601 (R289, log 8, DESIGN CHOICE). -/
opaque enqueueAddr : Nat → Addr

/-- Address of a partition's Hound doorbell, read from 0x3401 (R165, log 8, DESIGN CHOICE). -/
opaque houndDoorbell : Nat → Addr

/-- Address of a partition's publish doorbell, read from 0x3404 (R203, log 8, DESIGN CHOICE). -/
opaque publishDoorbell : Nat → Addr

/-- Address of a partition's mask-load doorbell, read from 0x3901 (R211, log 8, DESIGN CHOICE). -/
opaque maskDoorbell : Nat → Addr

/-- Address of a partition's reduction doorbell, read from 0x1121 (R375, log 8, DESIGN CHOICE). -/
opaque reduceDoorbell : Nat → Addr

/-- Address of the window table, read from 0x3202 (R239, log 8, DESIGN CHOICE). -/
opaque windowTable : Addr

/-- A byte of what job control loaded into a core's partition area: number of the load, core, offset (R288, log 59, DESIGN
CHOICE). -/
opaque sramImage : Nat → Nat → Nat → BitVec 8

/-- A byte of the system area of every core's local SRAM (R288, log 59, DESIGN CHOICE). -/
opaque systemImage : Nat → BitVec 8

/-- Address of the peer table, read from 0x1120 (R363, log 8, DESIGN CHOICE). -/
opaque peerTable : Addr

/-- Whether a plan, by its header, was built for blocks of 32: no field gives it to the product (R216, R219,
log 16, DESIGN CHOICE). -/
opaque planIs32 : Nat → Bool

/-- The block-row of a block of a plan, by the plan's header: no field gives it to a DW product (R217, R219,
log 16, DESIGN CHOICE). -/
opaque planBlockRow : Nat → Nat → Nat

/-- Fetch starts an accumulating instruction too late for its transposing fill to be hidden, by AO cycle, tile, stream and
sequence number: timing that the model leaves out (R65, R98, log 67, DESIGN CHOICE). -/
opaque fillLate : Nat → Nat → Nat → Nat → Bool

/-- Bank of a landing-store line, by die and line: the spec gives landing stores no bank layout (R255, log 8, DESIGN CHOICE). -/
opaque landingBank : Nat → Nat → Nat

/-- Number of the module's identity (R480, log 8, DESIGN CHOICE). -/
opaque moduleNum : Nat

/-- The module's identity, module_id: any value but 0 (R368, R480). -/
def moduleId : BitVec 64 := BitVec.ofNat 64 (moduleNum % (2 ^ 64 - 1) + 1)

/-- Home of a directory's hash of a row number: the rule gives the probing and leaves the hash open (R194, R199, log 9,
DESIGN CHOICE). -/
opaque dirHash : Nat → Nat → Nat

/-- The memory die whose hash unit a node belongs to (R170, log 9, DESIGN CHOICE). -/
opaque nodeDie : Nat → Nat

/-- Arrival order at the hash units within a hop, by a free value and a slot: lower arrives earlier (R170, log 9, DESIGN CHOICE). -/
opaque arrival : Nat → Nat → Nat

/-- SHA3-512 (FIPS 202), uninterpreted, as a number (log 6, DESIGN CHOICE). -/
opaque sha3Num : List Byte → Nat

/-- SHA3-512: 64 bytes. -/
def sha3 (m : List Byte) : List Byte := bytesOf 64 (sha3Num m)

/-- SHAKE256 with 64 bytes of output, uninterpreted, as a number (log 6, DESIGN CHOICE). -/
opaque shakeNum : List Byte → Nat

/-- SHAKE256 with 64 bytes of output (R452). -/
def shake64 (m : List Byte) : List Byte := bytesOf 64 (shakeNum m)

/-- ML-DSA-87 verification (FIPS 204): context string, public key, message, signature; uninterpreted (log 6, DESIGN CHOICE). -/
opaque verifies : String → List Byte → List Byte → List Byte → Bool

/-- Signature by the device identity key, as a number: context string, message; uninterpreted (log 6, DESIGN CHOICE). -/
opaque signNum : String → List Byte → Nat

/-- An ML-DSA-87 signature by the device identity key: 4,627 bytes (R452, R508). -/
def identitySign (ctx : String) (m : List Byte) : List Byte := bytesOf 4627 (signNum ctx m)

/-- The device identity's public key, dev.identity_key, as a number of 2,592 bytes (log 8, DESIGN CHOICE). -/
opaque identityKey : Nat

/-- Uhlusk's firmware-signing public key in the boot ROM (R496, log 8, DESIGN CHOICE). -/
opaque firmwareKey : List Byte

/-- ML-KEM-1024 encapsulation key of the n-th ephemeral pair, as a number (R452, log 6, DESIGN CHOICE). -/
opaque kemNum : Nat → Nat

/-- ML-KEM-1024 encapsulation key of the n-th ephemeral pair: 1,568 bytes (R452). -/
def kemPublic (n : Nat) : List Byte := bytesOf 1568 (kemNum n)

/-- Manifest of the image that slot A is delivered with (R496, log 27, DESIGN CHOICE). -/
opaque deliveredManifest : List Byte

/-- Shared secret that the n-th ephemeral pair decapsulates from a ciphertext, as a number (R452, log 6, DESIGN CHOICE). -/
opaque secretNum : Nat → List Byte → Nat

/-- The shared secret of ML-KEM-1024: 32 bytes (R452). -/
def kemSecret (n : Nat) (ct : List Byte) : List Byte := bytesOf 32 (secretNum n ct)

/-- AES-256-GCM opening, as a number: key, nonce, additional data, sealed payload, tag (R451, log 6, DESIGN CHOICE); none
where the tag fails. -/
opaque gcmOpenNum : List Byte → List Byte → List Byte → List Byte → List Byte → Option Nat

/-- AES-256-GCM opening: a payload as long as the sealed one (R451). -/
def gcmOpen (key nonce aad c tag : List Byte) : Option (List Byte) :=
  (gcmOpenNum key nonce aad c tag).map (bytesOf c.length)

/-- AES-256-GCM sealing, as two numbers: key, nonce, additional data, payload; the sealed payload and the tag (R451, log 6,
DESIGN CHOICE). -/
opaque gcmSealNum : List Byte → List Byte → List Byte → List Byte → Nat × Nat

/-- AES-256-GCM sealing: a sealed payload as long as the payload, and a tag of 16 bytes (R451). -/
def gcmSeal (key nonce aad pl : List Byte) : List Byte × List Byte :=
  let r := gcmSealNum key nonce aad pl
  (bytesOf pl.length r.1, bytesOf 16 r.2)

/-- Whether the fuse programming numbered n reads back right (R467, log 6, DESIGN CHOICE). -/
opaque fuseGood : Nat → Bool

/-- What a fuse row reads back after a failed programming (R467, log 6, DESIGN CHOICE). -/
opaque fuseBack : Nat → List Byte

/-- Number and byte values of read-only objects set per module at manufacture or measured, by object key (R479,
log 8, DESIGN CHOICE). -/
opaque madeNum : Nat → Nat

/-- The DER certificates of dev.identity_cert, leaf first (R507, log 8, DESIGN CHOICE). -/
opaque identityCerts : List (List Byte)

/-- Strings and blobs set per module at manufacture, by object key (R479, log 8, DESIGN CHOICE). -/
opaque madeBytes : Nat → List Byte

end Sys2Proof.Config
end

