-- ==== Sys2Proof/Machine/Bits.lean ====
section
/-! DEFINITION. Machine/Bits.lean: bit fields, two's complement, sparse maps and list helpers; nothing here
knows the machine's state. -/

namespace Sys2Proof.Machine

/-! ## Bit fields (R8) -/

/-- Bits `[hi:lo]` of a number. -/
def bits (w hi lo : Nat) : Nat := (w >>> lo) % 2 ^ (hi + 1 - lo)

/-- Bit `i` of a number is set. -/
def bitSet (w i : Nat) : Bool := w.testBit i

/-- An `n`-bit field read in two's complement. -/
def asSigned (n v : Nat) : Int := if v < 2 ^ (n - 1) then (v : Int) else (v : Int) - (2 ^ n : Nat)

/-- A number written in two's complement into `n` bits. -/
def toField (n : Nat) (v : Int) : Nat := (v % (2 ^ n : Nat)).toNat

/-- The smaller number `q` with `q * d ≥ n`; 0 when `d` is 0. -/
def ceilDiv (n d : Nat) : Nat := (n + d - 1) / d

/-- The bytes of a number, least significant first (R9). -/
def toBytes : Nat → Nat → List Byte
  | 0, _ => []
  | n + 1, v => BitVec.ofNat 8 v :: toBytes n (v / 256)

/-- The number that bytes spell, least significant first (R9). -/
def ofBytes : List Byte → Nat
  | [] => 0
  | b :: bs => b.toNat + 256 * ofBytes bs

/-- The number that bytes spell, most significant first (R10). -/
def ofBytesBE (bs : List Byte) : Nat := bs.foldl (fun a b => a * 256 + b.toNat) 0

/-- The bytes of a number, most significant first (R10). -/
def toBytesBE (n v : Nat) : List Byte := (toBytes n v).reverse

/-- Addition that stops at the largest value of `n` bits (R54, R468, R524: counters saturate). -/
def satAdd (n a b : Nat) : Nat := min (a + b) (2 ^ n - 1)

/-! ## Sparse maps in canonical form -/

/-- Reads a key; an unlisted key reads as `d`. -/
def mget {α : Type} (d : α) : Map α → Nat → α
  | [], _ => d
  | (k', v) :: m, k => if k' = k then v else mget d m k

/-- Removes a key. -/
def mdel {α : Type} (m : Map α) (k : Nat) : Map α := m.filter (fun e => e.1 != k)

/-- Places an entry in a map with rising keys. -/
def mput {α : Type} : Map α → Nat → α → Map α
  | [], k, v => [(k, v)]
  | (k', v') :: m, k, v =>
    if k < k' then (k, v) :: (k', v') :: m
    else if k = k' then (k, v) :: m
    else (k', v') :: mput m k v

/-- Writes a key, keeping the canonical form: writing what an unlisted key reads as removes the entry. -/
def mset {α : Type} [DecidableEq α] (d : α) (m : Map α) (k : Nat) (v : α) : Map α :=
  if v = d then mdel m k else mput m k v

/-- The canonical form of a map: keys strictly rising, no entry equal to what an unlisted key reads as. -/
abbrev MapWf {α : Type} (d : α) (m : Map α) : Prop :=
  (m.map Prod.fst).Pairwise (· < ·) ∧ ∀ e ∈ m, e.2 ≠ d

/-- Reads an optional entry of a map whose unlisted keys hold nothing. -/
def mfind {α : Type} : Map α → Nat → Option α
  | [], _ => none
  | (k', v) :: m, k => if k' = k then some v else mfind m k

/-- Removes every entry whose key satisfies `p`. -/
def mdrop {α : Type} (p : Nat → Bool) (m : Map α) : Map α := m.filter (fun e => !p e.1)

/-! ## Lists -/

/-- The list without its `k`-th member. -/
def dropAt {α : Type} : List α → Nat → List α
  | [], _ => []
  | _ :: l, 0 => l
  | a :: l, k + 1 => a :: dropAt l k

/-- The list with its `k`-th member replaced. -/
def setAt {α : Type} : List α → Nat → α → List α
  | [], _, _ => []
  | _ :: l, 0, v => v :: l
  | a :: l, k + 1, v => a :: setAt l k v

/-- The position of the first member that satisfies `p`. -/
def posOf {α : Type} (p : α → Bool) : List α → Option Nat
  | [] => none
  | a :: l => if p a then some 0 else (posOf p l).map (· + 1)

/-- Adds a member unless the list holds it. -/
def insertNew {α : Type} [DecidableEq α] (l : List α) (a : α) : List α := if a ∈ l then l else l ++ [a]

/-- The largest number of a list, 0 for an empty one. -/
def maxOf (l : List Nat) : Nat := l.foldl max 0

/-- The sum of a list of numbers. -/
def sumOf (l : List Nat) : Nat := l.foldl (· + ·) 0

/-- Places `a` in a list sorted by `lt`. -/
def insertBy {α : Type} (lt : α → α → Bool) (a : α) : List α → List α
  | [] => [a]
  | b :: l => if lt a b then a :: b :: l else b :: insertBy lt a l

/-- A list sorted by `lt`; equal members keep their order. -/
def sortBy {α : Type} (lt : α → α → Bool) (l : List α) : List α :=
  l.foldr (fun a r => insertBy (fun x y => !lt y x) a r) []

/-- Numbers `a` to `a + n - 1`. -/
def upFrom : Nat → Nat → List Nat
  | _, 0 => []
  | a, n + 1 => a :: upFrom (a + 1) n

end Sys2Proof.Machine
end

