-- ==== Sys2Proof/Machine/Objects.lean ====
section
/-! DEFINITION. Machine/Objects.lean: the dictionary's objects as the object tables of the spec list them
(21 R475, R476; the tables of R56, R134, R159, R179, R209, R227, R257, R284, R285, R302, R356, R384, R386, R409,
R433, R448, R473, R480 to R490) and the counter objects of R486. Columns: index, index stride, instances, first and
last subindex, type code (R460), access code (R461), writes of an LW row, persistence code (R461), default, name,
least and greatest value (for STR and BLOB: least and greatest length). -/

namespace Sys2Proof.Machine

/-- Object rows, part 0. -/
def objRows0 : List ObjRow := [
  ⟨0x1000, 0, 1, 1, 1, 10, 0, 0, 2, .bytes ("Uhlusk".toList.map fun c => BitVec.ofNat 8 c.toNat), "dev.vendor", 0, 65535⟩,
  ⟨0x1000, 0, 1, 2, 2, 10, 0, 0, 2, .bytes ("Melnyx 9600".toList.map fun c => BitVec.ofNat 8 c.toNat), "dev.product", 0, 65535⟩,
  ⟨0x1000, 0, 1, 3, 3, 10, 0, 0, 2, .bytes ("ULZ1-M9600-A".toList.map fun c => BitVec.ofNat 8 c.toNat), "dev.part_number", 0, 65535⟩,
  ⟨0x1000, 0, 1, 4, 4, 10, 0, 0, 2, .bytes ("LZ1-P9600".toList.map fun c => BitVec.ofNat 8 c.toNat), "dev.package", 0, 65535⟩,
  ⟨0x1000, 0, 1, 5, 5, 10, 0, 0, 2, .bytes [], "dev.serial", 0, 65535⟩,
  ⟨0x1000, 0, 1, 6, 6, 5, 0, 0, 2, .num 0, "dev.module_id", 0, 18446744073709551615⟩,
  ⟨0x1000, 0, 1, 7, 7, 2, 0, 0, 2, .num 1, "dev.generation", 0, 255⟩,
  ⟨0x1000, 0, 1, 8, 8, 5, 0, 0, 2, .num 0, "dev.mac_base", 0, 18446744073709551615⟩,
  ⟨0x1000, 0, 1, 9, 9, 3, 0, 0, 2, .num 0, "dev.hw_level", 0, 65535⟩,
  ⟨0x1000, 0, 1, 10, 10, 11, 0, 0, 2, .bytes [], "dev.die_levels", 0, 65535⟩,
  ⟨0x1000, 0, 1, 11, 11, 4, 0, 0, 2, .num 0, "dev.rom_version", 0, 4294967295⟩,
  ⟨0x1000, 0, 1, 12, 12, 9, 0, 0, 2, .bytes [], "dev.made", 0, 65535⟩,
  ⟨0x1000, 0, 1, 13, 13, 11, 0, 0, 2, .bytes [], "dev.identity_key", 0, 65535⟩,
  ⟨0x1000, 0, 1, 14, 14, 11, 0, 0, 1, .bytes [], "dev.identity_cert", 0, 65535⟩,
  ⟨0x1000, 0, 1, 15, 15, 10, 1, 0, 1, .bytes [], "dev.asset_tag", 0, 64⟩,
  ⟨0x1001, 0, 1, 1, 1, 3, 0, 0, 0, .num 2, "dev.isa_versions", 0, 65535⟩,
  ⟨0x1001, 0, 1, 2, 2, 3, 0, 0, 0, .num 2, "dev.desc_versions", 0, 65535⟩,
  ⟨0x1001, 0, 1, 3, 3, 2, 0, 0, 0, .num 57, "dev.addr_bits", 0, 255⟩,
  ⟨0x1001, 0, 1, 4, 4, 2, 0, 0, 0, .num 64, "dev.tiles_logical", 0, 255⟩,
  ⟨0x1001, 0, 1, 5, 5, 2, 0, 0, 0, .num 68, "dev.tiles_physical", 0, 255⟩,
  ⟨0x1010, 0, 1, 1, 1, 2, 2, 0, 0, .num 0, "dev.reset", 0, 255⟩,
  ⟨0x1010, 0, 1, 2, 2, 2, 0, 0, 0, .num 0, "dev.state", 0, 255⟩,
  ⟨0x1010, 0, 1, 3, 3, 2, 0, 0, 0, .num 0, "dev.boot_slot", 0, 255⟩,
  ⟨0x1010, 0, 1, 4, 4, 2, 3, 0, 1, .num 15, "dev.ptp_wait_s", 0, 15⟩,
  ⟨0x1010, 0, 1, 5, 5, 2, 0, 0, 0, .num 0, "dev.last_reset", 0, 255⟩,
  ⟨0x1010, 0, 1, 6, 6, 4, 0, 0, 0, .num 0, "dev.ready_ms", 0, 4294967295⟩,
  ⟨0x1010, 0, 1, 7, 7, 4, 0, 0, 0, .num 0, "dev.groups_usable", 0, 4294967295⟩,
  ⟨0x1010, 0, 1, 8, 8, 2, 0, 0, 0, .num 0, "dev.slot_id", 0, 255⟩,
  ⟨0x1011, 0, 1, 1, 12, 4, 0, 0, 0, .num 0, "dev.step_ms", 0, 4294967295⟩,
  ⟨0x1020, 0, 1, 1, 1, 11, 2, 0, 0, .bytes [], "att.nonce", 32, 32⟩]

/-- Object rows, part 1. -/
def objRows1 : List ObjRow := [
  ⟨0x1020, 0, 1, 2, 2, 2, 0, 0, 0, .num 0, "att.state", 0, 255⟩,
  ⟨0x1020, 0, 1, 3, 3, 11, 0, 0, 0, .bytes [], "att.report", 0, 65535⟩,
  ⟨0x1100, 0, 1, 1, 1, 3, 0, 0, 0, .num 2, "dap.versions", 0, 65535⟩,
  ⟨0x1100, 0, 1, 2, 2, 3, 3, 0, 1, .num 34998, "dap.ethertype", 0, 65535⟩,
  ⟨0x1100, 0, 1, 3, 3, 3, 3, 0, 1, .num 49411, "dap.udp_port", 0, 65535⟩,
  ⟨0x1100, 0, 1, 4, 4, 3, 3, 0, 1, .num 65535, "dap.eth_enable", 0, 65535⟩,
  ⟨0x1100, 0, 1, 5, 5, 2, 3, 0, 1, .num 0, "dap.mgmt_media", 0, 1⟩,
  ⟨0x1100, 0, 1, 6, 6, 4, 3, 0, 1, .num 0, "dap.ipv4_addr", 0, 4294967295⟩,
  ⟨0x1100, 0, 1, 7, 7, 2, 3, 0, 1, .num 0, "dap.ipv4_prefix", 0, 32⟩,
  ⟨0x1100, 0, 1, 8, 8, 4, 3, 0, 1, .num 0, "dap.ipv4_gateway", 0, 4294967295⟩,
  ⟨0x1100, 0, 1, 9, 9, 11, 3, 0, 1, .bytes [], "dap.ipv6_addr", 0, 16⟩,
  ⟨0x1100, 0, 1, 10, 10, 3, 3, 0, 1, .num 0, "dap.vlan", 0, 4094⟩,
  ⟨0x1100, 0, 1, 11, 11, 3, 3, 0, 1, .num 60, "dap.idle_timeout_s", 10, 3600⟩,
  ⟨0x1100, 0, 1, 12, 12, 2, 0, 0, 0, .num 8, "dap.max_sessions", 0, 255⟩,
  ⟨0x1100, 0, 1, 13, 13, 2, 0, 0, 0, .num 0, "dap.sessions", 0, 255⟩,
  ⟨0x1100, 0, 1, 14, 14, 3, 3, 0, 1, .num 1030, "dap.alert_mask", 0, 65535⟩,
  ⟨0x1100, 0, 1, 15, 15, 2, 2, 0, 0, .num 0, "dap.alert_clear", 0, 255⟩,
  ⟨0x1101, 0, 1, 1, 1, 11, 1, 0, 1, .bytes [], "dap.credentials", 0, 2080⟩,
  ⟨0x1102, 0, 1, 1, 1, 5, 0, 0, 0, .num 0, "dap.event_seq_next", 0, 18446744073709551615⟩,
  ⟨0x1102, 0, 1, 2, 2, 5, 0, 0, 0, .num 0, "dap.event_seq_oldest", 0, 18446744073709551615⟩,
  ⟨0x1102, 0, 1, 3, 3, 4, 0, 0, 0, .num 16384, "dap.event_log_depth", 0, 4294967295⟩,
  ⟨0x1120, 0, 1, 1, 1, 5, 0, 0, 0, .num 0, "lft.peer_table_addr", 0, 18446744073709551615⟩,
  ⟨0x1120, 0, 1, 2, 2, 3, 3, 0, 1, .num 34997, "lft.ethertype", 0, 65535⟩,
  ⟨0x1120, 0, 1, 3, 3, 3, 3, 0, 1, .num 49410, "lft.udp_port", 0, 65535⟩,
  ⟨0x1120, 0, 1, 4, 4, 3, 0, 0, 0, .num 2, "lft.versions", 0, 65535⟩,
  ⟨0x1120, 0, 1, 5, 5, 3, 3, 0, 1, .num 256, "lft.flow_credits", 16, 1024⟩,
  ⟨0x1120, 0, 1, 6, 6, 3, 3, 0, 1, .num 20, "lft.rto_us", 5, 10000⟩,
  ⟨0x1120, 0, 1, 7, 7, 3, 3, 0, 1, .num 100, "lft.hello_interval_ms", 10, 10000⟩,
  ⟨0x1120, 0, 1, 8, 8, 4, 3, 0, 1, .num 500, "lft.peer_timeout_ms", 10, 60000⟩,
  ⟨0x1120, 0, 1, 9, 9, 5, 0, 0, 1, .num 0, "lft.incarnation", 0, 18446744073709551615⟩]

/-- Object rows, part 2. -/
def objRows2 : List ObjRow := [
  ⟨0x1120, 0, 1, 10, 10, 2, 3, 0, 1, .num 3, "lft.pcp_data", 0, 7⟩,
  ⟨0x1120, 0, 1, 11, 11, 2, 3, 0, 1, .num 6, "lft.pcp_control", 0, 7⟩,
  ⟨0x1121, 0, 1, 1, 16, 5, 0, 0, 0, .num 0, "lft.reduce_doorbell_addr", 0, 18446744073709551615⟩,
  ⟨0x1200, 0, 1, 1, 1, 9, 0, 0, 0, .bytes [], "time.now", 0, 65535⟩,
  ⟨0x1200, 0, 1, 2, 2, 2, 0, 0, 0, .num 0, "time.state", 0, 255⟩,
  ⟨0x1200, 0, 1, 3, 3, 7, 0, 0, 0, .num 0, "time.offset_ns", -9223372036854775808, 9223372036854775807⟩,
  ⟨0x1200, 0, 1, 4, 4, 4, 3, 0, 1, .num 1000000, "time.step_threshold_ns", 0, 4294967295⟩,
  ⟨0x1200, 0, 1, 5, 5, 4, 3, 0, 1, .num 1000, "time.holdover_limit_s", 10, 86400⟩,
  ⟨0x1200, 0, 1, 6, 6, 2, 3, 0, 1, .num 0, "ptp.domain", 0, 127⟩,
  ⟨0x1200, 0, 1, 7, 7, 2, 3, 0, 1, .num 0, "ptp.profile", 0, 1⟩,
  ⟨0x1200, 0, 1, 8, 8, 2, 3, 0, 1, .num 0, "ptp.transport", 0, 2⟩,
  ⟨0x1200, 0, 1, 9, 9, 1, 3, 0, 1, .num 1, "ptp.mgmt_enable", 0, 1⟩,
  ⟨0x1200, 0, 1, 10, 10, 5, 0, 0, 0, .num 0, "time.gm_identity", 0, 18446744073709551615⟩,
  ⟨0x1200, 0, 1, 11, 11, 5, 0, 0, 0, .num 0, "ptp.clock_identity", 0, 18446744073709551615⟩,
  ⟨0x1300, 0, 1, 1, 4, 11, 4, 2, 2, .bytes (List.replicate 64 0), "own.key_slot", 64, 64⟩,
  ⟨0x1300, 0, 1, 5, 5, 2, 0, 0, 2, .num 0, "own.active_slot", 0, 255⟩,
  ⟨0x1301, 0, 1, 1, 1, 1, 1, 0, 1, .num 0, "own.update_lock", 0, 1⟩,
  ⟨0x1302, 0, 1, 1, 1, 2, 4, 128, 2, .num 0, "fuse.rollback", 0, 128⟩,
  ⟨0x1303, 0, 1, 1, 4, 4, 4, 8, 2, .num 0, "fuse.remap", 0, 4294967295⟩,
  ⟨0x1304, 0, 1, 1, 1, 1, 4, 1, 2, .num 0, "fuse.debug_disable", 0, 1⟩,
  ⟨0x1400, 0, 1, 1, 1, 2, 0, 0, 1, .num 0, "fw.active_slot", 0, 255⟩,
  ⟨0x1400, 0, 1, 2, 2, 4, 0, 0, 1, .num 0, "fw.slot_a_version", 0, 4294967295⟩,
  ⟨0x1400, 0, 1, 3, 3, 4, 0, 0, 1, .num 0, "fw.slot_b_version", 0, 4294967295⟩,
  ⟨0x1400, 0, 1, 4, 4, 2, 0, 0, 1, .num 0, "fw.slot_a_state", 0, 255⟩,
  ⟨0x1400, 0, 1, 5, 5, 2, 0, 0, 1, .num 0, "fw.slot_b_state", 0, 255⟩,
  ⟨0x1400, 0, 1, 6, 6, 4, 0, 0, 0, .num 0, "fw.mgmt_version", 0, 4294967295⟩,
  ⟨0x1400, 0, 1, 7, 7, 4, 0, 0, 0, .num 0, "fw.microcode_version", 0, 4294967295⟩,
  ⟨0x1401, 0, 1, 1, 1, 11, 2, 0, 0, .bytes [], "fw.update_begin", 8, 8⟩,
  ⟨0x1401, 0, 1, 2, 2, 11, 2, 0, 0, .bytes [], "fw.update_block", 32776, 32776⟩,
  ⟨0x1401, 0, 1, 3, 3, 11, 2, 0, 0, .bytes [], "fw.update_manifest", 0, 65535⟩]

/-- Object rows, part 3. -/
def objRows3 : List ObjRow := [
  ⟨0x1401, 0, 1, 4, 4, 2, 2, 0, 0, .num 0, "fw.update_activate", 0, 255⟩,
  ⟨0x1401, 0, 1, 5, 5, 2, 2, 0, 0, .num 0, "fw.update_abort", 0, 255⟩,
  ⟨0x1401, 0, 1, 6, 6, 2, 0, 0, 0, .num 0, "fw.update_state", 0, 255⟩,
  ⟨0x1401, 0, 1, 7, 7, 3, 0, 0, 0, .num 0, "fw.update_blocks", 0, 65535⟩,
  ⟨0x1401, 0, 1, 8, 8, 2, 0, 0, 0, .num 0, "fw.refuse_reason", 0, 255⟩,
  ⟨0x1402, 0, 1, 1, 16, 4, 0, 0, 0, .num 0, "fw.microcode_partition", 0, 4294967295⟩,
  ⟨0x2000, 0, 1, 1, 1, 8, 0, 0, 0, .num 0, "power.input_v", 0, 4294967295⟩,
  ⟨0x2000, 0, 1, 2, 2, 8, 0, 0, 0, .num 0, "power.input_a", 0, 4294967295⟩,
  ⟨0x2000, 0, 1, 3, 3, 8, 0, 0, 0, .num 0, "power.input_w", 0, 4294967295⟩,
  ⟨0x2000, 0, 1, 4, 4, 8, 0, 0, 0, .num 0, "power.array_w", 0, 4294967295⟩,
  ⟨0x2000, 0, 1, 5, 5, 2, 0, 0, 0, .num 0, "power.holdup_pct", 0, 255⟩,
  ⟨0x2001, 0, 1, 1, 48, 2, 0, 0, 0, .num 0, "power.domain_state", 0, 255⟩,
  ⟨0x2002, 0, 1, 1, 48, 4, 3, 0, 1, .num 0, "power.retain", 0, 4294967295⟩,
  ⟨0x2003, 0, 1, 1, 48, 1, 3, 0, 1, .num 1, "power.sleep_save", 0, 1⟩,
  ⟨0x2100, 1, 7, 1, 1, 4, 3, 0, 1, .num 0, "power.doze_ns", 0, 1000000⟩,
  ⟨0x2100, 1, 7, 2, 2, 4, 3, 0, 1, .num 0, "power.nap_us", 0, 10000000⟩,
  ⟨0x2100, 1, 7, 3, 3, 4, 3, 0, 1, .num 0, "power.sleep_ms", 0, 3600000⟩,
  ⟨0x2200, 0, 1, 1, 1, 4, 3, 0, 1, .num 4200, "power.cap_w", 1000, 4200⟩,
  ⟨0x2200, 0, 1, 2, 2, 3, 3, 0, 1, .num 100, "power.cap_margin_w", 0, 1000⟩,
  ⟨0x2200, 0, 1, 3, 3, 4, 0, 0, 0, .num 0, "power.cap_effective_w", 0, 4294967295⟩,
  ⟨0x2200, 0, 1, 4, 4, 2, 0, 0, 0, .num 0, "power.stage", 0, 255⟩,
  ⟨0x2200, 0, 1, 5, 5, 8, 0, 0, 0, .num 0, "thermal.inlet_c", 0, 4294967295⟩,
  ⟨0x2200, 0, 1, 6, 6, 8, 0, 0, 0, .num 0, "thermal.flow_lpm", 0, 4294967295⟩,
  ⟨0x2201, 0, 1, 1, 11, 8, 0, 0, 0, .num 0, "thermal.die_c", 0, 4294967295⟩,
  ⟨0x2202, 0, 1, 1, 4, 2, 0, 0, 0, .num 0, "thermal.stage", 0, 255⟩,
  ⟨0x2203, 0, 1, 1, 4, 3, 0, 0, 0, .num 4000, "power.arith_mhz", 0, 65535⟩,
  ⟨0x2204, 0, 1, 1, 40, 8, 0, 0, 0, .num 0, "thermal.gddr_c", 0, 4294967295⟩,
  ⟨0x3000, 0, 1, 1, 16, 3, 3, 0, 1, .num 0, "part.tile_groups", 0, 65535⟩,
  ⟨0x3001, 0, 1, 1, 16, 4, 3, 0, 1, .num 0, "part.mem_groups", 0, 1048575⟩,
  ⟨0x3002, 0, 1, 1, 16, 4, 3, 0, 1, .num 0, "part.landing_share", 0, 4294967295⟩]

/-- Object rows, part 4. -/
def objRows4 : List ObjRow := [
  ⟨0x3003, 0, 1, 1, 16, 2, 0, 0, 0, .num 0, "part.state", 0, 255⟩,
  ⟨0x3004, 0, 1, 1, 16, 2, 2, 0, 0, .num 0, "part.command", 0, 255⟩,
  ⟨0x3005, 0, 1, 1, 16, 5, 0, 0, 0, .num 0, "part.step", 0, 18446744073709551615⟩,
  ⟨0x3006, 0, 1, 1, 16, 5, 1, 0, 0, .num 0, "part.restart_item_addr", 0, 18446744073709551615⟩,
  ⟨0x3007, 0, 1, 1, 16, 2, 3, 0, 1, .num 3, "part.restart_limit", 1, 16⟩,
  ⟨0x3008, 0, 1, 1, 16, 3, 0, 0, 0, .num 0, "part.last_cause", 0, 65535⟩,
  ⟨0x3009, 0, 1, 1, 16, 5, 0, 0, 0, .num 0, "part.tiles_present", 0, 18446744073709551615⟩,
  ⟨0x300A, 0, 1, 1, 1, 3, 3, 0, 1, .num 50, "part.probe_us", 10, 10000⟩,
  ⟨0x300A, 0, 1, 2, 2, 2, 3, 0, 1, .num 3, "part.probe_misses", 2, 16⟩,
  ⟨0x300B, 0, 1, 1, 16, 1, 3, 0, 1, .num 0, "part.scrub_t1", 0, 1⟩,
  ⟨0x3101, 0, 1, 1, 64, 4, 0, 0, 1, .num 0, "tile.map", 0, 4294967295⟩,
  ⟨0x3102, 0, 1, 1, 4, 4, 0, 0, 1, .num 65536, "tile.pool", 0, 4294967295⟩,
  ⟨0x3103, 0, 1, 1, 4, 4, 0, 0, 1, .num 0, "tile.retired", 0, 4294967295⟩,
  ⟨0x3104, 0, 1, 1, 1, 2, 2, 0, 0, .num 0, "tile.retire_request", 0, 255⟩,
  ⟨0x3104, 0, 1, 2, 2, 2, 2, 0, 0, .num 0, "tile.test_request", 0, 255⟩,
  ⟨0x3110, 0, 1, 1, 1, 2, 3, 0, 1, .num 18, "tile.stream_order", 0, 255⟩,
  ⟨0x3110, 0, 1, 2, 2, 3, 3, 0, 1, .num 64, "tile.starve_limit", 1, 4096⟩,
  ⟨0x3110, 0, 1, 3, 3, 4, 3, 0, 1, .num 1000, "tile.token_timeout_us", 10, 10000000⟩,
  ⟨0x3200, 0, 1, 1, 16, 5, 1, 0, 0, .num 0, "place.table_addr", 0, 18446744073709551615⟩,
  ⟨0x3201, 0, 1, 1, 16, 2, 2, 0, 0, .num 0, "place.reload", 0, 255⟩,
  ⟨0x3202, 0, 1, 1, 1, 5, 0, 0, 0, .num 0, "tier.window_table_addr", 0, 18446744073709551615⟩,
  ⟨0x3300, 0, 1, 1, 1, 3, 3, 0, 1, .num 24, "mem.scrub_hours", 1, 168⟩,
  ⟨0x3300, 0, 1, 2, 2, 3, 3, 0, 1, .num 8, "mem.ce_retire_threshold", 0, 65535⟩,
  ⟨0x3300, 0, 1, 3, 3, 4, 0, 0, 1, .num 0, "mem.retired_pages", 0, 4294967295⟩,
  ⟨0x3300, 0, 1, 5, 5, 2, 3, 0, 1, .num 4, "mem.link_retries", 1, 15⟩,
  ⟨0x3301, 0, 1, 1, 20, 3, 0, 0, 1, .num 1024, "mem.spare_pages_left", 0, 65535⟩,
  ⟨0x3400, 0, 1, 1, 1, 2, 0, 0, 0, .num 32, "hound.samplers", 0, 255⟩,
  ⟨0x3400, 0, 1, 2, 2, 3, 0, 0, 0, .num 256, "hound.max_fanout", 0, 65535⟩,
  ⟨0x3400, 0, 1, 3, 3, 2, 0, 0, 0, .num 4, "hound.max_hops", 0, 255⟩,
  ⟨0x3401, 0, 1, 1, 16, 5, 0, 0, 0, .num 0, "hound.doorbell_addr", 0, 18446744073709551615⟩]

/-- Object rows, part 5. -/
def objRows5 : List ObjRow := [
  ⟨0x3402, 0, 1, 1, 16, 3, 3, 0, 1, .num 1, "hound.edge_credits", 1, 1024⟩,
  ⟨0x3403, 0, 1, 1, 16, 5, 1, 0, 0, .num 0, "retr.registry_addr", 0, 18446744073709551615⟩,
  ⟨0x3404, 0, 1, 1, 16, 5, 0, 0, 0, .num 0, "retr.publish_doorbell", 0, 18446744073709551615⟩,
  ⟨0x3405, 0, 1, 1, 16, 3, 3, 0, 1, .num 1, "retr.row_credits", 1, 1024⟩,
  ⟨0x3406, 0, 1, 1, 1, 2, 0, 0, 0, .num 64, "retr.engines", 0, 255⟩,
  ⟨0x3406, 0, 1, 2, 2, 3, 0, 0, 0, .num 4096, "retr.deferral_depth", 0, 65535⟩,
  ⟨0x3406, 0, 1, 3, 3, 4, 0, 0, 0, .num 100663296, "retr.hot_bytes_max", 0, 4294967295⟩,
  ⟨0x3500, 0, 1, 1, 16, 4, 3, 0, 1, .num 0, "sync.counter_range", 0, 4294967295⟩,
  ⟨0x3502, 0, 1, 1, 1, 3, 0, 0, 0, .num 4096, "sync.counters_per_hub", 0, 65535⟩,
  ⟨0x3502, 0, 1, 2, 2, 3, 0, 0, 0, .num 16384, "sync.watch_slots_per_hub", 0, 65535⟩,
  ⟨0x3502, 0, 1, 3, 3, 3, 0, 0, 0, .num 512, "sync.held_depth", 0, 65535⟩,
  ⟨0x3502, 0, 1, 4, 4, 2, 0, 0, 0, .num 4, "sync.watch_regs", 0, 255⟩,
  ⟨0x3503, 0, 1, 1, 16, 3, 3, 0, 1, .num 4096, "sync.watch_quota", 1, 16384⟩,
  ⟨0x3504, 0, 1, 1, 16, 3, 3, 0, 1, .num 0, "sync.watch_share", 0, 65535⟩,
  ⟨0x3505, 0, 1, 1, 16, 4, 3, 0, 1, .num 0, "sync.stage_data_range", 0, 4294967295⟩,
  ⟨0x3506, 0, 1, 1, 16, 4, 3, 0, 1, .num 0, "sync.stage_bound_range", 0, 4294967295⟩,
  ⟨0x3600, 0, 1, 1, 1, 3, 3, 0, 1, .num 100, "sched.aging_period_us", 0, 10000⟩,
  ⟨0x3600, 0, 1, 2, 2, 2, 0, 0, 0, .num 6, "sched.aging_ceiling", 0, 255⟩,
  ⟨0x3600, 0, 1, 3, 3, 3, 0, 0, 0, .num 8192, "sched.slots_per_die", 0, 65535⟩,
  ⟨0x3600, 0, 1, 4, 4, 4, 3, 0, 1, .num 1000, "sched.run_limit_us", 10, 1000000⟩,
  ⟨0x3601, 0, 1, 1, 4, 5, 0, 0, 0, .num 0, "sched.enqueue_addr", 0, 18446744073709551615⟩,
  ⟨0x3602, 0, 1, 1, 16, 3, 3, 0, 1, .num 512, "sched.slot_quota", 1, 8192⟩,
  ⟨0x3603, 1, 4, 1, 16, 4, 3, 0, 1, .num 0, "sched.cores", 0, 16777215⟩,
  ⟨0x3700, 0, 1, 1, 1, 3, 0, 0, 0, .num 256, "upd.queue_depth", 0, 65535⟩,
  ⟨0x3700, 0, 1, 2, 2, 3, 0, 0, 0, .num 512, "upd.elements_per_cycle", 0, 65535⟩,
  ⟨0x3701, 0, 1, 1, 16, 5, 1, 0, 0, .num 0, "upd.table_addr", 0, 18446744073709551615⟩,
  ⟨0x3800, 0, 1, 1, 1, 3, 3, 0, 1, .num 16, "num.warmup_steps", 0, 4096⟩,
  ⟨0x3800, 0, 1, 2, 2, 3, 3, 0, 1, .num 1, "num.recovery_steps", 0, 4096⟩,
  ⟨0x3800, 0, 1, 3, 3, 2, 3, 0, 1, .num 1, "num.fallback_block", 0, 3⟩,
  ⟨0x3800, 0, 1, 4, 4, 3, 1, 0, 0, .num 0, "num.force_per_block", 0, 65535⟩]

/-- Object rows, part 6. -/
def objRows6 : List ObjRow := [
  ⟨0x3800, 0, 1, 5, 5, 3, 3, 0, 1, .num 0, "num.stepdown_allow", 0, 65535⟩,
  ⟨0x3800, 0, 1, 6, 6, 5, 1, 0, 0, .num 0, "num.sr_seed", 0, 18446744073709551615⟩,
  ⟨0x3800, 0, 1, 8, 8, 4, 0, 0, 0, .num 0, "num.mode", 0, 4294967295⟩,
  ⟨0x3900, 0, 1, 1, 1, 3, 3, 0, 1, .num 0, "sparse.e40_allow", 0, 65535⟩,
  ⟨0x3900, 0, 1, 2, 2, 3, 3, 0, 1, .num 1024, "pred.audit_period", 1, 65535⟩,
  ⟨0x3900, 0, 1, 3, 3, 5, 1, 0, 0, .num 0, "pred.audit_seed", 0, 18446744073709551615⟩,
  ⟨0x3900, 0, 1, 4, 4, 8, 3, 0, 1, .num 0x3D4CCCCD, "pred.audit_limit", 0, 4294967295⟩,
  ⟨0x3901, 0, 1, 1, 16, 5, 0, 0, 0, .num 0, "sparse.doorbell_addr", 0, 18446744073709551615⟩,
  ⟨0x4000, 0, 1, 1, 1, 5, 0, 0, 0, .num 0, "tel.uptime_s", 0, 18446744073709551615⟩,
  ⟨0x4000, 0, 1, 2, 2, 5, 0, 0, 1, .num 0, "tel.power_cycles", 0, 18446744073709551615⟩,
  ⟨0x4000, 0, 1, 3, 3, 4, 0, 0, 1, .num 0, "tel.operating_hours", 0, 4294967295⟩,
  ⟨0x4000, 0, 1, 4, 4, 5, 0, 0, 1, .num 0, "tel.warm_resets", 0, 18446744073709551615⟩,
  ⟨0x4000, 0, 1, 5, 5, 5, 0, 0, 1, .num 0, "tel.flash_programs", 0, 18446744073709551615⟩,
  ⟨0x4001, 0, 1, 1, 12, 5, 0, 0, 0, .num 0, "tel.events", 0, 18446744073709551615⟩,
  ⟨0x5000, 16, 16, 1, 1, 2, 3, 0, 1, .num 0, "port.mode", 0, 3⟩,
  ⟨0x5000, 16, 16, 2, 2, 2, 3, 0, 1, .num 255, "port.enable", 0, 255⟩,
  ⟨0x5000, 16, 16, 3, 3, 2, 0, 0, 0, .num 0, "port.medium", 0, 255⟩,
  ⟨0x5000, 16, 16, 4, 4, 2, 3, 0, 1, .num 72, "port.pfc_mask", 0, 255⟩,
  ⟨0x5000, 16, 16, 5, 5, 3, 3, 0, 1, .num 100, "port.pfc_watchdog_ms", 10, 10000⟩,
  ⟨0x5000, 16, 16, 6, 6, 2, 3, 0, 1, .num 255, "port.ptp_enable", 0, 255⟩,
  ⟨0x5000, 16, 16, 7, 7, 6, 3, 0, 1, .num 0, "port.delay_asymmetry_ns", -2147483648, 2147483647⟩,
  ⟨0x5000, 16, 16, 8, 8, 2, 0, 0, 0, .num 0, "port.link_state", 0, 255⟩,
  ⟨0x5000, 16, 16, 9, 9, 2, 3, 0, 1, .num 30, "port.optic_power_max_w", 0, 30⟩,
  ⟨0x5000, 16, 16, 10, 10, 3, 0, 0, 0, .num 9216, "port.max_frame", 0, 65535⟩,
  ⟨0x5002, 16, 4, 1, 1, 2, 0, 0, 0, .num 0, "optic.present", 0, 255⟩,
  ⟨0x5002, 16, 4, 2, 2, 10, 0, 0, 0, .bytes [], "optic.vendor", 0, 65535⟩,
  ⟨0x5002, 16, 4, 3, 3, 10, 0, 0, 0, .bytes [], "optic.part", 0, 65535⟩,
  ⟨0x5002, 16, 4, 4, 4, 10, 0, 0, 0, .bytes [], "optic.serial", 0, 65535⟩,
  ⟨0x5002, 16, 4, 5, 5, 8, 0, 0, 0, .num 0, "optic.max_power_w", 0, 4294967295⟩,
  ⟨0x5002, 16, 4, 6, 6, 2, 0, 0, 0, .num 0, "optic.state", 0, 255⟩]

/-- Object rows, part 7. -/
def objRows7 : List ObjRow := [
  ⟨0x5002, 16, 4, 7, 7, 8, 0, 0, 0, .num 0, "optic.temp_c", 0, 4294967295⟩,
  ⟨0x5002, 16, 4, 8, 8, 8, 0, 0, 0, .num 0, "optic.supply_v", 0, 4294967295⟩,
  ⟨0x5002, 16, 4, 9, 9, 11, 0, 0, 0, .bytes [], "optic.lanes", 0, 65535⟩,
  ⟨0x5002, 16, 4, 10, 10, 3, 0, 0, 0, .num 0, "optic.alarms", 0, 65535⟩,
  ⟨0x5002, 16, 4, 11, 11, 2, 2, 0, 0, .num 0, "optic.alarm_clear", 0, 255⟩,
  ⟨0x6000, 0, 1, 1, 1, 3, 1, 0, 0, .num 0, "panel.identify_s", 0, 3600⟩,
  ⟨0x6000, 0, 1, 2, 2, 2, 3, 0, 1, .num 7, "panel.svc_mask", 0, 7⟩,
  ⟨0x6000, 0, 1, 3, 3, 2, 0, 0, 0, .num 0, "panel.status_led", 0, 255⟩,
  ⟨0x6000, 0, 1, 4, 4, 3, 0, 0, 0, .num 0, "panel.port_leds", 0, 65535⟩,
  ⟨0x6000, 0, 1, 5, 5, 2, 0, 0, 0, .num 0, "panel.removal_state", 0, 255⟩,
  ⟨0x6000, 0, 1, 6, 6, 2, 2, 0, 0, .num 0, "panel.removal_request", 0, 255⟩,
  ⟨0x6000, 0, 1, 7, 7, 2, 0, 0, 0, .num 0, "panel.quiesce_state", 0, 255⟩,
  ⟨0x6000, 0, 1, 8, 8, 2, 0, 0, 0, .num 0, "panel.lever", 0, 255⟩,
  ⟨0x6000, 0, 1, 9, 9, 4, 0, 0, 0, .num 0, "panel.handling_age_s", 0, 4294967295⟩,
  ⟨0x6000, 0, 1, 10, 10, 3, 3, 0, 1, .num 300, "panel.handling_mg", 50, 4000⟩,
  ⟨0x6000, 0, 1, 11, 11, 2, 2, 0, 0, .num 0, "panel.led_test", 0, 255⟩,
  ⟨0x8000, 0, 1, 1, 1, 2, 1, 0, 0, .num 0, "dbg.trace_sources", 0, 15⟩,
  ⟨0x8000, 0, 1, 2, 2, 3, 1, 0, 0, .num 65535, "dbg.trace_partitions", 0, 65535⟩,
  ⟨0x8000, 0, 1, 3, 3, 5, 1, 0, 0, .num 0, "dbg.trace_addr", 0, 18446744073709551615⟩,
  ⟨0x8000, 0, 1, 4, 4, 4, 1, 0, 0, .num 0, "dbg.trace_bytes", 0, 4294967295⟩,
  ⟨0x8000, 0, 1, 5, 5, 2, 2, 0, 0, .num 0, "dbg.trace_arm", 0, 255⟩,
  ⟨0x8000, 0, 1, 6, 6, 2, 0, 0, 0, .num 0, "dbg.trace_state", 0, 255⟩,
  ⟨0x8000, 0, 1, 7, 7, 5, 0, 0, 0, .num 0, "dbg.trace_records", 0, 18446744073709551615⟩,
  ⟨0x8000, 0, 1, 8, 8, 5, 0, 0, 0, .num 0, "dbg.trace_lost", 0, 18446744073709551615⟩,
  ⟨0x8001, 0, 1, 1, 1, 11, 0, 0, 1, .bytes [], "dbg.tag_table", 0, 65535⟩,
  ⟨0x8002, 0, 1, 1, 20, 11, 0, 0, 1, .bytes [], "dbg.retired_pages", 0, 65535⟩,
  ⟨0x8100, 0, 1, 1, 1, 3, 1, 0, 0, .num 0, "dbg.sync_select", 0, 16383⟩,
  ⟨0x8100, 0, 1, 2, 2, 5, 0, 0, 0, .num 0, "dbg.sync_value", 0, 18446744073709551615⟩,
  ⟨0x8100, 0, 1, 3, 3, 2, 0, 0, 0, .num 0, "dbg.sync_state", 0, 255⟩,
  ⟨0x8100, 0, 1, 4, 4, 3, 0, 0, 0, .num 0, "dbg.sync_waiters", 0, 65535⟩]

/-- Object rows, part 8. -/
def objRows8 : List ObjRow := [
  ⟨0x8100, 0, 1, 5, 5, 4, 0, 0, 0, .num 0, "dbg.sync_last_unit", 0, 4294967295⟩,
  ⟨0x8100, 0, 1, 6, 6, 9, 0, 0, 0, .bytes (List.replicate 10 0), "dbg.sync_last_time", 0, 65535⟩,
  ⟨0x8100, 0, 1, 7, 7, 2, 0, 0, 0, .num 0, "dbg.sync_last_op", 0, 255⟩,
  ⟨0x8100, 0, 1, 8, 8, 5, 0, 0, 0, .num 0, "dbg.sync_last_operand", 0, 18446744073709551615⟩,
  ⟨0x8100, 0, 1, 9, 9, 11, 0, 0, 0, .bytes [], "dbg.sync_watch_list", 0, 65535⟩,
  ⟨0x8100, 0, 1, 10, 10, 5, 0, 0, 0, .num 0, "dbg.sync_bias", 0, 18446744073709551615⟩]

/-- Every object row (R475). -/
def objRows : List ObjRow :=
  objRows0 ++ objRows1 ++ objRows2 ++ objRows3 ++ objRows4 ++ objRows5 ++ objRows6 ++ objRows7 ++ objRows8

/-- Counter subindices of 0x4100 (R54, R61, R91, R111, R135, R258), from subindex 1. -/
def ctrNames0 : List String := [
  "fetch.busy", "fetch.stall.runahead", "fetch.stall.token", "fetch.stall.credit",
  "fetch.stall.interlock", "fetch.stall.bank", "fetch.wait", "fetch.idle",
  "matrix.busy", "matrix.stall.token", "matrix.stall.credit", "matrix.stall.operand",
  "matrix.stall.drain", "matrix.wait", "matrix.idle", "vector.busy",
  "vector.stall.token", "vector.stall.credit", "vector.stall.interlock", "vector.stall.bank",
  "vector.wait", "vector.idle", "store.busy", "store.stall.runahead",
  "store.stall.token", "store.stall.credit", "store.stall.interlock", "store.stall.bank",
  "store.wait", "store.idle", "tile.starve_wins", "tile.bank_conflicts",
  "matrix.macs", "drain.tiles", "drain.redrains", "drain.clamped",
  "bwd.panel_loads", "bwd.fills_exposed", "bwd.dw_skipped", "bwd.recompute_rows",
  "drain.nan_zeroed", "num.stepdown_tiles", "num.per_block_drains", "tile.sram_corrected",
  "tile.sram_uncorrectable"]

/-- Counter subindices of 0x4200 (R258), from subindex 1. -/
def ctrNames1 : List String := [
  "mem.link_crc_retries", "mem.link_retrains", "mem.corrected", "mem.uncorrectable_lines",
  "mem.refills", "mem.poison_delivered", "mem.pages_retired"]

/-- Counter subindices of 0x4300 (R160), from subindex 1. -/
def ctrNames2 : List String := [
  "update.p1_elements", "update.p2_elements", "update.frozen_skips", "update.skipped_steps",
  "update.step_mismatches", "update.undo_rows", "update.rows_discarded"]

/-- Counter subindices of 0x4400 (R180), from subindex 1. -/
def ctrNames3 : List String := [
  "hound.trails", "hound.edges", "hound.empty_slots", "hound.bad_nodes",
  "hound.bad_segments", "hound.dedup_spills", "hound.abandoned", "hound.refused"]

/-- Counter subindices of 0x4500 (R210), from subindex 1. -/
def ctrNames4 : List String := [
  "retr.rows_gathered", "retr.rows_scattered", "retr.bad_keys", "retr.merge_strays",
  "retr.deferred_rows", "retr.hot_hits", "retr.promotions", "retr.demotions",
  "retr.held_writes", "retr.abandoned", "retr.versions_published"]

/-- Counter subindices of 0x4600 (R228), from subindex 1. -/
def ctrNames5 : List String := [
  "sparse.plans_built", "sparse.meta_faults", "sparse.meta_dropped", "sparse.duplicates",
  "sparse.loads_abandoned", "pred.selections", "pred.active", "pred.cut",
  "pred.madeup", "pred.below", "pred.audit_rows", "pred.audit_missed"]

/-- Counter subindices of 0x4700 (R258), from subindex 1. -/
def ctrNames6 : List String := [
  "prefetch.issued", "prefetch.late", "prefetch.credit_bound", "prefetch.lead_raised",
  "prefetch.position_errors"]

/-- Counter subindices of 0x4800 (R286), from subindex 1. -/
def ctrNames7 : List String := [
  "sync.signals", "sync.whistles", "sync.watches_peak", "sync.held_signals",
  "sync.orphaned_watches", "sync.watch_timeouts", "tag.stale_drop", "sync.remote_refused",
  "sync.bad_ops", "sync.slot_waits"]

/-- Counter subindices of 0x4900 (R301), from subindex 1. -/
def ctrNames8 : List String := [
  "sched.depth.l0", "sched.depth.l1", "sched.depth.l2", "sched.depth.l3",
  "sched.depth.l4", "sched.depth.l5", "sched.depth.l6", "sched.depth.l7",
  "sched.watching", "sched.slots_used", "sched.enqueued", "sched.refused",
  "sched.slot_waits", "sched.aged", "sched.cancelled", "sched.item_errors",
  "sched.dispatched.l0", "sched.dispatched.l1", "sched.dispatched.l2", "sched.dispatched.l3",
  "sched.dispatched.l4", "sched.dispatched.l5", "sched.dispatched.l6", "sched.dispatched.l7",
  "sched.wait_sum_ns.l0", "sched.wait_sum_ns.l1", "sched.wait_sum_ns.l2", "sched.wait_sum_ns.l3",
  "sched.wait_sum_ns.l4", "sched.wait_sum_ns.l5", "sched.wait_sum_ns.l6", "sched.wait_sum_ns.l7",
  "sched.wait_max_ns.l0", "sched.wait_max_ns.l1", "sched.wait_max_ns.l2", "sched.wait_max_ns.l3",
  "sched.wait_max_ns.l4", "sched.wait_max_ns.l5", "sched.wait_max_ns.l6", "sched.wait_max_ns.l7"]

/-- Counter subindices of 0x4A00 (R301), from subindex 1. -/
def ctrNames9 : List String := [
  "core.busy_ns", "core.idle_ns", "core.items", "core.longest_ns",
  "core.partition"]

/-- Counter subindices of 0x4B00 (R357), from subindex 1. -/
def ctrNames10 : List String := [
  "stage.fwd_input_wait_ns", "stage.bwd_input_wait_ns", "stage.bound_wait_ns", "fabric.ledger_entries",
  "fabric.replay_skipped"]

/-- Counter subindices of 0x4C00 (R387), from subindex 1. -/
def ctrNames11 : List String := [
  "lft.tx_packets", "lft.rx_packets", "lft.retransmits", "lft.duplicates",
  "lft.refused", "lft.crc_drops", "lft.path_drops", "lft.peer_losses",
  "lft.reductions"]

/-- Counter subindices of 0x4C01 (R474), from subindex 1. -/
def ctrNames12 : List String := [
  "dap.sessions_opened", "dap.auth_failures", "dap.auth_drops", "dap.requests",
  "dap.commits", "dap.commits_refused", "dap.events_logged", "dap.events_lost"]

/-- Counter subindices of 0x4D00 (R410), from subindex 1. -/
def ctrNames13 : List String := [
  "part.restarts", "part.holds", "part.restart_ns", "part.units_replaced",
  "part.preemptions", "part.self_tests"]

/-- Counter subindices of 0x4E00 (R434), from subindex 1. -/
def ctrNames14 : List String := [
  "power.ns_active", "power.ns_doze", "power.ns_nap", "power.ns_sleep",
  "power.ns_off", "power.doze_entries", "power.nap_entries", "power.sleep_entries",
  "power.wake_races", "power.wakes"]

/-- Counter subindices of 0x4F00 (R434), from subindex 1. -/
def ctrNames15 : List String := [
  "power.stage_ns.s0", "power.stage_ns.s1", "power.stage_ns.s2", "power.stage_ns.s3",
  "power.cap_steps", "thermal.steps", "power.input_faults"]

/-- Counter subindices of 0x5001 (R385), from subindex 1. -/
def ctrNames16 : List String := [
  "port.rx_frames", "port.tx_frames", "port.rx_bytes", "port.tx_bytes",
  "port.fec_corrected", "port.fec_uncorrectable", "port.fcs_errors", "port.pfc_rx",
  "port.pfc_tx", "port.link_downs", "port.pfc_storms", "port.oversize_drops"]

/-- The counter objects: index, stride, instances and names (R486, R385). -/
def ctrFamilies : List (Nat × Nat × Nat × List String) := [
  (0x4100, 1, 64, ctrNames0),
  (0x4200, 1, 4, ctrNames1),
  (0x4300, 1, 16, ctrNames2),
  (0x4400, 1, 16, ctrNames3),
  (0x4500, 1, 16, ctrNames4),
  (0x4600, 1, 16, ctrNames5),
  (0x4700, 1, 16, ctrNames6),
  (0x4800, 1, 4, ctrNames7),
  (0x4900, 1, 4, ctrNames8),
  (0x4A00, 1, 96, ctrNames9),
  (0x4B00, 1, 16, ctrNames10),
  (0x4C00, 1, 1, ctrNames11),
  (0x4C01, 1, 1, ctrNames12),
  (0x4D00, 1, 16, ctrNames13),
  (0x4E00, 1, 48, ctrNames14),
  (0x4F00, 1, 1, ctrNames15),
  (0x5001, 16, 16, ctrNames16)]

/-- Object row of an index and subindex, if one is present (R475). -/
def findRow (idx sub : Nat) : List ObjRow → Option ObjRow
  | [] => none
  | r :: l =>
    let inst := (upFrom 0 r.count).any (fun i => idx == r.index + i * r.stride)
    if inst && r.first ≤ sub && sub ≤ r.last then some r else findRow idx sub l

/-- Counter name of an index and subindex, if one is present (R486). -/
def findCtr (idx sub : Nat) : List (Nat × Nat × Nat × List String) → Option String
  | [] => none
  | f :: l =>
    if (upFrom 0 f.2.2.1).any (fun i => idx == f.1 + i * f.2.1) then (if sub = 0 then none else f.2.2.2[sub - 1]?)
    else findCtr idx sub l

/-- The key of a dictionary object: index * 256 + subindex (R541). -/
def objKey (idx sub : Nat) : Nat := idx * 256 + sub

/-- Idle timer defaults (18): DOZE ns, NAP us, SLEEP ms of the seven classes at 0x2100 to 0x2106. -/
def idleDefault (cls sub : Nat) : Nat :=
  match cls, sub with
  | 0, 1 => 200
  | 0, 2 => 0
  | 0, 3 => 500
  | 1, 1 => 500
  | 1, 2 => 10000
  | 1, 3 => 2000
  | 2, 1 => 1000
  | 2, 2 => 5000
  | 2, 3 => 2000
  | 3, 1 => 100
  | 3, 2 => 0
  | 3, 3 => 10000
  | 4, 1 => 500
  | 4, 2 => 0
  | 4, 3 => 10000
  | 5, 1 => 1000
  | 5, 2 => 0
  | 5, 3 => 0
  | 6, 1 => 1000
  | 6, 2 => 0
  | 6, 3 => 0
  | _, _ => 0

/-- The default value of an object (R479): the Default column, or the defaults stated per class. -/
def objDefault (idx sub : Nat) : Value :=
  if 0x2100 ≤ idx ∧ idx ≤ 0x2106 then .num ((idleDefault (idx - 0x2100) sub : Nat) : Int)
  else if idx = 0x2002 then
    (if sub - 1 < 20 then .num 0x3F else if 24 ≤ sub - 1 ∧ sub - 1 < 28 then .num 0xFF else .num 0)
  else match findRow idx sub objRows with
    | some r => r.dflt
    | none => .num 0

end Sys2Proof.Machine
end

