-- ==== Sys2Proof/Machine/Operands.lean ====
section
/-! DEFINITION. Machine/Operands.lean: element formats, exact values, rounding, conversion and the sums every
engine shares (03 R68 to R71, 04 R78 and R87, 06 R112 to R120, 07 for FP32X). -/

namespace Sys2Proof.Machine

/-! ## Formats (R112) -/

/-- Fraction bits of a format (R112); 0 for INT8. -/
def manBits : Fmt → Nat
  | .fp32 => 23 | .bf16 => 7 | .fp16 => 10 | .e4m3 => 3 | .e5m2 => 2 | .e3m2 => 2 | .e2m3 => 3 | .e2m1 => 1
  | .int8 => 0

/-- Exponent bits of a format (R112). -/
def expBits : Fmt → Nat
  | .fp32 => 8 | .bf16 => 8 | .fp16 => 5 | .e4m3 => 4 | .e5m2 => 5 | .e3m2 => 3 | .e2m3 => 2 | .e2m1 => 2
  | .int8 => 0

/-- Exponent bias of a format (R112). -/
def fmtBias : Fmt → Nat
  | .fp32 => 127 | .bf16 => 127 | .fp16 => 15 | .e4m3 => 7 | .e5m2 => 15 | .e3m2 => 3 | .e2m3 => 1 | .e2m1 => 1
  | .int8 => 0

/-- Element width in bits (R112). -/
def fmtWidth : Fmt → Nat
  | .fp32 => 32 | .bf16 => 16 | .fp16 => 16 | .e4m3 => 8 | .e5m2 => 8 | .e3m2 => 6 | .e2m3 => 6 | .e2m1 => 4
  | .int8 => 8

/-- The format has infinities (R112, IEEE). -/
def hasInf : Fmt → Bool
  | .fp32 | .bf16 | .fp16 | .e5m2 => true
  | _ => false

/-- The canonical NaN of a format (R112); FP6, FP4 and INT8 have none and write +0 (R120). -/
def canonNan : Fmt → Nat
  | .fp32 => 0x7FC00000 | .bf16 => 0x7FC0 | .fp16 => 0x7E00 | .e4m3 => 0x7F | .e5m2 => 0x7E
  | _ => 0

/-- The largest finite magnitude as (mantissa, exponent) (R112). -/
def maxFinite : Fmt → Nat × Int
  | .fp32 => (2 ^ 24 - 1, 104) | .bf16 => (255, 120) | .fp16 => (2047, 5) | .e4m3 => (7, 6) | .e5m2 => (7, 13)
  | .e3m2 => (7, 2) | .e2m3 => (15, -1) | .e2m1 => (3, 1) | .int8 => (127, 0)

/-- FP8 is meant by R62's "FP8 of either kind"; FP6 likewise. -/
def isFp8or6 : Fmt → Bool
  | .e4m3 | .e5m2 | .e3m2 | .e2m3 => true
  | _ => false

/-- BF16 or FP16. -/
def is16 : Fmt → Bool
  | .bf16 | .fp16 => true
  | _ => false

/-- FP8, FP6, FP4 or INT8: the formats with a block form (R113, R313). -/
def isNarrow : Fmt → Bool
  | .fp32 | .bf16 | .fp16 => false
  | _ => true

/-- `a_format` codes of R312; 0 and 9 to 15 are reserved. -/
def operandFmt : Nat → Option Fmt
  | 1 => some .bf16 | 2 => some .fp16 | 3 => some .e4m3 | 4 => some .e5m2 | 5 => some .e3m2 | 6 => some .e2m3
  | 7 => some .e2m1 | 8 => some .int8
  | _ => none

/-- The element part of `out_format` codes of R89: 0 FP32 to 8 INT8. -/
def outFmt : Nat → Option Fmt
  | 0 => some .fp32
  | n => operandFmt n

/-! ## Exact values -/

/-- Shifts a mantissa from exponent `e` to exponent `u`, dropping what lies below. -/
def shiftTo (m : Nat) (e u : Int) : Nat := if u ≤ e then m <<< (e - u).toNat else m >>> (u - e).toNat

/-- The exponent of a nonzero magnitude: floor(log2 (m * 2^e)). -/
def magLog (m : Nat) (e : Int) : Int := (Nat.log2 m : Int) + e

/-- `m1 * 2^e1 ≤ m2 * 2^e2`. -/
def magLe (m1 : Nat) (e1 : Int) (m2 : Nat) (e2 : Int) : Bool :=
  let u := min e1 e2
  decide (shiftTo m1 e1 u ≤ shiftTo m2 e2 u)

/-- Decodes the bits of an element (R112). -/
def fmtDecode (f : Fmt) (w : Nat) : Fp :=
  match f with
  | .int8 => .fin (decide (asSigned 8 w < 0)) (asSigned 8 w).natAbs 0
  | f =>
    let neg := bitSet w (fmtWidth f - 1)
    let ex := bits w (fmtWidth f - 2) (manBits f)
    let fr := w % 2 ^ manBits f
    if hasInf f && ex == 2 ^ expBits f - 1 then (if fr == 0 then .inf neg else .nan)
    else if f == .e4m3 && w % 128 == 0x7F then .nan
    else if ex == 0 then .fin neg fr (1 - (fmtBias f : Int) - manBits f)
    else .fin neg (2 ^ manBits f + fr) ((ex : Int) - fmtBias f - manBits f)

/-- Minimum normal exponent of a format. -/
def minExp (f : Fmt) : Int := 1 - (fmtBias f : Int)

/-- The sign of a value, false for a NaN. -/
def fpIsNeg : Fp → Bool
  | .nan => false | .inf n => n | .fin n _ _ => n

/-- A finite value. -/
def fpIsFin : Fp → Bool
  | .fin _ _ _ => true
  | _ => false

/-- A NaN. -/
def fpIsNan : Fp → Bool
  | .nan => true
  | _ => false

/-- A zero of either sign. -/
def fpIsZero : Fp → Bool
  | .fin _ 0 _ => true
  | _ => false

/-- Exact scaling by 2^k. -/
def fpScale (k : Int) : Fp → Fp
  | .fin n m e => .fin n m (e + k)
  | x => x

/-- The value with its sign flipped. -/
def fpFlip : Fp → Fp
  | .fin n m e => .fin (!n) m e
  | .inf n => .inf (!n)
  | .nan => .nan

/-- The magnitude. -/
def fpAbs : Fp → Fp
  | .fin _ m e => .fin false m e
  | .inf _ => .inf false
  | .nan => .nan

/-- The exact product (R70: infinity times zero is a NaN). -/
def fpMul : Fp → Fp → Fp
  | .nan, _ => .nan
  | _, .nan => .nan
  | .inf a, .inf b => .inf (a != b)
  | .inf a, .fin b m _ => if m = 0 then .nan else .inf (a != b)
  | .fin a m _, .inf b => if m = 0 then .nan else .inf (a != b)
  | .fin a m e, .fin b k g => .fin (a != b) (m * k) (e + g)

/-- The exact sum; a sum of zero is +0 unless both are -0 (round to nearest even). -/
def fpAdd : Fp → Fp → Fp
  | .nan, _ => .nan
  | _, .nan => .nan
  | .inf a, .inf b => if a = b then .inf a else .nan
  | .inf a, .fin _ _ _ => .inf a
  | .fin _ _ _, .inf b => .inf b
  | .fin a m e, .fin b k g =>
    let u := min e g
    let x : Int := if a then -(shiftTo m e u : Int) else shiftTo m e u
    let y : Int := if b then -(shiftTo k g u : Int) else shiftTo k g u
    let z := x + y
    if z = 0 then .fin (a && b) 0 0 else .fin (decide (z < 0)) z.natAbs u

/-- Order of two values: `x < y`; false with a NaN; the zeros are equal. -/
def fpLt (x y : Fp) : Bool :=
  match fpAdd y (fpFlip x) with
  | .fin n m _ => !n && m != 0
  | .inf n => !n
  | .nan =>
    match x, y with
    | .inf a, .inf b => a && !b
    | _, _ => false

/-- Equality of two values; false with a NaN; the zeros are equal. -/
def fpEq (x y : Fp) : Bool := !fpIsNan x && !fpIsNan y && !fpLt x y && !fpLt y x

/-! ## Rounding (R118, R119) -/

/-- A magnitude rounded to a multiple of 2^u, in units of 2^u. Stochastic rounding adds r * 2^-16 units and
truncates (R119). -/
def roundUnits (mode : RoundMode) (m : Nat) (e u : Int) : Nat :=
  if u ≤ e then m <<< (e - u).toNat
  else
    let sh := (u - e).toNat
    let q := m >>> sh
    match mode with
    | .towardZero => q
    | .nearestEven =>
      let rem2 := (m % 2 ^ sh) * 2
      if rem2 > 2 ^ sh || (rem2 == 2 ^ sh && q % 2 == 1) then q + 1 else q
    | .stochastic r => (m <<< 16 + r <<< sh) >>> (sh + 16)

/-- The exponent of the least significant bit a format keeps at the magnitude's exponent. -/
def unitOf (man : Nat) (emin : Int) (m : Nat) (e : Int) : Int :=
  if m = 0 then emin - man else max (magLog m e) emin - man

/-- Rounds a finite magnitude to a format with `man` fraction bits and minimum normal exponent `emin`, the
exponent range unbounded above. -/
def roundMag (mode : RoundMode) (man : Nat) (emin : Int) (m : Nat) (e : Int) : Nat × Int :=
  let u := unitOf man emin m e
  (roundUnits mode m e u, u)

/-- The bits of a value that the format represents exactly. -/
def encodeExact (f : Fmt) (neg : Bool) (m : Nat) (e : Int) : Nat :=
  match f with
  | .int8 => toField 8 (if neg then -(shiftTo m e 0 : Int) else shiftTo m e 0)
  | f =>
    let s := if neg then 2 ^ (fmtWidth f - 1) else 0
    if m = 0 then s
    else
      let l := magLog m e
      if l < minExp f then s + shiftTo m e (minExp f - manBits f)
      else s + ((l + fmtBias f).toNat - 1) * 2 ^ manBits f + shiftTo m e (l - manBits f)

/-- The bits of an infinity of a format that has one. -/
def infBits (f : Fmt) (neg : Bool) : Nat :=
  (if neg then 2 ^ (fmtWidth f - 1) else 0) + (2 ^ expBits f - 1) * 2 ^ manBits f

/-- The bits of the largest finite value with a sign. -/
def maxBits (f : Fmt) (neg : Bool) : Nat := encodeExact f neg (maxFinite f).1 (maxFinite f).2

/-- The result of arithmetic in an IEEE format: round to nearest even, overflow to infinity, canonical NaN
(R70, R326). -/
def fmtArith (f : Fmt) (x : Fp) : Nat :=
  match x with
  | .nan => canonNan f
  | .inf n => infBits f n
  | .fin n m e =>
    let r := roundMag .nearestEven (manBits f) (minExp f) m e
    if magLe r.1 r.2 (maxFinite f).1 (maxFinite f).2 then encodeExact f n r.1 r.2 else infBits f n

/-- A converted element: its bits, whether it was clamped at the largest finite magnitude, whether a NaN was
written as +0 (R83, R84, R120). -/
structure Conv where
  w : Nat
  clamped : Bool
  nanZeroed : Bool
  deriving DecidableEq, Repr

/-- Conversion to a tensor-scaled or plain format (R118 to R120): out of range values are written at the largest
finite magnitude with their sign. -/
def convert (f : Fmt) (mode : RoundMode) (x : Fp) : Conv :=
  match x with
  | .nan => { w := canonNan f, clamped := false, nanZeroed := !(hasInf f || f == .e4m3) }
  | .inf n => if hasInf f then { w := infBits f n, clamped := false, nanZeroed := false }
              else { w := maxBits f n, clamped := true, nanZeroed := false }
  | .fin n m e =>
    if magLe m e (maxFinite f).1 (maxFinite f).2 then
      match f with
      | .int8 => { w := encodeExact .int8 n (roundUnits mode m e 0) 0, clamped := false, nanZeroed := false }
      | f => let r := roundMag mode (manBits f) (minExp f) m e
             { w := encodeExact f n r.1 r.2, clamped := false, nanZeroed := false }
    else { w := maxBits f n, clamped := true, nanZeroed := false }

/-- A finite value beyond the largest finite magnitude of the format: saturated (R83). -/
def saturates (f : Fmt) (x : Fp) : Bool :=
  match x with
  | .fin _ m e => !magLe m e (maxFinite f).1 (maxFinite f).2
  | _ => false

/-! ## FP32 arithmetic on bits (R49, R78, R326) -/

/-- The value of FP32 bits. -/
def f32val (w : W32) : Fp := fmtDecode .fp32 w.toNat

/-- A value rounded to nearest even into FP32. -/
def f32of (x : Fp) : W32 := BitVec.ofNat 32 (fmtArith .fp32 x)

/-- FP32 addition. -/
def f32add (a b : W32) : W32 := f32of (fpAdd (f32val a) (f32val b))

/-- FP32 subtraction. -/
def f32sub (a b : W32) : W32 := f32of (fpAdd (f32val a) (fpFlip (f32val b)))

/-- FP32 multiplication. -/
def f32mul (a b : W32) : W32 := f32of (fpMul (f32val a) (f32val b))

/-- FP32 fused multiply-add, rounded once. -/
def f32fma (a b c : W32) : W32 := f32of (fpAdd (fpMul (f32val a) (f32val b)) (f32val c))

/-- A magnitude quotient rounded to nearest even: the quotient is kept to `man + 3` bits with a sticky bit. -/
def divMag (man : Nat) (m : Nat) (e : Int) (k : Nat) (g : Int) : Nat × Int :=
  let sh := man + 3 + Nat.log2 k + 1
  let q := (m <<< sh) / k
  let sticky := if (m <<< sh) % k = 0 then 0 else 1
  (2 * q + sticky, e - g - sh - 1)

/-- The quotient of two values for one rounding to nearest even (IEEE 754 division of special values). -/
def fpDiv (man : Nat) : Fp → Fp → Fp
  | .nan, _ => .nan
  | _, .nan => .nan
  | .inf _, .inf _ => .nan
  | .inf a, .fin b _ _ => .inf (a != b)
  | .fin a _ _, .inf b => .fin (a != b) 0 0
  | .fin a m e, .fin b k g =>
    if k = 0 then (if m = 0 then .nan else .inf (a != b))
    else if m = 0 then .fin (a != b) 0 0
    else let q := divMag man m e k g; .fin (a != b) q.1 q.2

/-- FP32 division rounded to nearest even. -/
def f32div (a b : W32) : W32 := f32of (fpDiv 24 (f32val a) (f32val b))

/-- Integer square root by `fuel` bits, from bit `fuel - 1` down. -/
def isqrtBits : Nat → Nat → Nat → Nat
  | 0, _, r => r
  | k + 1, n, r =>
    let t := r + 2 ^ k
    isqrtBits k n (if t * t ≤ n then t else r)

/-- The largest `r` with `r * r ≤ n`. -/
def isqrt (n : Nat) : Nat := isqrtBits (Nat.log2 n / 2 + 1) n 0

/-- The square root of a finite magnitude, kept to enough bits with a sticky bit for one rounding. -/
def sqrtMag (man : Nat) (m : Nat) (e : Int) : Nat × Int :=
  let sh := 2 * (man + 4) + (if (e % 2) = 0 then 0 else 1)
  let n := m <<< sh
  let q := isqrt n
  (2 * q + (if q * q = n then 0 else 1), (e - sh) / 2 - 1)

/-- FP32 square root rounded to nearest even. -/
def f32sqrt (a : W32) : W32 :=
  match f32val a with
  | .nan => f32of .nan
  | .inf n => if n then f32of .nan else f32of (.inf false)
  | .fin n m e =>
    if m = 0 then a
    else if n then f32of .nan
    else let q := sqrtMag 24 m e; f32of (.fin false q.1 q.2)

/-! ## The compensated fold (R78) -/

/-- A pair (sum, compensation). -/
abbrev Pair := W32 × W32

/-- One fold of an FP32 value into a pair (R78, R49). -/
def foldPair (p : Pair) (x : W32) : Pair :=
  let s := p.1
  let t := f32add s x
  if fpIsFin (f32val s) && fpIsFin (f32val x) && fpIsFin (f32val t) then
    let e := if fpLt (fpAbs (f32val s)) (fpAbs (f32val x)) then f32add (f32sub x t) s else f32add (f32sub s t) x
    (t, f32add p.2 e)
  else (t, 0)

/-- Values folded in order. -/
def foldPairs (p : Pair) (xs : List W32) : Pair := xs.foldl foldPair p

/-! ## Aligned sums (R69, R70, R87) -/

/-- An element with the exponent R69 gives it. -/
structure Elem where
  v : Fp
  x : Int
  deriving DecidableEq, Repr

/-- An element of a format, with an exact scale 2^k (block scale, or 0): exponent(x) of R69. -/
def elemOf (f : Fmt) (w : Nat) (k : Int) : Elem :=
  match fmtDecode f w with
  | .fin n m e =>
    match f with
    | .int8 => { v := .fin n m (e + k), x := (Nat.log2 m : Int) + e + k }
    | f => { v := .fin n m (e + k), x := e + manBits f + k }
  | v => { v := v, x := 0 }

/-- The largest exponent among nonzero finite elements; none when all are zero. -/
def refExp (l : List Elem) : Option Int :=
  l.foldl (fun r a =>
    match a.v with
    | .fin _ m _ => if m = 0 then r else
        match r with
        | none => some a.x
        | some y => some (max y a.x)
    | _ => r) none

/-- A value truncated toward zero to units of 2^u. -/
def truncUnits (u : Int) : Fp → Int
  | .fin n m e => if n then -(shiftTo m e u : Int) else shiftTo m e u
  | _ => 0

/-- The special result of a chunk, if its terms have one (R70). -/
def specialSum (ps : List Fp) : Option Fp :=
  if ps.any fpIsNan then some .nan
  else
    let pos := ps.any (fun p => p == .inf false)
    let neg := ps.any (fun p => p == .inf true)
    if pos && neg then some .nan else if pos then some (.inf false) else if neg then some (.inf true) else none

/-- The sum of terms aligned at 2^(ref - 48), rounded once to FP32 (R69); an aligned sum of zero gives +0. -/
def alignedSum (ref : Int) (ps : List Fp) : W32 :=
  match specialSum ps with
  | some x => f32of x
  | none =>
    let acc := ps.foldl (fun a p => a + truncUnits (ref - 48) p) (0 : Int)
    if acc = 0 then 0 else f32of (.fin (decide (acc < 0)) acc.natAbs (ref - 48))

/-- One chunk value of R69 from the elements of a row of A and a column of B. -/
def chunkValue (as bs : List Elem) : W32 :=
  let ps := List.zipWith (fun a b => fpMul a.v b.v) as bs
  match refExp as, refExp bs with
  | some x, some y => alignedSum (x + y) ps
  | _, _ => alignedSum 0 ps

/-- The exact INT8 path of R71: the chunk's integer sum, converted exactly. -/
def chunkInt8 (as bs : List Elem) : W32 :=
  let ps := List.zipWith (fun a b => fpMul a.v b.v) as bs
  let acc := ps.foldl (fun a p => a + truncUnits 0 p) (0 : Int)
  if acc = 0 then 0 else f32of (.fin (decide (acc < 0)) acc.natAbs 0)

/-- A list cut into chunks of 128, at most `fuel` of them (R68). -/
def chunks128 {α : Type} : Nat → List α → List (List α)
  | 0, _ => []
  | _, [] => []
  | n + 1, l => l.take 128 :: chunks128 n (l.drop 128)

/-- FP32 bits as an element of a sum (R87: -126 for a subnormal). -/
def f32elem (w : W32) : Elem := elemOf .fp32 w.toNat 0

/-- The sum of FP32 values by the aligned method over chunks of 128, folded across chunks (R87), as a pair. -/
def alignedPair (xs : List W32) : Pair :=
  (chunks128 (xs.length / 128 + 1) xs).foldl (fun p c =>
    let es := c.map f32elem
    foldPair p (alignedSum ((refExp es).getD 0) (es.map Elem.v))) (0, 0)

/-- The aligned sum rounded once to FP32 (R87). -/
def alignedTotal (xs : List W32) : W32 := let p := alignedPair xs; f32add p.1 p.2

/-! ## Max and min with index (R87, R325) -/

/-- The winner of a reduction: value and index. -/
def pickWinner (isMax : Bool) (xs : List (W32 × Nat)) : W32 × Nat :=
  match xs with
  | [] => (0, 0)
  | a :: l =>
    match (a :: l).find? (fun p => fpIsNan (f32val p.1)) with
    | some p => (0x7FC00000, p.2)
    | none => l.foldl (fun w p =>
        let better := if isMax then fpLt (f32val w.1) (f32val p.1) else fpLt (f32val p.1) (f32val w.1)
        if better then p else w) a

/-! ## Packed elements (R113) -/

/-- Element `i` of `width` bits in a dense little-endian number. -/
def elemBits (w width i : Nat) : Nat := (w >>> (width * i)) % 2 ^ width

/-- Dense packing, lowest index in the lowest bits. -/
def packBits (width : Nat) : List Nat → Nat
  | [] => 0
  | a :: l => a % 2 ^ width + 2 ^ width * packBits width l

/-- Bytes that `n` elements of a format occupy. -/
def packedBytes (f : Fmt) (n : Nat) : Nat := ceilDiv (n * fmtWidth f) 8

/-- The exact scale of an E8M0 byte; none for 0xFF, which makes a NaN (R113). -/
def e8m0 (b : Nat) : Option Int := if b = 0xFF then none else some ((b : Int) - 127)

/-- An element of a block format with its scale byte (R113, R114: INT8 elements are times 2^-6). -/
def blockElem (f : Fmt) (w scaleByte : Nat) : Elem :=
  match e8m0 scaleByte with
  | none => { v := .nan, x := 0 }
  | some k => elemOf f w (if f == .int8 then k - 6 else k)

/-- The largest finite element value of a block format (R112, R114). -/
def maxBlockElem (f : Fmt) : Nat × Int := if f == .int8 then (127, -6) else maxFinite f

/-- The smallest `e` with m * 2^x * 2^(-e) not above (n, y): found from the difference of the logarithms. -/
def fitExp (m : Nat) (x : Int) (n : Nat) (y : Int) : Int :=
  let e := magLog m x - magLog n y
  if magLe m (x - e) n y then e else e + 1

/-- The block exponent of R127 for the largest magnitude of a block. -/
def blockExp (f : Fmt) (amax : Fp) : Int :=
  match amax with
  | .fin _ m e => if m = 0 then -127
      else min (max (fitExp m e (maxBlockElem f).1 (maxBlockElem f).2) (-127)) 127
  | _ => -127

/-- An element of a block written under the block exponent (R127). -/
def convertBlock (f : Fmt) (mode : RoundMode) (e : Int) (x : Fp) : Nat :=
  match f with
  | .int8 => (convert .int8 mode (fpScale (6 - e) x)).w
  | f => (convert f mode (fpScale (-e) x)).w

/-- The largest magnitude among finite values. -/
def maxMag (xs : List Fp) : Fp :=
  xs.foldl (fun a x => if fpIsFin x && fpLt a (fpAbs x) then fpAbs x else a) (.fin false 0 0)

/-! ## FP32X (R115) -/

/-- The value of an FP32X word pair: high plane word and extension word. -/
def f32xVal (hi : W32) (ext : W16) : Fp :=
  let ex := bits hi.toNat 30 23
  let fr := (hi.toNat % 2 ^ 23) * 2 ^ 16 + ext.toNat
  let neg := bitSet hi.toNat 31
  if ex = 255 then (if hi.toNat % 2 ^ 23 = 0 then .inf neg else .nan)
  else if ex = 0 then .fin neg fr (-126 - 39)
  else .fin neg (2 ^ 39 + fr) ((ex : Int) - 127 - 39)

/-- A value rounded to FP32X, round to nearest even; the extension word is 0 where the exponent is 0xFF. -/
def f32xOf (mode : RoundMode) (x : Fp) : W32 × W16 :=
  match x with
  | .nan => (0x7FC00000, 0)
  | .inf n => (BitVec.ofNat 32 (infBits .fp32 n), 0)
  | .fin n m e =>
    let r := roundMag mode 39 (-126) m e
    let s := if n then 2 ^ 47 else 0
    if r.1 = 0 then (BitVec.ofNat 32 (s / 2 ^ 16), 0)
    else
      let l := magLog r.1 r.2
      if l > 127 then (BitVec.ofNat 32 (infBits .fp32 n), 0)
      else
        let w := if l < -126 then s + shiftTo r.1 r.2 (-126 - 39)
                 else s + ((l + 127).toNat - 1) * 2 ^ 39 + shiftTo r.1 r.2 (l - 39)
        (BitVec.ofNat 32 (w / 2 ^ 16), BitVec.ofNat 16 w)

/-! ## FP64 (R151, R376) -/

/-- The value of FP64 bits. -/
def f64val (w : Nat) : Fp :=
  let neg := bitSet w 63
  let ex := bits w 62 52
  let fr := w % 2 ^ 52
  if ex = 2047 then (if fr = 0 then .inf neg else .nan)
  else if ex = 0 then .fin neg fr (-1074)
  else .fin neg (2 ^ 52 + fr) ((ex : Int) - 1075)

/-- The FP64 bits of a value, rounded to nearest even; the canonical NaN. -/
def f64of (x : Fp) : Nat :=
  match x with
  | .nan => 0x7FF8000000000000
  | .inf n => (if n then 2 ^ 63 else 0) + 0x7FF0000000000000
  | .fin n m e =>
    let r := roundMag .nearestEven 52 (-1022) m e
    let sg := if n then 2 ^ 63 else 0
    if r.1 = 0 then sg
    else
      let l := magLog r.1 r.2
      if 1023 < l then sg + 0x7FF0000000000000
      else if l < -1022 then sg + shiftTo r.1 r.2 (-1074)
      else sg + ((l + 1023).toNat - 1) * 2 ^ 52 + shiftTo r.1 r.2 (l - 52)

/-- FP64 sum. -/
def f64add (a b : Nat) : Nat := f64of (fpAdd (f64val a) (f64val b))

/-- FP64 maximum or minimum, the first operand on a tie; a NaN gives the canonical NaN. -/
def f64pick (isMax : Bool) (a b : Nat) : Nat :=
  let x := f64val a; let y := f64val b
  if fpIsNan x || fpIsNan y then 0x7FF8000000000000
  else if (if isMax then fpLt x y else fpLt y x) then b else a

end Sys2Proof.Machine
end

