-- ==== Sys2Proof/Machine/State.lean ====
section
/-! DEFINITION. Machine/State.lean: the whole state of the module as plain data, its faults and refusals, and the
state after reset. -/

namespace Sys2Proof.Machine

/-! ## Outcomes -/

/-- Why a step can stop the model. -/
inductive Fault where
  /-- Raised by no command: every fault the spec gives is a next state (log 4, DESIGN CHOICE). Kept for the interface; safe. -/
  | unreachable
  deriving DecidableEq, Repr

/-- Why a step has no meaning. -/
inductive Refusal where
  /-- Raised by an arm of exec that has no meaning yet; safe. -/
  | notModelled (mnemonic : String)
  deriving DecidableEq, Repr

/-! ## Tiles (02 to 06, 10, 14) -/

/-- A dispatched instruction (R32): address, sequence number, stream, word, the resolved step-relative target
(R330), the step of its stream at dispatch (R398), whether a STEP was dispatched before it (R330) and whether the frozen
snapshot skips it (R109). -/
structure QInstr where
  pc : Nat
  seq : Nat
  x : Stream
  w : BitVec 128
  target : Nat
  step : Nat
  marked : Bool
  skip : Bool
  deriving DecidableEq, Repr

/-- One stream control block with what the sequencer keeps beside it (R306 to R310): `marked` once a STEP was
dispatched since the start, `ended` once END was, `dwSkip` while a frozen DW's DRAIN is still to be skipped (R109);
`buf` the instruction buffer, its words by address in the order of their fetch (R31, R308). -/
structure StreamCtl where
  state : StreamState
  entry : Nat
  firstStep : Nat
  pc : Nat
  step : Nat
  mark0 : Nat
  mark1 : Nat
  nextSeq : Nat
  marked : Bool
  ended : Bool
  dwSkip : Bool
  buf : List (Nat × BitVec 128)
  deriving DecidableEq, Repr

/-- The fault record (R334). -/
structure FaultRec where
  valid : Bool
  kind : Nat
  stream : Nat
  engine : Nat
  address : Nat
  detail : Nat
  seq : Nat
  timeS : Nat
  timeNs : Nat
  pc : Nat
  deriving DecidableEq, Repr

/-- What a sparse output tile's PEs hold (R217, R219, R220): plan (0 F, 1 T, 2 G), block size, the block-row or
block-column of each lane (none: no lane entry), whether the next plan tile continues this one, the G cells. -/
structure SparseOut where
  plan : Nat
  block : Nat
  rows : List (Option Nat)
  cells : List (Option Nat)
  chain : Bool
  nextTile : Nat
  deriving DecidableEq, Repr

/-- An accumulator set (R75, R76, R96): its pairs by 128 * i + j, the shape, owner and product of its tile
(0 MMA, 1 DX, 2 DW). -/
structure AccSet where
  state : AccState
  m : Nat
  n : Nat
  owner : Stream
  product : Nat
  stepped : Bool
  sparse : Option SparseOut
  pairs : Map (BitVec 32 × BitVec 32)
  deriving DecidableEq, Repr

/-- A gradient panel buffer or sparse buffer half (R93, R94, R218): loaded, load under way, shape, format, element
bits by row * columns + column. -/
structure Panel where
  full : Bool
  loading : Bool
  rows : Nat
  cols : Nat
  fmt : Fmt
  elems : Map Nat
  deriving DecidableEq, Repr

/-- Why a started instruction is not complete. -/
inductive Await where
  /-- A LOAD or LOADT whose last line has not landed (R40). -/
  | load
  /-- A panel or half load (R94). -/
  | panel
  /-- A DRAIN whose side operand is loading (R82). -/
  | side
  /-- Loads done, the part that they held not started: a BWD2 or sparse MMA whose panel is loaded, a DRAIN whose side
  operand is loaded, a slot sum whose tie counter fired (R82, R94, R327). -/
  | matrix
  /-- The end-of-tile instruction before the hand-over (R76), with the products that it adds to matrix.macs (R61). -/
  | handOver (macs : Nat)
  /-- Fetch streams the operands of an accumulating instruction whose Matrix part has not started: the entries that it has
  written into operand queues A and B, those that it writes in all, and the bytes of the tile store read so far (R33,
  R36, R41). -/
  | operands (a b allA allB : Nat) (data : Map (BitVec 8))
  /-- A DRAIN whose Matrix part runs and whose Store part has not started: the entries that it has written into the drain
  queue, and its side operand; the shadow set is DRAINING (R33, R36, R75, R80). -/
  | store (entries : Nat) (side : Map (BitVec 32))
  /-- A running vector program (R323). -/
  | vexec
  /-- A WAIT on watch register `reg` of its engine (R270). -/
  | watch (reg : Nat)
  /-- A slot-sum REDUCE waiting on its tie counter (R327). -/
  | tie
  /-- A remote STORE whose packets, or a remote SIGNAL whose packet, by number, are not settled or accepted (R321); with
  none, an instruction that is complete but for writes that wait for their lines (R39, R42). -/
  | acks (l : List Nat)
  /-- Complete but for tokens that found a full queue: the posts left (R39). -/
  | post (mask : Nat)
  /-- A SIGNAL held for covered writes of its engine and stream (R264). -/
  | cover
  /-- A WATCH whose registration waits for a slot (R271). -/
  | slot (reg : Nat)
  /-- A STORE to an enqueue port held for a slot of the scheduler (R291). -/
  | enqueue
  deriving DecidableEq, Repr

/-- A started, not completed instruction with the engine that holds it, its loaded side operand (FP32 bits by
row * 128 + column) and the descriptor it read at its start (R90). -/
structure Inflight where
  q : QInstr
  eng : Engine
  why : Await
  side : Map (BitVec 32)
  desc : Nat
  deriving DecidableEq, Repr

/-- The vector unit (R323): a program runs, its instruction's address, instructions executed, the 64 vector
registers and the 16 scalar registers. -/
structure VecState where
  running : Bool
  x : Stream
  pc : Nat
  count : Nat
  vregs : Map (BitVec 16384)
  xregs : Map (BitVec 64)
  deriving DecidableEq, Repr

/-- A watch register (R270, R273): armed (registered, not consumed), fired, status and counter value carried. -/
structure WatchReg where
  armed : Bool
  fired : Bool
  status : Nat
  value : Nat
  deriving DecidableEq, Repr

/-- The latest accumulating instruction at Matrix (R65, R98, R99): its stream, product (0 MMA, 1 DX, 2 DW, 3 sparse), and
which operands passed a transposing feeder. -/
structure LastAcc where
  x : Stream
  product : Nat
  aT : Bool
  bT : Bool
  deriving DecidableEq, Repr

/-- One logical tile. `lastAcc` is what the feeders were last used for, from which R98 tells an exposed fill. -/
structure Tile where
  sf : StreamCtl
  sb : StreamCtl
  su : StreamCtl
  fault : FaultRec
  stopped : Bool
  waiting : List QInstr
  inflight : List Inflight
  tokens : Map Nat
  starve : Map Nat
  active : AccSet
  shadow : AccSet
  panels : Map Panel
  halves : Map Panel
  vec : VecState
  watches : Map WatchReg
  srCount : Nat
  lastAcc : Option LastAcc
  deriving DecidableEq, Repr

/-! ## Sync hubs (12) -/

/-- A sync counter (R259, R260, R282, R398): state 0 FREE, 1 OWNED, 2 ORPHANED. -/
structure Counter where
  value : Nat
  state : Nat
  owner : Nat
  bias : Nat
  sumEven : Nat
  sumOdd : Nat
  lastUnit : Nat
  lastS : Nat
  lastNs : Nat
  lastOp : Nat
  lastOperand : Nat
  deriving DecidableEq, Repr

/-- Who waits on a watch (R269). -/
inductive Waiter where
  | reg (t : Nat) (x : Stream) (e : Engine) (r : Nat)
  | tie (t : Nat)
  | item (die slot : Nat)
  | pass2 (die cmd : Nat)
  | gate (p entry : Nat)
  deriving DecidableEq, Repr

/-- A watch at any point between registration and whistle (R269, R274): `part` the waiter's partition, `tag` the
waiter's tag, `timeout` in microseconds (0 none), `due` the AO cycle at which it elapses. -/
structure Watch where
  ctr : Nat
  target : Nat
  waiter : Waiter
  part : Nat
  tag : Nat
  timeout : Nat
  due : Nat
  deriving DecidableEq, Repr

/-- A whistle on its way or held (R273, R281): status 0 SATISFIED, 1 ORPHANED, 2 TIMEOUT; whether its watch holds a
slot until delivery (R271, R274). -/
structure Whistle where
  w : Watch
  status : Nat
  value : Nat
  slot : Bool
  deriving DecidableEq, Repr

/-- A local signal on its way to its hub (R263, R264): the issuing unit's identity and stream (3 none), its
partition, whether it is replay-counted and for which step (R398). -/
structure Signal where
  ctr : Nat
  isMax : Bool
  operand : Nat
  unit : Nat
  stream : Nat
  part : Nat
  counted : Option Nat
  deriving DecidableEq, Repr

/-- A remote signal held for its watermark (R267). -/
structure HeldSignal where
  peer : Nat
  part : Nat
  ctr : Nat
  isMax : Bool
  operand : Nat
  mark : Nat
  seq : Nat
  deriving DecidableEq, Repr

/-- The snapshot of the inspection object (R282). -/
structure SyncSnap where
  sel : Nat
  ctr : Counter
  waiters : Nat
  list : List Byte
  deriving DecidableEq, Repr

/-- All four hubs; watches and signals carry their counter, which names the hub (R259). `kept` holds the remote signals that
found 512 held at their hub and stay in LFT receive (R267), `fired` the whistles
delivered to queue heads and gates that have not started yet, with their status. -/
structure Sync where
  counters : Map Counter
  registering : List Watch
  slotWaits : List Watch
  armed : List Watch
  whistles : List Whistle
  signals : List Signal
  held : List HeldSignal
  kept : List HeldSignal
  fired : List (Waiter × Nat)
  snap : SyncSnap
  deriving DecidableEq, Repr

/-! ## Work scheduler (13) -/

/-- A work-item slot (R289, R292): state 1 WATCHING, 2 READY, 3 RUNNING; `readyNs` when it became READY while held
(R299). -/
structure Item where
  die : Nat
  slot : Nat
  part : Nat
  desc : BitVec 512
  state : Nat
  level : Nat
  system : Bool
  enqNs : Nat
  status : Nat
  value : Nat
  core : Nat
  startNs : Nat
  deriving DecidableEq, Repr

/-- Who wrote an enqueue port (R289). -/
inductive EnqSource where
  | tile (t : Nat) (x : Stream) (seq : Nat)
  | core (c : Nat)
  | flow (peer seq : Nat)
  | module
  deriving DecidableEq, Repr

/-- An enqueue write held under R291. -/
structure HeldEnq where
  die : Nat
  part : Nat
  src : EnqSource
  desc : BitVec 512
  deriving DecidableEq, Repr

/-- A work core (R3, R287, R293): the slot it runs, the tag under which it took its item (R400), its integer registers, and
the floating-point and vector state of an RV64GC core with V 1.0 whose VLEN is 512 (log 10, PRESUMED), what a load-reserved
holds: address, bytes and the value read, whether it waits for what a load asked for, and the field of a segment that a vector
load or store that waits has come to, beside `vstart`. -/
structure Core where
  busy : Bool
  tag : Nat
  slot : Nat
  pc : Nat
  regs : Map (BitVec 64)
  fregs : Map (BitVec 64)
  fcsr : Nat
  vregs : Map (BitVec 512)
  vl : Nat
  vtype : Nat
  vstart : Nat
  vcsr : Nat
  reserved : Option (Nat × Nat × Nat)
  asked : Bool
  part : Nat
  idleFromNs : Nat
  deriving DecidableEq, Repr

/-- The four schedulers and 96 cores; local SRAM bytes that cores have written, by core * 2^20 + offset, and the cores
whose partition area job control has loaded, each with the number of what it loaded (R288; log 59, DESIGN CHOICE); doorbell stores that wait for what they name to be
readable: kind, partition, value (R251). -/
structure Sched where
  items : List Item
  held : List HeldEnq
  cores : Map Core
  sram : Map (Option (BitVec 8))
  loaded : List (Nat × Nat)
  doorbells : List (Nat × Nat × Nat)
  deriving DecidableEq, Repr

/-! ## Partitions (17) -/

/-- What a partition remembers of a fault, so that its recurrence in the replay of the same step holds it (R333,
R254, R147): kind of cause (0 instruction fault, 1 uncorrectable line, 2 step mismatch), the step, two numbers. -/
structure Recur where
  cause : Nat
  step : Nat
  a : Nat
  b : Nat
  deriving DecidableEq, Repr

/-- One partition (R388 to R398, R406, R128, R501): `rolling` while a restart has not undone the step yet (R395 steps 3 to 6),
`sinceReplay` the steps begun since the step last replayed, that one included (0: none). -/
structure Part where
  state : PartState
  groups : Nat
  memGroups : Nat
  landFirst : Nat
  landCount : Nat
  ctrFirst : Nat
  ctrCount : Nat
  cores : List Nat
  step : Nat
  firstStep : Nat
  replay : Bool
  attempts : Nat
  lastCause : Nat
  causes : List Nat
  recur : List Recur
  replaced : Nat
  awaiting : List Nat
  rolling : Bool
  resumePreempted : Bool
  restartNs : Nat
  preemptAsked : Bool
  preemptStep : Nat
  preemptNs : Nat
  preemptBy : List Nat
  stepStopped : List Nat
  bornSteps : Nat
  sinceReplay : Nat
  perBlock : Bool
  steppedDown : Bool
  frozen : List Nat
  srSeed : Nat
  auditSeed : Nat
  ucode : Nat
  reload : Bool
  retire : List Nat
  deriving DecidableEq, Repr

/-! ## Events, settings, time -/

/-- An event record (R468). -/
structure Event where
  seq : Nat
  code : Nat
  severity : Nat
  part : Nat
  unit : Nat
  timeS : Nat
  timeNs : Nat
  args : List Nat
  deriving DecidableEq, Repr

/-- The event log and ALERT_N (R468, R470). -/
structure EventLog where
  ring : List Event
  next : Nat
  alertLow : Bool
  deriving DecidableEq, Repr

/-- Settings: committed or written values by object key, and, by unit * 2^24 + key, the value a unit still acts on
until its boundary (R464). -/
structure Settings where
  committed : Map Value
  held : Map Value
  flashWaiting : List Nat
  deriving DecidableEq, Repr

/-- The time transmitter that the best master clock algorithm selected (R380): the sub-port, or 128 for the management port,
that hears it, its port identity, and its Announce. -/
structure PtpParent where
  port : Nat
  source : Nat
  clock : PtpClock
  deriving DecidableEq, Repr

/-- The exchange with the time transmitter (R380, R381), times in 2^-16 ns: a two-step Sync that waits for its Follow_Up
(sequence, time of receipt), the latest Sync (times of sending, correction and asymmetry added, and of receipt), the
Delay_Req or Pdelay_Req under way (sequence, time of sending), a two-step Pdelay_Resp that waits for its follow-up (times
of receipt there and here), the mean path delay, the next sequence number. -/
structure PtpExchange where
  waiting : Option (Nat × Int)
  sync : Option (Int × Int)
  asked : Option (Nat × Int)
  resp : Option (Int × Int)
  delay : Option Int
  seq : Nat
  deriving DecidableEq, Repr

/-- Device time (R382): seconds, nanoseconds, fraction of a nanosecond in 2^-32 ns, the state 0 FREERUN, 1 LOCKING,
2 LOCKED, 3 HOLDOVER, last offset, grandmaster, correction per AO cycle in 2^-32 ns, corrections of the last 60 s LOCKED
with their times, start of holdover, its cause, whether a lock has come since FREERUN, the time transmitter
selected, and the exchange with it. -/
structure Time where
  s : Nat
  ns : Nat
  frac : Int
  state : Nat
  offset : Int
  gm : Nat
  corr : Int
  hist : List (Nat × Int)
  holdoverFrom : Nat
  holdoverCause : Nat
  locked : Bool
  parent : Option PtpParent
  ptp : PtpExchange
  deriving DecidableEq, Repr

/-! ## Units, tags and spares (17) -/

/-- Tags by unit number (0 to 63 tiles, 64 to 159 work cores, 160 to 191 samplers, 192 to 255 Retriever engines,
256 to 259 Update engines, 260 to 263 merge units), the tile map (physical code 17 * die + nn by logical tile; 999
for none), pools and retired masks per die, probe misses, dead and out-of-service units, physical tiles under test, switched out
of their logical place and not yet tested (R401), logical tiles owed a pool tile that is under test (R402, R441), and by unit the device
time after that at which a drop of its stale messages was last raised (R400 to R404, R409). -/
structure Units where
  tags : Map Nat
  map : Map Nat
  pool : Map Nat
  retired : Map Nat
  misses : Map Nat
  dead : List Nat
  out : List Nat
  testing : List Nat
  switched : List Nat
  owed : List Nat
  dropTime : Map Nat
  deriving DecidableEq, Repr

/-! ## Memory errors (11) -/

/-- A request that met a poisoned line and is parked on its refill (R251). -/
structure Parked where
  line : Nat
  req : MemReq
  deriving DecidableEq, Repr

/-- Memory errors (R249 to R256): poisoned lines, lines waiting for a free entry of a die's poison table, parked
requests, refills under way (line, source), lines whose refill looks at a window, with whether its stamps there have been
asked for, lines delivered poisoned
since their partition's last replay began, failed and retraining interfaces, lines of a failed interface that a spare page
holds, retired pages, pages being copied,
spare pages and spare lines used, by group and by bank; AO cycles of patrol scrub by die, corrected errors of pages: (page,
scrub cycle, errors) (R250, R422). -/
structure MemErr where
  poison : List Nat
  waiting : List Nat
  parked : List Parked
  refilling : List (Nat × Nat)
  seeking : List (Nat × Bool)
  delivered : List Nat
  failedIf : List Nat
  healed : List Nat
  retrain : List Nat
  retiredPages : List Nat
  copying : List Nat
  spareUsed : Map Nat
  spareLines : Map Nat
  scrubbed : Map Nat
  corrected : List (Nat × Nat × Nat)
  deriving DecidableEq, Repr

/-! ## Placement and prefetch (11) -/

/-- One issue of a prefetch entry (R245): entry, step, number among the entry's issues, credits held, landed, released. An
issue whose credits have returned is kept until the boundary of its step, for a restart to take it back (R247). -/
structure PfIssue where
  entry : Nat
  step : Nat
  nth : Nat
  credits : Nat
  landed : Bool
  released : Bool
  deriving DecidableEq, Repr

/-- A partition's placement table as read (R234) and its prefetch schedule's progress (R243 to R246): the table is
valid, its header, object records and prefetch entries; P0 of the step and the progress value last acted on; R243
broken in the step; issues with credits held; issues so far by entry; entries issued for this step and the next,
classified in this step, held short of credits or gate at their issue point for this step and the next; entries whose
gate watch is out; issues still owed to steps whose boundary has passed: (step, entry, issue point) (R244). -/
structure Placement where
  valid : Bool
  header : Nat
  objects : List Nat
  entries : List Nat
  p0 : Nat
  last : Nat
  posErr : Bool
  issues : List PfIssue
  count : Map Nat
  issued : List Nat
  issuedNext : List Nat
  classed : List Nat
  short : List Nat
  shortNext : List Nat
  gates : List Nat
  owed : List (Nat × Nat × Nat)
  deriving DecidableEq, Repr

/-! ## Fabric transport (15, 16) -/

/-- An LFT packet's header fields and payload (R367). -/
structure Packet where
  version : Nat
  typ : Nat
  retx : Bool
  srcPeer : Nat
  srcPart : Nat
  dstPart : Nat
  seq : Nat
  aux : Nat
  addr : Nat
  operand : Nat
  payload : List Byte
  deriving DecidableEq, Repr

/-- The remote effect of a tile that a packet belongs to: tile, engine, stream, address and sequence number of the
instruction, the ledger key's step and ordinal, whether the packet begins a chunk and which chunk it ends, the far address or
counter it was recorded with (R346). -/
structure Effect where
  tile : Nat
  eng : Engine
  x : Stream
  pc : Nat
  seq : Nat
  step : Nat
  ord : Nat
  begins : Bool
  chunk : Option Nat
  far : Nat
  deriving DecidableEq, Repr

/-- A packet this module sends: its own number, peer and partition, the effect it belongs to, the path
(8 * port + sub-port). -/
structure OutPkt where
  id : Nat
  peer : Nat
  part : Nat
  origin : Option Effect
  path : Nat
  p : Packet
  deriving DecidableEq, Repr

/-- A flow (R364, R370 to R372, R378), by peer * 16 + partition: sending side (next sequence, packets waiting for
credit, unacknowledged packets, credit granted by the latest ACK (0xFFFFFFFF before the first), sequence of the latest data packet accepted) and receiving side
(sequences landed above the watermark, watermark, data received above, data watermark, packets since the last ACK). -/
structure Flow where
  next : Nat
  sendq : List OutPkt
  unacked : List OutPkt
  grant : Nat
  lastData : Nat
  failed : Bool
  landed : List Nat
  wm : Nat
  dataSeen : List Nat
  dataWm : Nat
  sinceAck : Nat
  deriving DecidableEq, Repr

/-- A peer entry (R363) with what the module learns: paths UP with the HELLO intervals since their last HELLO, the known
incarnation, the peer's module_id, whether a version mismatch was raised (R369, R379), the number the peer uses for
this module (R368). -/
structure Peer where
  entry : BitVec 512
  paths : List (Nat × Nat)
  incarnation : Nat
  known : Bool
  mismatch : Bool
  youAre : Nat
  deriving DecidableEq, Repr

/-- A window read outstanding (R374): the READ's own number, its sequence once accepted, whether it was answered
poisoned or not at all and its line waits for a refill, window, peer, reading partition, device address in the
window, bytes, and the reader: a LOAD by 2^24 + (tile * 4 + stream) * 2^32 + sequence number, a prefetch issue by
2 * (partition * 2^16 + entry) + step mod 2, its step being the tag, or the refill of a line by 2^58 + line (R344). -/
structure FarRead where
  id : Nat
  seq : Option Nat
  failed : Bool
  window : Nat
  peer : Nat
  part : Nat
  src : Nat
  bytes : Nat
  owner : Nat
  tag : Nat
  deriving DecidableEq, Repr

/-- A ledger entry (R346): key (partition, tile, engine, stream, step, ordinal), peer, far address or counter, and
the mask of recorded chunks (bit 0 for a SIGNAL). -/
structure LedgerEntry where
  part : Nat
  tile : Nat
  eng : Engine
  x : Stream
  step : Nat
  ord : Nat
  peer : Nat
  far : Nat
  mask : Nat
  deriving DecidableEq, Repr

/-- A reduction under way (R375, R376): own rank, members by rank, own values, moves made of its schedule, and
contributions that wait for their turn: (rank, round, values). -/
structure Reduction where
  part : Nat
  tag : Nat
  ops : Nat
  rank : Nat
  members : List Nat
  result : Nat
  done : Nat
  round : Nat
  vals : List Nat
  early : List (Nat × Nat × List Nat)
  deriving DecidableEq, Repr

/-- The LFT engines, window and peer tables, ledger and reductions: `out` the packets handed to the ports and not yet
sent, `reads` the window reads without an answer, `far` the bytes answered for a reader, by owner * 2^64 + address;
`asked` the READs of peers that wait for a line: peer, packet, whether its error was met (R249, R251); `landing` the WRITEs
of peers that wait for their bytes to be visible: peer, packet (R267, R372); `ordinals` the
effects so far by stream, engine and step; `ledgerFull` the partitions and steps with an unrecorded
effect; `early` contributions to reductions not yet started: (partition, tag, sending peer, round, values). -/
structure Lft where
  peers : Map Peer
  flows : Map Flow
  out : List OutPkt
  windows : Map (BitVec 512)
  reads : List FarRead
  far : Map (BitVec 8)
  asked : List (Nat × Packet × Bool)
  landing : List (Nat × Packet)
  ledger : List LedgerEntry
  ordinals : Map Nat
  ledgerFull : List (Nat × Nat)
  reductions : List Reduction
  early : List (Nat × Nat × Nat × Nat × List Nat)
  nextId : Nat
  incarnation : Nat
  deriving DecidableEq, Repr

/-- Tracing (R490 to R492): state 0 stopped, 1 armed, 2 armed and wrapped; records written and lost since the arm. -/
structure Trace where
  state : Nat
  records : Nat
  lost : Nat
  deriving DecidableEq, Repr

/-- A front-cage optic (R362, R487): medium (0 empty, 1 copper, 2 powered module), state of optic.state, advertised
maximum power in mW, the port modes that it lists an Application for, the sub-ports whose data path is initialised, latched flags, identity strings, and the monitors last read. -/
structure Optic where
  medium : Nat
  state : Nat
  powerMw : Nat
  apps : Nat
  paths : Nat
  flags : Nat
  vendor : List Byte
  part : List Byte
  serial : List Byte
  temp : BitVec 32
  supply : BitVec 32
  lanes : List Byte
  deriving DecidableEq, Repr

/-- The Ethernet ports (R358 to R362): sub-ports up, coded 8 * port + sub-port; times of recent losses by sub-port;
sub-ports held down; priorities that are paused, whose pause is ignored, and whose sender has been asked to pause, coded
8 * sub-port + priority; optics by port. -/
structure Ports where
  links : List Nat
  downs : List (Nat × Nat)
  holding : List Nat
  paused : List Nat
  ignored : List Nat
  asking : List Nat
  optics : Map Optic
  deriving DecidableEq, Repr

/-! ## Retriever and the merge units (09) -/

/-- A row of a touched-row set (R193, R194): row, merge index, lookups, `written`, `updated`. -/
structure TouchEntry where
  row : Nat
  idx : Nat
  count : Nat
  written : Bool
  updated : Bool
  deriving DecidableEq, Repr

/-- The touched-row set of a partition's table on a die for a step (R193); `clearing` after its boundary (R197). -/
structure TouchSet where
  part : Nat
  table : Nat
  die : Nat
  step : Nat
  sealed : Bool
  clearing : Bool
  entries : List TouchEntry
  deriving DecidableEq, Repr

/-- A hot-directory entry (R199, R201): state 1 PROMOTING, 2 HOT, 3 DEMOTING; `held` the row bytes of a pass-2 write
held during the migration. -/
structure HotEntry where
  part : Nat
  table : Nat
  die : Nat
  row : Nat
  slot : Nat
  last : Nat
  epoch : Nat
  st : Nat
  held : Option (List Byte)
  deriving DecidableEq, Repr

/-- A Retriever request (R182): number, partition, tile, stream, address and sequence number of the instruction that issued
it, stream step, descriptor copy, rows
begun, rows and adds outstanding, positions read through a window, whether it was sealed, and the events it raised. -/
structure RetrReq where
  id : Nat
  part : Nat
  tile : Nat
  x : Stream
  pc : Nat
  seq : Nat
  step : Nat
  desc : BitVec 1024
  next : Nat
  left : Nat
  far : List Nat
  sealDone : Bool
  badRaised : Bool
  strayRaised : Bool
  deriving DecidableEq, Repr

/-- A deferred lookup (R196): request, row position, die. -/
structure Deferred where
  req : Nat
  pos : Nat
  die : Nat
  deriving DecidableEq, Repr

/-- A merge-add on its way to its merge unit (R195). -/
structure MergeAdd where
  req : Nat
  part : Nat
  table : Nat
  row : Nat
  step : Nat
  vals : List (BitVec 32)
  deriving DecidableEq, Repr

/-- A table descriptor pinned by the batch of a step (R205). -/
structure TablePin where
  part : Nat
  table : Nat
  step : Nat
  addr : Nat
  desc : BitVec 1024
  deriving DecidableEq, Repr

/-- A registry entry as Retriever read it (R192). -/
structure RegEntry where
  part : Nat
  table : Nat
  entry : BitVec 512
  deriving DecidableEq, Repr

/-- Retriever: requests, touched-row sets, hot directories, deferral lists, merge-adds, pins, descriptors no longer
current and not yet freed (partition, table, address), registry entries read, publishes staged, migration epochs by
die, registry addresses by partition. -/
structure Retr where
  reqs : List RetrReq
  sets : List TouchSet
  hot : List HotEntry
  deferred : List Deferred
  adds : List MergeAdd
  pins : List TablePin
  old : List (Nat × Nat × Nat)
  regs : List RegEntry
  publish : List (Nat × Nat)
  epochs : Map Nat
  regAddr : Map Nat
  nextId : Nat
  deriving DecidableEq, Repr

/-! ## The Update engines (07) -/

/-- A partition's update table as read at job start (R136): header and group descriptor addresses. -/
structure UpdTable where
  part : Nat
  header : Nat
  groups : List Nat
  deriving DecidableEq, Repr

/-- A command in a pass queue of a die (R148): number, partition, die, pass, group descriptor address, step of its
stream, slices done, pass 2: its watch is out, it has started, what it does: 0 update, 1 frozen, 2 skipped, 3 both (R154), whether
its slice has written its embedding rows and awaits those that a migration holds (R21, R201). -/
structure UpdCmd where
  id : Nat
  part : Nat
  die : Nat
  pass : Nat
  group : Nat
  step : Nat
  next : Nat
  armed : Bool
  going : Bool
  skip : Nat
  rows : Bool
  deriving DecidableEq, Repr

/-- The curve values that pass 1 evaluated for a unit entry (R144). -/
structure CurveVals where
  part : Nat
  group : Nat
  entry : Nat
  step : Nat
  eta : BitVec 32
  lam : BitVec 32
  a1 : BitVec 32
  b1 : BitVec 32
  deriving DecidableEq, Repr

/-- A unit's norms as the norm die combined them (R149). -/
structure UnitNorm where
  part : Nat
  group : Nat
  unit : Nat
  step : Nat
  w : BitVec 32
  u : BitVec 32
  g : BitVec 32
  deriving DecidableEq, Repr

/-- An entry of an undo log (R156): partition, step, its address, table, die, row, the row's place in T1, row bytes,
row-state address and bytes. -/
structure UndoRec where
  part : Nat
  step : Nat
  addr : Nat
  table : Nat
  die : Nat
  row : Nat
  home : Nat
  rowLen : Nat
  stAddr : Nat
  stLen : Nat
  deriving DecidableEq, Repr

/-- The Update engines: tables, queued commands, pass-1 values, norms, undo entries in append order; pass 1 done by
(partition, die, step, group), pass-1 counter signalled by (partition, die, step), pass 2 done by (partition, step,
group, die), skipped steps counted. -/
structure Upd where
  tables : List UpdTable
  cmds : List UpdCmd
  curves : List CurveVals
  norms : List UnitNorm
  undo : List UndoRec
  p1done : List (Nat × Nat × Nat × Nat)
  p1sent : List (Nat × Nat × Nat)
  p2done : List (Nat × Nat × Nat × Nat)
  skipped : List (Nat × Nat)
  nextId : Nat
  deriving DecidableEq, Repr

/-! ## Hound and the mask planner (08, 10) -/

/-- A trail accepted by Hound (R165 to R175): partition, descriptor copy, the hop it works on (none closed: 0), whether
it runs; node numbers by local index; `nodes_end` and `edges_valid` so far; local index + 1 by node in the tables,
table entries by die; seed times; the instances of the hop: local index and time; bad instances, spills, and the
events raised for it. -/
structure Trail where
  part : Nat
  desc : BitVec 1024
  hop : Nat
  running : Bool
  nodes : List Nat
  ends : List Nat
  valid : List Nat
  table : Map Nat
  counts : Map Nat
  seedTimes : List Nat
  insts : List (Option (Nat × Nat))
  bad : Nat
  spills : Nat
  badRaised : Bool
  fullRaised : Bool
  deriving DecidableEq, Repr

/-- A mask load under way (R211). -/
structure MaskLoad where
  part : Nat
  desc : BitVec 512
  deriving DecidableEq, Repr

/-- A plan that the module built (R216): partition, header, block size, `rowptr`, and the records of its F, T and G plans
as numbers; what it was built from is no field of the plan (log 82, DEDUCED). -/
structure BuiltPlan where
  part : Nat
  header : Nat
  block : Nat
  rowptr : List Nat
  recs : List (List Nat)
  deriving DecidableEq, Repr

/-! ## Power (18) -/

/-- Power states and the power manager (R411 to R432). By domain 0 to 47: the state (0 ACTIVE, 1 DOZE, 2 NAP, 3 SLEEP,
4 OFF), the state being entered, domains on their way to ACTIVE, domains with a wake held during an entry, timer
states that wait for the floor or for the end of another entry (bit k: state k), and domains whose idle spell began before their timers
changed (R433). Input: latest mV and mA, the samples of the last 1 ms, runs of low, of
over-current and of in-range samples, whether an input fault took the module down (R412), whether in the low or high band, the cause of an input fault found (0 none) with its value. Charge
of the hold-up store in percent and the AO cycle at which it had it, array-rail mW, stage, evaluations in a row above the cap and below the margin, since the
last step, above the cap at stage 3, and whether cap_unmet was raised in the episode. Thermal: readings in m°C, levels
by die, reports in a row 5 °C below level l of die d at 8 * d + l, GDDR7 device readings, flow in mL/min, inlet in m°C,
and whether either is out of range. -/
structure Power where
  dom : Map Nat
  entering : Map Nat
  exiting : List Nat
  woken : List Nat
  blocked : Map Nat
  resting : List Nat
  mv : Nat
  ma : Nat
  samples : List (Nat × Nat)
  lowRun : Nat
  overRun : Nat
  okRun : Nat
  faulted : Bool
  lowBand : Bool
  highBand : Bool
  faultCause : Nat
  faultValue : Nat
  holdup : Nat
  holdupAt : Nat
  arrayMw : Nat
  stage : Nat
  overCap : Nat
  underCap : Nat
  sinceStep : Nat
  unmet : Nat
  unmetRaised : Bool
  dieC : Map Int
  level : Map Nat
  coolRun : Map Nat
  gddrC : Map Int
  flow : Nat
  inlet : Int
  flowLow : Bool
  inletHigh : Bool
  deriving DecidableEq, Repr

/-! ## Start-up (19) and the module's hardware (23) -/

/-- How far the start has come (R438): off; step 1 passed; held at step 2 by RST_N; step 3 next; held at step 3 by SVC;
step 4 next; bring-up after step 6; READY; FAILED; FAILED before step 5, where no firmware serves DAP (R444); ROM recovery; CRITICAL_OFF; the shutdown of R412 steps 2 to 5. -/
inductive Phase where
  | off | powered | heldReset | sensed | heldSvc | romStart | bringup | ready | failed | failedRom | recovery | critical | saving
  deriving DecidableEq, Repr

/-- Start-up (R435 to R448): the phase, whether this start is warm, the slot booted and whether by fallback, the last
reset's code, ms to READY, usable interface groups, SLOT_ID as sampled, step times, the pins PWR_EN and RST_N, SVC as step 3 sampled it,
input in range, steps 7, 8, 10 and 11 done (bits 0 to 3), AO cycle of step 1, whether the module is seated, whether the
management link is up, the code of a warm-reset request that waits (0 none), AO cycles with the input in range beyond
the whole hours that tel.operating_hours counted (R485), the interfaces whose training values kennel memory holds (R441), and
whether this start's firmware has run before (R436). -/
structure Dev where
  phase : Phase
  warm : Bool
  bootSlot : Nat
  fallback : Bool
  lastReset : Nat
  readyMs : Nat
  groups : Nat
  slotId : Nat
  stepMs : Map Nat
  pwrEn : Bool
  rstN : Bool
  svc : Bool
  inputOk : Bool
  steps : Nat
  startAo : Nat
  seated : Bool
  mgmtLink : Bool
  resetDue : Nat
  okCycles : Nat
  trained : Nat
  begun : Bool
  deriving DecidableEq, Repr

/-- The front panel (R488, R518 to R525): AO cycle at which identify ends (0: none), removal and quiesce states, lever open, handling now,
seconds counted from the time in ns since the last handling (none: never), time of the last panel.handling event, LED
test running. -/
structure FrontPanel where
  identify : Nat
  removal : Nat
  quiesce : Nat
  lever : Bool
  handling : Bool
  handledNs : Option Nat
  raisedNs : Option Nat
  ledTest : Bool
  deriving DecidableEq, Repr

/-! ## The dictionary's protocol (20) -/

/-- A subscription (R469): class mask, minimum severity, the next event_seq to look at, records sent and not
acknowledged, each with its `lost` flag, records found overwritten since the last delivery. -/
structure Subscription where
  mask : Nat
  minSev : Nat
  next : Nat
  unacked : List (Nat × Bool)
  lost : Bool
  deriving DecidableEq, Repr

/-- A fuse write that awaits CONFIRM (R467): token, object key, value, AO cycle at which it lapses. -/
structure FuseToken where
  token : Nat
  key : Nat
  value : Value
  due : Nat
  deriving DecidableEq, Repr

/-- A DAP frame on the wire: header, payload, sealed where the header says so, and tag (R450, R451). -/
structure DapFrame where
  header : Nat
  payload : List Byte
  tag : List Byte
  deriving DecidableEq, Repr

/-- Where a DAP message goes (R449, R473, R480): sub-port or management port (128), the module's MAC address there, the tag
(PCP and VLAN), the requester, and for IPv4 the next hop. -/
structure DapRoute where
  via : Nat
  mac : Nat
  tag : Option (Nat × Nat)
  dst : DapSource
  hop : Nat
  deriving DecidableEq, Repr

/-- A message that the module sends: session, type, `seq`, response flag, body before sealing, where it goes, and its frames
(R450, R451, R456). -/
structure DapOut where
  session : Nat
  typ : Nat
  seq : Nat
  response : Bool
  body : List Byte
  route : DapRoute
  frames : List DapFrame
  deriving DecidableEq, Repr

/-- A session or an incomplete handshake (R452 to R455): number, `ready` after READY, the sub-port that its latest frame came by (128:
the management port) and from where, requested and granted role, the client's public key, the bodies exchanged, number of the ephemeral key pair, agreed
version, session keys, next client sequence expected, the module's next, messages held ahead, the last 16 answers, staged
values, fuse token, subscription, tag failures in a row, segments of a message under way: (sequence, type, last segment,
segment, payload); attestation state, report and nonce (R481). -/
structure Session where
  number : Nat
  ready : Bool
  via : Nat
  src : DapSource
  asked : Nat
  role : Nat
  key : List Byte
  bodies : List Byte
  pair : Nat
  version : Nat
  keys : List Byte
  next : Nat
  out : Nat
  held : List (Nat × DapMsg)
  cache : List (Nat × DapOut)
  staged : Map Value
  token : Option FuseToken
  sub : Option Subscription
  fails : Nat
  segs : List (Nat × Nat × Nat × Nat × List Byte)
  attState : Nat
  attReport : List Byte
  attNonce : List Byte
  deriving DecidableEq, Repr

/-- Sessions, segments of HELLO and KEY messages under way (where from, header, payload), messages handed to the transport, the next session number, fuse rows: programming attempts used by object
key (R461, R467), spare-remap bits that the module still has to program: die * 32 + nn (R482, R506). -/
structure Dap where
  sessions : List Session
  segs : List (DapArrival × List Byte)
  out : List DapOut
  nextSession : Nat
  fuseUsed : Map Nat
  remapDue : List Nat
  deriving DecidableEq, Repr

/-! ## Firmware (22) -/

/-- Flash images and the update (R493 to R501): active slot, running slot, image blocks programmed by 512 * slot + block,
manifests, the two boot-record copies (sequence number, slot), versions and states by slot, versions now running; the
update's state, target slot, length and session, halves of blocks by 2 * block + half with the CRC-32C given, blocks that
wait to be programmed, blocks counted, the manifest received, reason of the last refusal. -/
structure Firmware where
  active : Nat
  running : Nat
  blocks : Map (List Byte)
  manifests : Map (List Byte)
  boot0 : Nat × Nat
  boot1 : Nat × Nat
  versions : Map Nat
  states : Map Nat
  mgmtVer : Nat
  ucodeVer : Nat
  update : Nat
  target : Nat
  length : Nat
  owner : Nat
  halves : Map (Nat × List Byte)
  queue : List (Nat × List Byte)
  counted : List Nat
  manifest : List Byte
  refuse : Nat
  deriving DecidableEq, Repr

/-! ## The whole state -/

/-- The state of the module. -/
structure State where
  /-- Commands waiting, first in, first out (the block's queue). -/
  pending : List Instr
  /-- GDDR7, tile stores and landing stores by device address; an unlisted byte reads 0 (R230, R447). -/
  mem : Map (BitVec 8)
  /-- Counter objects by object key (R486, R542). -/
  ctr : Map Nat
  tiles : Map Tile
  parts : Map Part
  sync : Sync
  sched : Sched
  units : Units
  memErr : MemErr
  lft : Lft
  log : EventLog
  settings : Settings
  time : Time
  /-- AO cycles since the cold start; the model's own clock (log 3, DESIGN CHOICE). -/
  ao : Nat
  /-- Next free value (log 2, DESIGN CHOICE). -/
  free : Nat
  /-- Reply of the latest bank-side operation: 0 CLAIMED, 1 HIT, 2 OTHER, 3 nothing (R49). -/
  bankReply : Nat
  trace : Trace
  /-- Placement and prefetch by partition. -/
  place : Map Placement
  ports : Ports
  retr : Retr
  upd : Upd
  /-- Hound's queues: the trails accepted, in doorbell order (R165). -/
  trails : List Trail
  /-- Trail slots that a trail holds: (partition, step) (R24). -/
  trailSlots : List (Nat × Nat)
  masks : List MaskLoad
  /-- Plans built, the latest first (R216). -/
  plans : List BuiltPlan
  power : Power
  dev : Dev
  panel : FrontPanel
  dap : Dap
  fw : Firmware
  deriving DecidableEq, Repr

/-! ## Reset values -/

/-- A stream control block after reset (R306). -/
def StreamCtl.reset : StreamCtl :=
  { state := .idle, entry := 0, firstStep := 0, pc := 0, step := 0, mark0 := 0, mark1 := 0, nextSeq := 0
    marked := false, ended := false, dwSkip := false, buf := [] }

/-- An empty fault record (R334). -/
def FaultRec.reset : FaultRec :=
  { valid := false, kind := 0, stream := 0, engine := 0, address := 0, detail := 0, seq := 0, timeS := 0
    timeNs := 0, pc := 0 }

/-- An empty accumulator set (R75). -/
def AccSet.reset : AccSet :=
  { state := .empty, m := 0, n := 0, owner := .f, product := 0, stepped := false, sparse := none, pairs := [] }

/-- An empty panel buffer or half (R94, R218). -/
def Panel.reset : Panel := { full := false, loading := false, rows := 0, cols := 0, fmt := .bf16, elems := [] }

/-- The vector unit after reset (R323); registers 0 (log 12, DESIGN CHOICE). -/
def VecState.reset : VecState := { running := false, x := .f, pc := 0, count := 0, vregs := [], xregs := [] }

/-- A disarmed watch register (R307); status 3 reads not fired (R325). -/
def WatchReg.reset : WatchReg := { armed := false, fired := false, status := 3, value := 0 }

/-- A tile after cold and warm resets (R54, R75, R94, R306, R447); starvation counts 0 (log 12, DESIGN CHOICE). -/
def Tile.reset : Tile :=
  { sf := .reset, sb := .reset, su := .reset, fault := .reset, stopped := false, waiting := [], inflight := []
    tokens := [], starve := [], active := .reset, shadow := .reset, panels := [], halves := [], vec := .reset
    watches := [], srCount := 0, lastAcc := none }

/-- A FREE counter at 0 (R260). -/
def Counter.reset : Counter :=
  { value := 0, state := 0, owner := 0, bias := 0, sumEven := 0, sumOdd := 0, lastUnit := 0, lastS := 0
    lastNs := 0, lastOp := 0, lastOperand := 0 }

/-- The hubs after reset (R260, R447). -/
def Sync.reset : Sync :=
  { counters := [], registering := [], slotWaits := [], armed := [], whistles := [], signals := [], held := [], kept := []
    fired := []
    snap := { sel := 0, ctr := .reset, waiters := 0, list := [] } }

/-- A free work core (R293); registers 0 (log 59, DESIGN CHOICE). -/
def Core.reset : Core :=
  { busy := false, tag := 0, slot := 0, pc := 0, regs := [], fregs := [], fcsr := 0, vregs := [], vl := 0, vtype := 0, vstart := 0
    vcsr := 0, reserved := none, asked := false, part := 0, idleFromNs := 0 }

/-- The schedulers after reset (R447); SRAM 0 (log 59, DESIGN CHOICE). -/
def Sched.reset : Sched := { items := [], held := [], cores := [], sram := [], loaded := [], doorbells := [] }

/-- An UNFORMED partition (R389, R443). -/
def Part.reset : Part :=
  { state := .unformed, groups := 0, memGroups := 0, landFirst := 0, landCount := 0, ctrFirst := 0, ctrCount := 0
    cores := [], step := 0, firstStep := 0, replay := false, attempts := 0, lastCause := 0, causes := []
    recur := [], replaced := 0, awaiting := [], rolling := false, resumePreempted := false, restartNs := 0, preemptAsked := false
    preemptStep := 0, preemptNs := 0, preemptBy := [], stepStopped := [], bornSteps := 0, sinceReplay := 0, perBlock := false, steppedDown := false
    frozen := [], srSeed := 0, auditSeed := 0, ucode := 0, reload := false, retire := [] }

/-- Units as delivered (R402, R409): pools hold t16 of each die, nothing retired; tags and map by choice (log 12, DESIGN CHOICE). -/
def Units.reset : Units :=
  { tags := [], map := [], pool := [], retired := [], misses := [], dead := [], out := [], testing := [], switched := []
    owed := [], dropTime := [] }

/-- Memory without errors (R447). -/
def MemErr.reset : MemErr :=
  { poison := [], waiting := [], parked := [], refilling := [], seeking := [], delivered := [], failedIf := [], healed := []
    retrain := [], retiredPages := [], copying := [], spareUsed := [], spareLines := [], scrubbed := [], corrected := [] }

/-- No placement table (R234). -/
def Placement.reset : Placement :=
  { valid := false, header := 0, objects := [], entries := [], p0 := 0, last := 0, posErr := false, issues := []
    count := [], issued := [], issuedNext := [], classed := [], short := [], shortNext := [], gates := [], owed := [] }

/-- A flow whose sequence space starts at 0 (R266). -/
def Flow.reset : Flow :=
  { next := 0, sendq := [], unacked := [], grant := 0xFFFFFFFF, lastData := 0xFFFFFFFF, failed := false, landed := []
    wm := 0xFFFFFFFF, dataSeen := [], dataWm := 0xFFFFFFFF, sinceAck := 0 }

/-- A zero peer entry (R363). -/
def Peer.reset : Peer := { entry := 0, paths := [], incarnation := 0, known := false, mismatch := false, youAre := 0 }

/-- The network dies after reset (R239, R363, R447). -/
def Lft.reset : Lft :=
  { peers := [], flows := [], out := [], windows := [], reads := [], far := [], asked := [], landing := [], ledger := [], ordinals := [], ledgerFull := []
    reductions := [], early := [], nextId := 0, incarnation := 1 }

/-- No optic. -/
def Optic.reset : Optic :=
  { medium := 0, state := 0, powerMw := 0, apps := 0, paths := 0, flags := 0, vendor := [], part := [], serial := [], temp := 0, supply := 0
    lanes := [] }

/-- The ports after reset: every sub-port down, every cage empty (log 12, DESIGN CHOICE). -/
def Ports.reset : Ports := { links := [], downs := [], holding := [], paused := [], ignored := [], asking := [], optics := [] }

/-- Retriever after reset (R201, R447). -/
def Retr.reset : Retr :=
  { reqs := [], sets := [], hot := [], deferred := [], adds := [], pins := [], old := [], regs := [], publish := []
    epochs := [], regAddr := [], nextId := 0 }

/-- The Update engines after reset (R447). -/
def Upd.reset : Upd :=
  { tables := [], cmds := [], curves := [], norms := [], undo := [], p1done := [], p1sent := [], p2done := []
    skipped := [], nextId := 0 }

/-- Power at READY: TG and SP domains OFF, every other domain ACTIVE (R389, R415); measured values,
input 44 V and a full hold-up store among them (log 60, DESIGN CHOICE). -/
def Power.reset : Power :=
  { dom := (List.range 20).map (fun i => (i, 4)), entering := [], exiting := [], woken := [], blocked := []
    resting := [], mv := 44000, ma := 0, samples := [], lowRun := 0, overRun := 0, okRun := 0, faulted := false, lowBand := false, highBand := false
    faultCause := 0, faultValue := 0, holdup := 100, holdupAt := 0, arrayMw := 0, stage := 0, overCap := 0, underCap := 0
    sinceStep := 0, unmet := 0, unmetRaised := false, dieC := [], level := [], coolRun := [], gddrC := []
    flow := 4500, inlet := 40000, flowLow := false, inletHigh := false }

/-- A module that is READY after a cold start from slot A (R443); SLOT_ID 0, pins by choice (logs 12 and 60, DESIGN CHOICE). -/
def Dev.reset : Dev :=
  { phase := .ready, warm := false, bootSlot := 0, fallback := false, lastReset := 0, readyMs := 0, groups := 0xFFFFF
    slotId := 0, stepMs := [], pwrEn := true, rstN := true, svc := false, inputOk := true, steps := 15
    startAo := 0, seated := true, mgmtLink := false, resetDue := 0, okCycles := 0, trained := 2 ^ 160 - 1, begun := true }

/-- The front panel at READY: lever closed, never handled (log 60, DESIGN CHOICE). -/
def FrontPanel.reset : FrontPanel :=
  { identify := 0, removal := 0, quiesce := 0, lever := false, handling := false, handledNs := none
    raisedNs := none, ledTest := false }

/-- No session. -/
def Dap.reset : Dap := { sessions := [], segs := [], out := [], nextSession := 1, fuseUsed := [], remapDue := [] }

/-- Flash with a verified image in slot A and slot B empty (log 27, DESIGN CHOICE). -/
def Firmware.reset : Firmware :=
  { active := 0, running := 0, blocks := [], manifests := [], boot0 := (1, 0), boot1 := (0, 0), versions := []
    states := [(0, 3)], mgmtVer := 0, ucodeVer := 0, update := 0, target := 0, length := 0, owner := 0
    halves := [], queue := [], counted := [], manifest := [], refuse := 0 }

/-- No PTP exchange. -/
def PtpExchange.reset : PtpExchange :=
  { waiting := none, sync := none, asked := none, resp := none, delay := none, seq := 0 }

/-- The module right after reset: READY after a cold start, nothing formed (R443, R447, R479; log 12, DESIGN CHOICE). -/
def State.reset : State :=
  { pending := [], mem := [], ctr := [], tiles := [], parts := [], sync := .reset, sched := .reset
    units := .reset, memErr := .reset, lft := .reset
    log := { ring := [], next := 0, alertLow := false }
    settings := { committed := [], held := [], flashWaiting := [] }
    time := { s := 0, ns := 0, frac := 0, state := 0, offset := 0, gm := 0, corr := 0, hist := []
              holdoverFrom := 0, holdoverCause := 0, locked := false, parent := none, ptp := .reset }
    ao := 0, free := 0
    bankReply := 3
    trace := { state := 0, records := 0, lost := 0 }
    place := []
    ports := .reset
    retr := .reset
    upd := .reset
    trails := []
    trailSlots := []
    masks := []
    plans := []
    power := .reset
    dev := .reset
    panel := .reset
    dap := .reset
    fw := .reset
  }

end Sys2Proof.Machine
end

