-- ==== Sys2Proof/Machine/Ops.lean ====
section
/-! DEFINITION. Machine/Ops.lean: the named operations over the state that every family shares: field updates,
device time, events, counters, settings, memory, addresses, partitions and tags. -/

namespace Sys2Proof.Machine

/-! ## Field reads and updates -/

/-- Reads a tile. -/
def getTile (s : State) (t : Nat) : Tile := mget Tile.reset s.tiles t

/-- Writes a tile. -/
def putTile (s : State) (t : Nat) (v : Tile) : State := { s with tiles := mset Tile.reset s.tiles t v }

/-- Reads a partition. -/
def getPart (s : State) (p : Nat) : Part := mget Part.reset s.parts p

/-- Writes a partition. -/
def putPart (s : State) (p : Nat) (v : Part) : State := { s with parts := mset Part.reset s.parts p v }

/-- Reads a sync counter. -/
def getCounter (s : State) (n : Nat) : Counter := mget Counter.reset s.sync.counters n

/-- Replaces the hubs. -/
def putSync (s : State) (v : Sync) : State := { s with sync := v }

/-- Writes a sync counter. -/
def putCounter (s : State) (n : Nat) (v : Counter) : State :=
  putSync s { s.sync with counters := mset Counter.reset s.sync.counters n v }

/-- Replaces the schedulers. -/
def putSched (s : State) (v : Sched) : State := { s with sched := v }

/-- Replaces the units record. -/
def putUnits (s : State) (v : Units) : State := { s with units := v }

/-- Replaces the memory-error record. -/
def putMemErr (s : State) (v : MemErr) : State := { s with memErr := v }

/-- Replaces the fabric record. -/
def putLft (s : State) (v : Lft) : State := { s with lft := v }

/-- Replaces the event log. -/
def putLog (s : State) (v : EventLog) : State := { s with log := v }

/-- Replaces the settings. -/
def putSettings (s : State) (v : Settings) : State := { s with settings := v }

/-- Replaces device time. -/
def putTime (s : State) (v : Time) : State := { s with time := v }

/-- Replaces the DAP record. -/
def putDap (s : State) (v : Dap) : State := { s with dap := v }

/-- Replaces the ports. -/
def putPorts (s : State) (v : Ports) : State := { s with ports := v }

/-- Replaces the front panel. -/
def putFront (s : State) (v : FrontPanel) : State := { s with panel := v }

/-- Replaces the trace record. -/
def putTrace (s : State) (v : Trace) : State := { s with trace := v }

/-- Replaces device memory. -/
def putMem (s : State) (v : Map (BitVec 8)) : State := { s with mem := v }

/-- Replaces the counter objects. -/
def putCtrs (s : State) (v : Map Nat) : State := { s with ctr := v }

/-- A fresh free value (log 2, DESIGN CHOICE) and the state with the free counter advanced. -/
def freshFree (s : State) : Nat × State := (Config.freeNat s.free, { s with free := s.free + 1 })

/-! ## Counters and time -/

/-- Reads a counter of the counter objects (R542). -/
def getCtr (s : State) (idx sub : Nat) : Nat := mget 0 s.ctr (objKey idx sub)

/-- Writes a counter, which holds at most 2^64 - 1 (R542). -/
def setCtr (s : State) (idx sub v : Nat) : State := putCtrs s (mset 0 s.ctr (objKey idx sub) (min v (2 ^ 64 - 1)))

/-- Adds to a counter, which saturates (R542). -/
def addCtr (s : State) (idx sub n : Nat) : State := setCtr s idx sub (getCtr s idx sub + n)

/-- Clears every counter of an object (R542). -/
def clearCtrs (s : State) (idx : Nat) : State := putCtrs s (mdrop (fun k => k / 256 == idx) s.ctr)

/-- Device time in nanoseconds. -/
def nowNs (s : State) : Nat := s.time.s * 1000000000 + s.time.ns

/-! ## Settings (R462 to R464) -/

/-- The committed (RWC) or written (RW) value of an object, its default if none was ever written (R479). -/
def settingV (s : State) (idx sub : Nat) : Value :=
  match mfind s.settings.committed (objKey idx sub) with
  | some v => v
  | none => objDefault idx sub

/-- A value as a natural number. -/
def valueNat : Value → Nat
  | .num n => n.toNat
  | .bytes b => ofBytes b

/-- The committed value of a numeric setting. -/
def setting (s : State) (idx sub : Nat) : Nat := valueNat (settingV s idx sub)

/-- Key of a value that a unit still acts on (R464); unit 0 is the module, 1 + t a tile, 1 + p a partition. -/
def heldKey (unit idx sub : Nat) : Nat := unit * 2 ^ 24 + objKey idx sub

/-- The value of a setting that a unit acts on: the last it took (R464). -/
def settingAt (s : State) (unit idx sub : Nat) : Nat :=
  match mfind s.settings.held (heldKey unit idx sub) with
  | some v => valueNat v
  | none => setting s idx sub

/-- A unit reaches its boundary and takes the committed values of an object range (R464). -/
def takeSettings (s : State) (unit : Nat) (idxs : List Nat) : State :=
  putSettings s { s.settings with
    held := mdrop (fun k => k / 2 ^ 24 == unit && idxs.contains (k % 2 ^ 24 / 256)) s.settings.held }

/-- A unit reaches its boundary for one subindex of an object. -/
def takeSetting (s : State) (unit idx sub : Nat) : State :=
  putSettings s { s.settings with held := mdel s.settings.held (heldKey unit idx sub) }

/-! ## Events (R468, R470, R530 to R532) -/

/-- Severity of an event code (R533 to R541): 0 info, 1 warning, 2 error, 3 critical. -/
def eventSeverity (code : Nat) : Nat :=
  if [0x0808, 0x0901, 0x0904, 0x0905, 0x090E, 0x0A08, 0x0B01, 0x0B05, 0x0B09, 0x0C01, 0x0C02, 0x0C03, 0x0C05, 0x0C06,
      0x0C08, 0x0C09].contains code then 0
  else if [0x0101, 0x0102, 0x0104, 0x0201, 0x0202, 0x0204, 0x0304, 0x0306, 0x0401, 0x0403, 0x0501, 0x0504, 0x0602,
      0x0604, 0x0702, 0x0802, 0x0803, 0x0804, 0x0805, 0x0902, 0x090C, 0x090F, 0x0911, 0x0A04, 0x0A06, 0x0A0B, 0x0B04,
      0x0B07, 0x0C04, 0x0C07].contains code then 1
  else if [0x0103, 0x0205, 0x0A05, 0x0B03, 0x0B06, 0x0B0A].contains code then 3
  else 2

/-- Records an event in the ring and drives ALERT_N (R468, R470); `part` 0xFF for none, `unit` 0 for none. -/
def raise (s : State) (code part unit : Nat) (args : List Nat) : State :=
  let s := addCtr (addCtr s 0x4001 (code / 256) 1) 0x4C01 7 1
  let e : Event := { seq := s.log.next, code := code, severity := eventSeverity code, part := part, unit := unit
                     timeS := s.time.s, timeNs := s.time.ns, args := args.map (· % 2 ^ 64) }
  putLog s { s.log with
    ring := (if s.log.ring.length < 16384 then s.log.ring else s.log.ring.drop 1) ++ [e]
    next := s.log.next + 1
    alertLow := s.log.alertLow || bitSet (setting s 0x1100 0x0E) (code / 256) }

/-! ## Memory: bytes and lines (R9, R41) -/

/-- A byte of device memory. -/
def readByte (s : State) (a : Nat) : Byte := mget 0 s.mem a

/-- `n` bytes from an address up. -/
def readBytes (s : State) (a n : Nat) : List Byte := (upFrom a n).map (readByte s)

/-- `n` bytes as a little-endian number. -/
def readNat (s : State) (a n : Nat) : Nat := ofBytes (readBytes s a n)

/-- Writes bytes from an address up into a memory. -/
def pokeBytes : Map (BitVec 8) → Nat → List Byte → Map (BitVec 8)
  | m, _, [] => m
  | m, a, b :: bs => pokeBytes (mset 0 m a b) (a + 1) bs

/-- Lines that a run of bytes covers whole. -/
def wholeLine (a n l : Nat) : Bool := decide (a ≤ l) && decide (l + 64 ≤ a + n)


/-! ## The address map (R45, R230) -/

/-- Bytes of a tile store. -/
abbrev storeBytes : Nat := 0x1800000

/-- Device address of an offset in a logical tile's store (R45). -/
def tileAddr (t off : Nat) : Nat := 0x040000000000 + t * 0x2000000 + off

/-- Device address of an offset in a die's landing store (R230). -/
def landAddr (d off : Nat) : Nat := 0x040100000000 + d * 0x8000000 + off

/-- What an address names (R230). -/
inductive Place where
  | t1 (group : Nat)
  | tile (t off : Nat)
  | landing (d off : Nat)
  | sync (off : Nat)
  | control (off : Nat)
  | window (w off : Nat)
  | reserved
  | beyond
  deriving DecidableEq, Repr

/-- The address map of R230. -/
def placeOf (a : Nat) : Place :=
  if a < 0x028000000000 then .t1 (a / 2 ^ 37)
  else if a < 0x040000000000 then .reserved
  else if a < 0x040080000000 then .tile ((a - 0x040000000000) / 0x2000000) ((a - 0x040000000000) % 0x2000000)
  else if a < 0x040100000000 then .reserved
  else if a < 0x040120000000 then .landing ((a - 0x040100000000) / 0x8000000) ((a - 0x040100000000) % 0x8000000)
  else if a < 0x040200000000 then .reserved
  else if a < 0x040300000000 then .sync (a - 0x040200000000)
  else if a < 0x040400000000 then .control (a - 0x040300000000)
  else if a < 0x080000000000 then .reserved
  else if a < 0x100000000000 then .window ((a - 0x080000000000) / 2 ^ 35) ((a - 0x080000000000) % 2 ^ 35)
  else if a < 2 ^ 57 then .reserved
  else .beyond

/-- Interface that serves a GDDR7 address, 0 to 159 over the module (R232). -/
def interfaceOf (a : Nat) : Nat :=
  let o := a % 2 ^ 37
  a / 2 ^ 37 * 8 + ((o / 256) ^^^ (o / 65536)) % 8

/-- The page of a GDDR7 address (R253). -/
def pageOf (a : Nat) : Nat := a / 65536 * 65536

/-- The lines that a run of bytes touches. -/
def linesOf (a n : Nat) : List Nat :=
  if n = 0 then [] else (upFrom (a / 64) ((a + n - 1) / 64 - a / 64 + 1)).map (· * 64)

/-- The lines of a failed interface that a write of whole lines brings onto their retired pages (R249, R253). -/
def healedBy (s : State) (a n : Nat) : List Nat :=
  if s.memErr.failedIf.isEmpty then []
  else (linesOf a n).filter (fun l => wholeLine a n l && s.memErr.failedIf.contains (interfaceOf l) &&
    s.memErr.retiredPages.contains (pageOf l) && !s.memErr.healed.contains l)

/-- Bytes reach memory; a whole 64-byte write of a poisoned line replaces it (R254). -/
def pokeMemory (s : State) (a : Nat) (bs : List Byte) : State :=
  let s := putMem s (pokeBytes s.mem a bs)
  putMemErr s { s.memErr with
    poison := s.memErr.poison.filter (fun l => !wholeLine a bs.length l)
    healed := s.memErr.healed ++ healedBy s a bs.length }

/-! ## Power states of what a request reaches (R414, R417, R420, R421) -/

/-- Physical code of a logical tile, 17 * die + nn; 999 when absent (R402, R408). -/
def physOf (s : State) (t : Nat) : Nat := mget (17 * (t / 16) + t % 16) s.units.map t

/-- A logical tile has a physical tile (R408). -/
def tilePresent (s : State) (t : Nat) : Bool := physOf s t != 999 && decide (t < 64)

/-- Replaces the power record. -/
def putPower (s : State) (v : Power) : State := { s with power := v }

/-- State of a domain: 0 ACTIVE, 1 DOZE, 2 NAP, 3 SLEEP, 4 OFF. -/
def getDom (s : State) (i : Nat) : Nat := mget 0 s.power.dom i

/-- Activity reaches an ACTIVE domain: its idle spell ends, and its timers stop (R421). -/
def endSpell (s : State) (i : Nat) : State :=
  if (mfind s.power.blocked i).isSome || s.power.resting.contains i then
    putPower s { s.power with blocked := mdel s.power.blocked i, resting := s.power.resting.filter (· != i) }
  else s

/-- A wake reaches a domain: held during an entry and counted, starts an exit from DOZE, NAP or SLEEP, is held during an
exit, ends the idle spell of an ACTIVE one; an OFF domain does not change (R420, R421). -/
def wakeDomain (s : State) (i : Nat) : State :=
  if (mfind s.power.entering i).isSome then
    let s := addCtr s (0x4E00 + i) 9 1
    putPower s { s.power with woken := insertNew s.power.woken i }
  else if s.power.exiting.contains i || getDom s i = 4 then s
  else if getDom s i = 0 then endSpell s i
  else
    let s := addCtr (endSpell s i) (0x4E00 + i) 0x0A 1
    putPower s { s.power with exiting := s.power.exiting ++ [i] }

/-- Domain of a physical tile: its tile group's, or the spare's own (R414). -/
def physDom (ph : Nat) : Nat := if ph % 17 = 16 then 16 + ph / 17 else 4 * (ph / 17) + ph % 17 / 4

/-- Domain of a logical tile: that of the physical tile which serves it (R414). -/
def tileDom (s : State) (t : Nat) : Nat := if tilePresent s t then physDom (physOf s t) else t / 4

/-- A domain is in NAP or SLEEP, or committed to entering one: requests to it are held until it is ACTIVE again (R420,
R421). -/
def domDeep (s : State) (i : Nat) : Bool :=
  getDom s i == 2 || getDom s i == 3 || decide (2 ≤ mget 0 s.power.entering i)

/-- The domain is ACTIVE and has not committed to leaving that state (R420, R421). -/
def domAwake (s : State) (i : Nat) : Bool := getDom s i == 0 && (mfind s.power.entering i).isNone

/-- What reaches a domain: it acts on an ACTIVE domain; else it is held and wakes the domain (R420, R421). -/
def onceActive (s : State) (i : Nat) (f : State → State) : State :=
  if domAwake s i then f (endSpell s i) else wakeDomain s i

/-- The domain whose stores hold a line (R414). -/
def lineDom (s : State) (l : Nat) : Option Nat :=
  match placeOf l with
  | .t1 g => some (24 + g / 5)
  | .landing d _ => some (24 + d)
  | .tile t _ => some (tileDom s t)
  | _ => none

/-- Every domain is ACTIVE or OFF, and none has an idle spell whose timers have acted. -/
def domsUp (s : State) : Bool :=
  s.power.entering.isEmpty && s.power.blocked.isEmpty && s.power.resting.isEmpty && s.power.dom.all (fun e => e.2 == 4)

/-- A request to a run of bytes wakes the domains whose stores hold them (R417). -/
def wakeRun (s : State) (a n : Nat) : State :=
  if domsUp s then s else ((linesOf a n).filterMap (lineDom s)).dedup.foldl wakeDomain s

/-! ## Requests that wait for their line (R249, R251, R253, R420) -/

/-- No refill, retrain or page copy is under way, and no domain is in NAP or SLEEP or enters one. -/
def memQuiet (s : State) : Bool :=
  s.memErr.refilling.isEmpty && s.memErr.seeking.isEmpty && s.memErr.waiting.isEmpty && s.memErr.retrain.isEmpty &&
    s.memErr.copying.isEmpty && s.power.entering.all (fun e => decide (e.2 < 2)) &&
    s.power.dom.all (fun e => e.2 == 1 || e.2 == 4)

/-- A request to the line waits: its refill is sought or waits for an entry of the poison table (R251), its interface
retrains (R249), it is a write of a page that is being copied (R253), or its domain is not up (R420). -/
def lineHeld (s : State) (l : Nat) (write : Bool) : Bool :=
  (lineDom s l).any (domDeep s) || s.memErr.refilling.any (fun r => r.1 == l) || s.memErr.seeking.any (fun r => r.1 == l) || s.memErr.waiting.contains l ||
    match placeOf l with
    | .t1 _ => s.memErr.retrain.contains (interfaceOf l) || (write && s.memErr.copying.contains (pageOf l))
    | _ => false

/-- A request parks on its line, behind those that came before (R251). -/
def parkReq (s : State) (l : Nat) (req : MemReq) : State :=
  putMemErr s { s.memErr with parked := s.memErr.parked ++ [⟨l, req⟩] }

/-- An offset in a line. -/
def lineOff (a : Nat) : Fin 64 := ⟨a % 64, Nat.mod_lt a (by decide)⟩

/-- The part of a run of bytes in one line: its address and its bytes. -/
def pieceIn (a : Nat) (bs : List Byte) (l : Nat) : Nat × List Byte :=
  (max a l, (bs.drop (max a l - a)).take (l + 64 - max a l))

/-- A write of a part of a line: it parks on a line that waits. -/
def writePiece (bs : List Byte) (a : Nat) (s : State) (l : Nat) : State :=
  let x := pieceIn a bs l
  if lineHeld s l true then parkReq s l (.write (lineOff x.1) x.2) else pokeMemory s x.1 x.2

/-- Writes bytes; the bytes of a line whose requests wait park there (R249, R251, R253, R420). -/
def writeBytes (s : State) (a : Nat) (bs : List Byte) : State :=
  let s := wakeRun s a bs.length
  if memQuiet s then pokeMemory s a bs else (linesOf a bs.length).foldl (writePiece bs a) s

/-- Writes a number of `n` bytes, little-endian. -/
def writeNat (s : State) (a n v : Nat) : State := writeBytes s a (toBytes n v)

/-- Zeroes a range of memory; errors of its lines and the requests parked on them are gone. -/
def zeroRange (s : State) (lo hi : Nat) : State :=
  let s := putMem s (mdrop (fun k => decide (lo ≤ k) && decide (k < hi)) s.mem)
  let out := fun (l : Nat) => !(decide (lo ≤ l) && decide (l < hi))
  putMemErr s { s.memErr with
    poison := s.memErr.poison.filter out, waiting := s.memErr.waiting.filter out
    seeking := s.memErr.seeking.filter (fun r => out r.1), delivered := s.memErr.delivered.filter out
    parked := s.memErr.parked.filter (fun r => out r.line), refilling := s.memErr.refilling.filter (fun r => out r.1) }

/-- Writes bytes that the spec leaves undefined: each a free value (log 2, DESIGN CHOICE). -/
def freeFill (s : State) (a n : Nat) : State :=
  let k := s.free
  writeBytes { s with free := k + 1 } a ((upFrom a n).map (Config.freeByte k))

/-- The positions of rows in a directory of n entries with linear probing, in the order of their insertion. -/
def dirPlaces (n : Nat) (rows : List Nat) : List (Nat × Nat) :=
  rows.foldl (fun l r =>
    match (upFrom 0 n).find? (fun k => !l.any (fun x => x.2 == (Config.dirHash r n + k) % n)) with
    | some k => l ++ [(r, (Config.dirHash r n + k) % n)]
    | none => l) []

/-- Marks a line poisoned. -/
def markPoison (s : State) (l : Nat) : State :=
  putMemErr s { s.memErr with poison := insertNew s.memErr.poison l }

/-! ## Unreadable lines (R249, R251) -/

/-- The line is uncorrectable: it is poisoned, or its interface failed its retrain and no spare page holds it (R249,
R251). -/
def lineBad (s : State) (l : Nat) : Bool :=
  s.memErr.poison.contains l ||
    match placeOf l with
    | .t1 _ => s.memErr.failedIf.contains (interfaceOf l) && !s.memErr.healed.contains l
    | _ => false

/-- A read of the line meets an uncorrectable error: of a line that was delivered poisoned a reader has what was
delivered, until its partition's replay begins (R254). -/
def lineMeets (s : State) (l : Nat) : Bool := lineBad s l && !s.memErr.delivered.contains l

/-- A line of the range cannot be read. -/
def anyPoison (s : State) (a n : Nat) : Bool :=
  !(s.memErr.poison.isEmpty && s.memErr.failedIf.isEmpty) && (linesOf a n).any (lineBad s)

/-! ## Units, tags and partitions (R13, R283, R400, R408) -/

/-- Unit number of a unit of a kind (R283, R490): tiles, cores, samplers, Retriever engines, Update engines, merge
units. -/
def unitNo (kind idx : Nat) : Nat :=
  match kind with
  | 0 => idx | 1 => 64 + idx | 2 => 160 + idx | 3 => 192 + idx | 4 => 256 + idx | _ => 260 + idx

/-- Current tag of a unit (R400); 1 at delivery (log 12, DESIGN CHOICE). -/
def tagOf (s : State) (u : Nat) : Nat := mget 1 s.units.tags u

/-- Unit identity of R283. -/
def unitId (tag kind eng idx : Nat) : Nat := tag * 65536 + kind * 4096 + eng * 1024 + idx % 1024

/-- Engine number in the bit order of R303. -/
def engNo : Engine → Nat
  | .fetch => 0 | .matrix => 1 | .vector => 2 | .store => 3

/-- Engine of a number. -/
def engOf : Nat → Engine
  | 0 => .fetch | 1 => .matrix | 2 => .vector | _ => .store

/-- Stream code of R303. -/
def streamNo : Stream → Nat
  | .f => 0 | .b => 1 | .u => 2

/-- Stream of a code; 0b11 is reserved. -/
def streamOf : Nat → Option Stream
  | 0 => some .f | 1 => some .b | 2 => some .u
  | _ => none

/-- The streams. -/
def streams : List Stream := [.f, .b, .u]

/-- The engines. -/
def engines : List Engine := [.fetch, .matrix, .vector, .store]

/-- Identity of a tile engine. -/
def tileUnit (s : State) (t : Nat) (e : Engine) : Nat := unitId (tagOf s t) 0 (engNo e) t

/-- A partition holds resources. -/
def isFormed (p : Part) : Bool := p.state != .unformed

/-- Code of a partition state (R409). -/
def partStateNo : PartState → Nat
  | .unformed => 0 | .forming => 1 | .stopped => 2 | .running => 3 | .restarting => 4 | .preempted => 5 | .held => 6

/-- The partition that holds a tile group. -/
def partOfGroup (s : State) (g : Nat) : Option Nat :=
  (upFrom 0 16).find? (fun p => isFormed (getPart s p) && bitSet (getPart s p).groups g)

/-- The partition of a logical tile (R388). -/
def partOfTile (s : State) (t : Nat) : Option Nat := partOfGroup s (t / 4)

/-- The partition that holds an interface group (R233). -/
def partOfMemGroup (s : State) (g : Nat) : Option Nat :=
  (upFrom 0 16).find? (fun p => isFormed (getPart s p) && bitSet (getPart s p).memGroups g)

/-- The partition of a work core (R287). -/
def partOfCore (s : State) (c : Nat) : Option Nat :=
  (upFrom 0 16).find? (fun p => isFormed (getPart s p) && (getPart s p).cores.contains c)

/-- The logical tiles of a partition. -/
def tilesOf (p : Part) : List Nat := (upFrom 0 64).filter (fun t => bitSet p.groups (t / 4))

/-- The memory dies that hold a partition's interface groups. -/
def memDiesOf (p : Part) : List Nat :=
  (upFrom 0 4).filter (fun d => (upFrom (5 * d) 5).any (fun g => bitSet p.memGroups g))

/-- A landing-store offset lies in the partition's share (R233, R388). -/
def inShare (p : Part) (off : Nat) : Bool :=
  decide (p.landFirst ≤ off / 65536) && decide (off / 65536 < p.landFirst + p.landCount)

/-- The counter belongs to the partition (R260). -/
def ownsCounter (s : State) (p n : Nat) : Bool :=
  let c := getCounter s n
  decide (n < 16384) && c.state == 1 && c.owner == p

/-- A counter number that a structure may name: a counter, or 0xFFFFFFFF where none (R259). -/
def counterOk (n : Nat) : Bool := decide (n < 16384) || n == 0xFFFFFFFF

/-- The partition may watch the counter: its own, or one whose owner shares (R279). -/
def mayWatch (s : State) (p n : Nat) : Bool :=
  let c := getCounter s n
  decide (n < 16384) && c.state != 0 &&
    (c.owner == p || bitSet (settingAt s (1 + c.owner) 0x3504 (c.owner + 1)) p)

/-! ## Window entries (R239, R240) -/

/-- The entry of a window. -/
def windowOf (s : State) (w : Nat) : Nat := (mget 0 s.lft.windows w : BitVec 512).toNat

/-- The window is OPEN and owned by the partition (R240). -/
def windowOpen (s : State) (p w : Nat) : Bool :=
  bits (windowOf s w) 5 4 == 1 && bits (windowOf s w) 9 6 == p && decide (w < 256)

/-! ## Access checks of an instruction (R231, R233, R240, R262, R306, R332, R334, R408) -/

/-- The detail of the address fault that an access to the byte at `a` by the partition meets; none when allowed. -/
def accessDetail (s : State) (p a : Nat) (write : Bool) : Option Nat :=
  match placeOf a with
  | .t1 g => if bitSet (getPart s p).memGroups g then none else some 2
  | .tile t off =>
    if off ≥ storeBytes || !tilePresent s t then some 0
    else if bitSet (getPart s p).groups (t / 4) then none else some 2
  | .landing _ off => if inShare (getPart s p) off then none else some 2
  | .sync _ => some 5
  | .control _ => some 5
  | .window w _ =>
    if write || bits (windowOf s w) 5 4 ≠ 1 then some 3 else if bits (windowOf s w) 9 6 = p then none else some 2
  | .reserved => some 1
  | .beyond => some 0

/-- An address in GDDR7 that the partition holds. -/
def inGroups (s : State) (p a : Nat) : Bool :=
  match placeOf a with
  | .t1 _ => (accessDetail s p a false).isNone
  | _ => false

/-- A run of bytes lies in storage that the partition holds: each of its bytes is in its groups, tiles or share (R233). No
byte between two 64 KiB boundaries differs from them in that. -/
def runOk (s : State) (p a n : Nat) : Bool :=
  let held := fun (b : Nat) => match placeOf b with
    | .window _ _ => false
    | _ => (accessDetail s p b false).isNone
  n == 0 || (held a && held (a + n - 1) &&
    (upFrom (a / 65536 + 1) ((a + n - 1) / 65536 - a / 65536)).all (fun k => held (65536 * k)))

/-- The first address of a run of bytes that the partition may not read, with the detail of the fault: its ends and the
64 KiB boundaries between them tell (R231, R233, R240). -/
def readFault (s : State) (p a n : Nat) : Option (Nat × Nat) :=
  if n = 0 then none
  else (a :: ((upFrom (a / 65536 + 1) ((a + n - 1) / 65536 - a / 65536)).map (65536 * ·)) ++ [a + n - 1]).findSome?
    (fun b => (accessDetail s p b false).map (fun d => (b, d)))

/-- A run of bytes lies in GDDR7 that the partition holds. -/
def t1Run (s : State) (p a n : Nat) : Bool :=
  n == 0 || (decide (a + n ≤ 0x028000000000) &&
    (upFrom (a / 2 ^ 37) ((a + n - 1) / 2 ^ 37 - a / 2 ^ 37 + 1)).all (bitSet (getPart s p).memGroups))

/-- The first faulting line of a run of whole lines, with its detail. -/
def accessLines (s : State) (p a lines : Nat) (write : Bool) : Option (Nat × Nat) :=
  (upFrom 0 lines).findSome? (fun i => (accessDetail s p (a + 64 * i) write).map (fun d => (a + 64 * i, d)))

/-- An area of a tile's own store: inside the 24 MiB and aligned; otherwise the detail of the fault (R332, R334). -/
def ownArea (off len align : Nat) : Option Nat :=
  if off + len > storeBytes then some 0 else if off % align ≠ 0 then some 4 else none

/-! ## Tracing (R490 to R492) -/

/-- A trace record of an enabled source and a kept partition is written to an armed ring (R490, R492). -/
def traceRecord (s : State) (source unit part payload : Nat) : State :=
  if s.trace.state = 0 || !bitSet (setting s 0x8000 1) source ||
      (part < 16 && !bitSet (setting s 0x8000 2) part) then s
  else
    let slots := setting s 0x8000 4 / 32
    let a := setting s 0x8000 3 + 32 * (s.trace.records % max 1 slots)
    let w := payload % 2 ^ 128 + part * 2 ^ 128 + source * 2 ^ 140 + unit * 2 ^ 144 + s.time.ns * 2 ^ 176 +
      s.time.s * 2 ^ 208
    let s := writeNat s a 32 w
    putTrace s { s.trace with
      records := s.trace.records + 1, state := if slots ≤ s.trace.records + 1 then 2 else s.trace.state }

/-! ## Changes of power state (R421, R492) -/

/-- Sets a domain's state, with its trace record (R492). -/
def setDom (s : State) (i st : Nat) : State :=
  let raced := if s.power.woken.contains i then 1 else 0
  let s := traceRecord s 3 0 0xFF (i + getDom s i * 2 ^ 8 + st * 2 ^ 12 + raced * 2 ^ 16)
  putPower s { s.power with dom := mset 0 s.power.dom i st }

/-- Puts a domain into a state at once, ending any entry or exit under way. -/
def forceDom (s : State) (i st : Nat) : State :=
  let s := setDom s i st
  putPower s { s.power with
    entering := mdel s.power.entering i, exiting := s.power.exiting.filter (· != i)
    woken := s.power.woken.filter (· != i), blocked := mdel s.power.blocked i }

/-! ## Restart causes (R392 to R394) -/

/-- A cause arises for a partition: it waits for PARTITION_RESTART in RUNNING, RESTARTING and PREEMPTED; in other
states it is counted and raised, and nothing else follows (R394). A cause above 0xFFFF holds the partition. -/
def addCause (s : State) (p code : Nat) : State :=
  let q := getPart s p
  match q.state with
  | .running | .restarting | .preempted => putPart s p { q with causes := q.causes ++ [code] }
  | _ => s

/-- A cause that holds the partition (R392). -/
def addHold (s : State) (p code : Nat) : State := addCause s p (0x10000 + code)

end Sys2Proof.Machine
end

