-- ==== Sys2Proof/Machine/Tile.lean ====
section
/-! DEFINITION. Machine/Tile.lean: what the tile sequencer and every engine share: instruction fields, decode checks,
dispatch, tokens, run-ahead, readiness, instruction faults, completion (02 R31 to R44, 14 R303 to R310, R329 to
R334). -/

namespace Sys2Proof.Machine

/-- Two runs of bytes, by start and length, overlap. -/
def runsMeet (a b : Nat × Nat) : Bool := decide (a.1 < b.1 + b.2) && decide (b.1 < a.1 + a.2)

/-! ## Instruction fields (R303) -/

/-- Field `[hi:lo]` of an instruction word. -/
def fld (w : BitVec 128) (hi lo : Nat) : Nat := bits w.toNat hi lo

/-- The word of a class and its other 122 bits. -/
def classWord (cls : Nat) (w : BitVec 122) : BitVec 128 := BitVec.ofNat 128 (cls * 2 ^ 122 + w.toNat)

/-- `class`. -/
def wClass (w : BitVec 128) : Nat := fld w 127 122
/-- `wait_mask`. -/
def wWait (w : BitVec 128) : Nat := fld w 115 112
/-- `post_mask`. -/
def wPost (w : BitVec 128) : Nat := fld w 111 108
/-- `eot`. -/
def wEot (w : BitVec 128) : Bool := fld w 107 107 == 1
/-- `form`. -/
def wForm (w : BitVec 128) : Nat := fld w 106 104
/-- `desc` as a byte offset in the tile's own store. -/
def wDesc (w : BitVec 128) : Nat := fld w 103 85 * 64

/-- An accumulating instruction (R57). -/
def isAccum (w : BitVec 128) : Bool := [0x08, 0x09, 0x0A].contains (wClass w)

/-- A sparse product (R315). -/
def isSparse (w : BitVec 128) : Bool := isAccum w && wForm w % 2 == 1

/-- First and last engine of an instruction (R33, R305); none for the control class and reserved classes. -/
def enginesOf (w : BitVec 128) : Option (Engine × Engine) :=
  match wClass w with
  | 0x08 | 0x09 | 0x0A => some (.fetch, .matrix)
  | 0x0B => some (.matrix, .store)
  | 0x10 | 0x11 | 0x13 => some (.fetch, .fetch)
  | 0x12 | 0x14 | 0x15 | 0x16 => some (.store, .store)
  | 0x18 | 0x19 | 0x1A | 0x1B => some (.vector, .vector)
  | 0x20 | 0x21 | 0x22 => some (engOf (fld w 103 102), engOf (fld w 103 102))
  | _ => none

/-- The first engine, Fetch where there is none. -/
def firstEng (w : BitVec 128) : Engine := ((enginesOf w).map Prod.fst).getD .fetch
/-- The last engine, Fetch where there is none. -/
def lastEng (w : BitVec 128) : Engine := ((enginesOf w).map Prod.snd).getD .fetch
/-- The instruction has a part on the engine. -/
def usesEng (w : BitVec 128) (e : Engine) : Bool :=
  match enginesOf w with
  | some (a, b) => a == e || b == e
  | none => false

/-- The two instructions share an engine. -/
def shareEng (v w : BitVec 128) : Bool := engines.any (fun e => usesEng v e && usesEng w e)

/-! ## Decode checks (R304, R305, R318, R320, R328, R332) -/

/-- Forms that a class lists (R305). -/
def formOk (w : BitVec 128) : Bool :=
  match wClass w with
  | 0x08 | 0x09 | 0x0A => wForm w ≤ 1
  | 0x10 | 0x12 | 0x22 => wForm w ≤ 1
  | 0x11 => wForm w == 1
  | 0x19 => wForm w ≤ 2
  | _ => wForm w == 0

/-- Classes that R305 defines. -/
def classOk (c : Nat) : Bool :=
  [0, 1, 2, 3, 0x08, 0x09, 0x0A, 0x0B, 0x10, 0x11, 0x12, 0x13, 0x14, 0x15, 0x16, 0x18, 0x19, 0x1A, 0x1B, 0x20, 0x21,
    0x22].contains c

/-- The operand fields break no reserved bit or reserved value (R309, R311, R317 to R323, R327, R328). -/
def operandsOk (w : BitVec 128) : Bool :=
  match wClass w with
  | 0x02 => fld w 46 0 == 0
  | 0x08 => fld w 83 82 == 0 && fld w 55 0 == 0 && (wForm w == 1 || fld w 81 56 == 0)
  | 0x09 => fld w 55 0 == 0 && (if wForm w == 1 then fld w 83 82 == 0 else fld w 81 56 == 0)
  | 0x0A => fld w 31 0 == 0 && (fld w 84 84 == 1 || fld w 67 56 == 0) &&
      (if wForm w == 1 then fld w 80 68 == 0 && (fld w 84 84 == 0 || fld w 83 83 == 1) else fld w 55 32 == 0)
  | 0x0B | 0x11 | 0x13 | 0x14 | 0x19 | 0x1A | 0x1B => fld w 84 0 == 0
  | 0x10 => if wForm w == 0 then fld w 8 0 == 0 && decide (1 ≤ fld w 27 9) && decide (fld w 27 9 ≤ 393216)
            else fld w 84 0 == 0
  | 0x12 => if wForm w == 0 then
              fld w 5 0 == 0 && decide (1 ≤ fld w 27 9) && decide (fld w 27 9 ≤ 393216) && decide (fld w 8 6 ≤ 5)
            else fld w 84 0 == 0
  | 0x15 | 0x16 => fld w 46 0 == 0
  | 0x18 => fld w 20 0 == 0
  | 0x20 => fld w 75 64 == 0 && (fld w 100 100 == 1 || fld w 99 90 == 0) &&
      (fld w 101 101 == 1 || (decide (1 ≤ fld w 63 0) && decide (fld w 63 0 ≤ 65535)))
  | 0x21 => fld w 67 64 == 0 && fld w 98 98 == 0
  | 0x22 => fld w 67 64 == 0 &&
      (wForm w == 1 || (fld w 99 99 == 0 && fld w 97 84 == 0 && fld w 83 68 == 0 && fld w 63 0 == 0))
  | _ => fld w 103 0 == 0

/-- The masks name neither the first nor the last engine; the control class has none (R304). -/
def masksOk (w : BitVec 128) : Bool :=
  match enginesOf w with
  | some (a, b) => !bitSet (wWait w) (engNo a) && !bitSet (wPost w) (engNo b)
  | none => wWait w == 0 && wPost w == 0

/-- The word breaks no encoding rule (fault code 1). -/
def encodingOk (w : BitVec 128) : Bool :=
  classOk (wClass w) && formOk w && fld w 119 116 == 1 && fld w 121 120 != 3 && masksOk w &&
    (!wEot w || isAccum w) && operandsOk w

/-- The word may stand in this stream (fault code 2). -/
def streamOk (x : Stream) (w : BitVec 128) : Bool :=
  fld w 121 120 == streamNo x &&
    (x == .b || !([0x0A, 0x1A, 0x1B].contains (wClass w) || (wClass w == 0x19 && wForm w == 0)))

/-- The word carries a line offset in bits [103:85]. -/
def hasDesc (w : BitVec 128) : Bool :=
  match wClass w with
  | 0x10 => wForm w == 1
  | 0x08 | 0x09 | 0x0A | 0x0B | 0x11 | 0x12 | 0x13 | 0x14 | 0x18 | 0x19 | 0x1A | 0x1B => true
  | _ => false

/-- A step-relative target (R328). -/
def isRel (w : BitVec 128) : Bool := (wClass w == 0x21 || wClass w == 0x22) && fld w 99 99 == 1

/-- An instruction fault: code, detail and address (R332, R334). -/
structure IFault where
  kind : Nat
  detail : Nat
  addr : Nat
  deriving DecidableEq, Repr

/-- The decode fault of a word, lowest code first: encoding, stream, sequence (a step-relative target before STEP),
address (a line offset out of range, a misaligned JUMP target) (R332). -/
def decodeFault (t : Nat) (x : Stream) (marked : Bool) (w : BitVec 128) : Option IFault :=
  if !encodingOk w then some ⟨1, 0, 0⟩
  else if !streamOk x w then some ⟨2, 0, 0⟩
  else if isRel w && !marked then some ⟨5, 0, 0⟩
  else if hasDesc w && wDesc w ≥ storeBytes then some ⟨6, 0, tileAddr t (wDesc w)⟩
  else if wClass w == 0x10 && wForm w == 0 && fld w 46 28 ≥ 393216 then some ⟨6, 0, tileAddr t (fld w 46 28 * 64)⟩
  else if wClass w == 0x02 && fld w 103 47 % 16 != 0 then some ⟨6, 4, fld w 103 47⟩
  else none

/-! ## Stream control blocks -/

/-- The control block of a stream. -/
def getCtl (v : Tile) : Stream → StreamCtl
  | .f => v.sf | .b => v.sb | .u => v.su

/-- A tile with a control block replaced. -/
def putCtl (v : Tile) (x : Stream) (c : StreamCtl) : Tile :=
  match x with
  | .f => { v with sf := c }
  | .b => { v with sb := c }
  | .u => { v with su := c }

/-- Number of a stream of a tile in lists of stopped streams. -/
def streamKey (t : Nat) (x : Stream) : Nat := t * 4 + streamNo x

/-! ## Instruction faults (R333, R334) -/

/-- The recurrence of a cause in the replay of the same step (R333, R254, R147). -/
def recurs (q : Part) (cause a b : Nat) : Bool :=
  q.replay && q.recur.any (fun r => r.cause == cause && r.step == q.step && r.a == a && r.b == b)

/-- A cause of restart that holds the partition when it recurs in the replay. -/
def causeOrHold (s : State) (p code cause a b : Nat) : State :=
  let q := getPart s p
  if recurs q cause a b then addHold s p code
  else addCause (putPart s p { q with recur := q.recur ++ [⟨cause, q.step, a, b⟩] }) p code

/-- A fault stops the tile in all three streams, faults the stream, writes the record of the first fault, raises
tile.fault and asks for the partition's restart (R333, R334); `eng` 4 for the sequencer. -/
def tileFault (s : State) (t : Nat) (x : Stream) (eng pc seq : Nat) (f : IFault) : State :=
  let v := getTile s t
  let rec0 : FaultRec :=
    { valid := true, kind := f.kind, stream := streamNo x, engine := eng, address := f.addr, detail := f.detail
      seq := seq, timeS := s.time.s, timeNs := s.time.ns, pc := pc }
  let v := putCtl v x { getCtl v x with state := .faulted }
  let v := { v with stopped := true, fault := if v.fault.valid then v.fault else rec0 }
  let s := putTile s t v
  let p := partOfTile s t
  let s := raise s 0x0A01 (p.getD 0xFF) (unitId (tagOf s t) 0 (if eng < 4 then eng else 0) t)
    [streamNo x, f.kind, seq, eng]
  match p with
  | some p => causeOrHold s p 0x0A01 0 f.kind pc
  | none => s

/-- A tile can act: its slot has a physical tile whose domain is not in NAP or SLEEP (R401, R402, R420). -/
def tileUp (s : State) (t : Nat) : Bool := tilePresent s t && !domDeep s (tileDom s t)

/-- The partition of a tile that can act lets its engines go on; a dead tile acts no more (R401). -/
def tileGoes (s : State) (t : Nat) : Bool :=
  tileUp s t &&
  match partOfTile s t with
  | some p => ((getPart s p).state == .running || (getPart s p).state == .preempted) && !(getTile s t).stopped
  | none => false

/-! ## Tokens (R36, R39) -/

/-- Key of the token queue of a stream from one engine to another. -/
def tokKey (x : Stream) (a b : Nat) : Nat := streamNo x * 16 + a * 4 + b

/-- All tokens of a mask are present at the engine. -/
def tokensReady (v : Tile) (x : Stream) (mask : Nat) (e : Engine) : Bool :=
  (upFrom 0 4).all (fun a => !bitSet mask a || decide (1 ≤ mget 0 v.tokens (tokKey x a (engNo e))))

/-- Takes one token from each queue of a mask. -/
def takeTokens (v : Tile) (x : Stream) (mask : Nat) (e : Engine) : Tile :=
  { v with tokens := (upFrom 0 4).foldl (fun m a =>
      if bitSet mask a then mset 0 m (tokKey x a (engNo e)) (mget 0 m (tokKey x a (engNo e)) - 1) else m) v.tokens }

/-- Places the tokens of a mask whose queues have room; the mask of those left (R39). -/
def placeTokens (v : Tile) (x : Stream) (mask : Nat) (e : Engine) : Tile × Nat :=
  (upFrom 0 4).foldl (fun r b =>
    if bitSet mask b then
      let k := tokKey x (engNo e) b
      if mget 0 r.1.tokens k < 32 then ({ r.1 with tokens := mset 0 r.1.tokens k (mget 0 r.1.tokens k + 1) }, r.2)
      else (r.1, r.2 + 2 ^ b)
    else r) (v, 0)

/-! ## Completion (R39, R309) -/

/-- Every dispatched instruction of the stream has completed. -/
def streamQuiet (v : Tile) (x : Stream) : Bool :=
  v.waiting.all (fun q => q.x != x) && v.inflight.all (fun i => i.q.x != x)

/-- A stream past its END becomes HALTED once its instructions have completed (R309). -/
def settleHalt (v : Tile) : Tile :=
  streams.foldl (fun v x =>
    let c := getCtl v x
    if c.state == .running && c.ended && streamQuiet v x then putCtl v x { c with state := .halted } else v) v

/-- An instruction completes: its posts are placed, or wait for room (R39). -/
def completeInstr (v : Tile) (q : QInstr) : Tile :=
  let r := placeTokens v q.x (wPost q.w) (lastEng q.w)
  if r.2 = 0 then settleHalt r.1
  else { r.1 with inflight := r.1.inflight ++ [⟨q, lastEng q.w, .post r.2, [], 0⟩] }

/-- Completes an instruction of a tile in the state. -/
def completeAt (s : State) (t : Nat) (q : QInstr) : State := putTile s t (completeInstr (getTile s t) q)

/-- Places posts that waited for room, as far as there is any. -/
def retryPosts (v : Tile) : Tile :=
  let base : Tile := { v with inflight := [] }
  let r := v.inflight.foldl (fun (acc : Tile × List Inflight) i =>
    match i.why with
    | .post m =>
      let p := placeTokens acc.1 i.q.x m i.eng
      if p.2 = 0 then (p.1, acc.2) else (p.1, acc.2 ++ [{ i with why := .post p.2 }])
    | _ => (acc.1, acc.2 ++ [i])) (base, [])
  settleHalt { r.1 with inflight := r.2 }

/-! ## Run-ahead and readiness (R34, R35, R38, R40) -/

/-- Sequence numbers of a stream are 32 bits and wrap: `a` was assigned before `b` (R32). -/
def seqBefore (a b : Nat) : Bool := a != b && decide ((b + 2 ^ 32 - a) % 2 ^ 32 < 2 ^ 31)

/-- The sequence number `m` of R38 for a stream. -/
def oldestMatrix (v : Tile) (x : Stream) : Nat :=
  let l := (v.waiting.filter (fun q => q.x == x && usesEng q.w .matrix)).map QInstr.seq ++
    ((v.inflight.filter (fun i => i.q.x == x && usesEng i.q.w .matrix &&
      (match i.why with | .post _ => false | _ => true))).map (fun i => i.q.seq))
  match l with
  | [] => (getCtl v x).nextSeq
  | a :: r => r.foldl (fun m b => if seqBefore b m then b else m) a

/-- The run-ahead limit allows the start (R38). -/
def runAheadOk (v : Tile) (q : QInstr) : Bool :=
  match firstEng q.w with
  | .fetch | .store => !seqBefore ((oldestMatrix v q.x + 32) % 2 ^ 32) q.seq
  | _ => true

/-- A started instruction keeps later instructions of its stream off an engine: a WAIT, waiting posts, a part of its own
that has not started there (R33, R39, R44, R82, R94). -/
def holdsPart (i : Inflight) (e : Engine) : Bool :=
  match i.why with
  | .watch _ | .post _ | .cover | .slot _ | .enqueue => e == i.eng
  | .acks _ => wClass i.q.w == 0x20 && e == i.eng
  | .tie => e == .vector
  | .panel | .matrix => usesEng i.q.w e
  | .side => e == .matrix || e == .store
  | .operands _ _ _ _ _ => e == .matrix
  | .store _ _ => e == .store
  | _ => false

/-- A started instruction keeps every stream's instructions off an engine: the hand-over wait keeps Matrix from all but
what a DRAIN does before its drain, a vector program keeps Vector (R35, R76, R82). -/
def holdsAll (i : Inflight) (e : Engine) (w : BitVec 128) : Bool :=
  match i.why with
  | .handOver _ => e == .matrix && wClass w != 0x0B
  | .vexec => e == .vector
  | _ => false

/-- A started accumulating instruction whose operands stand in the operand queues. -/
def isQueued (i : Inflight) : Bool :=
  match i.why with
  | .operands _ _ _ _ _ => true
  | _ => false

/-- An instruction that waits for the hand-over (R76). -/
def isHandOver (i : Inflight) : Bool :=
  match i.why with
  | .handOver _ => true
  | _ => false

/-- Depth of operand queues A and B, in entries of 512 bytes (R36). -/
abbrev operandDepth : Nat := 64

/-- Entries that operand queues A and B hold (R36). -/
def operandLoad (v : Tile) : Nat × Nat :=
  v.inflight.foldl (fun r i => match i.why with | .operands a b _ _ _ => (r.1 + a, r.2 + b) | _ => r) (0, 0)

/-- Fetch still streams the operands of a started instruction (R35, R36). -/
def fetchStreams (v : Tile) : Bool :=
  v.inflight.any (fun i => match i.why with | .operands a b m n _ => decide (a < m) || decide (b < n) | _ => false)

/-- The operand queues, A and B, that a product's operands pass (R92, R96, R219). -/
def feeds (w : BitVec 128) : Bool × Bool :=
  if wClass w == 0x0A && fld w 84 84 == 1 then (!isSparse w, false)
  else (wClass w != 0x0A && !isSparse w, true)

/-- The output queues of Fetch have credit for the instruction (R34, R36). -/
def hasCredit (v : Tile) (w : BitVec 128) : Bool :=
  !isAccum w || ((!(feeds w).1 || decide ((operandLoad v).1 < operandDepth)) &&
    (!(feeds w).2 || decide ((operandLoad v).2 < operandDepth)))

/-- Fetch can take the instruction: it streams nothing, and has credit for it (R34 to R36). -/
def fetchFree (v : Tile) (w : BitVec 128) : Bool := !fetchStreams v && hasCredit v w

/-- The stream whose output tile is open behind everything in the operand queues: that of the last queued instruction
without the end-of-tile flag, else that of an active set that is not yet at its hand-over (R35). -/
def openStream (v : Tile) : Option Stream :=
  match (v.inflight.filter isQueued).getLast? with
  | some i => if wEot i.q.w then none else some i.q.x
  | none => if v.active.state == .accumulating && !v.inflight.any isHandOver then some v.active.owner else none

/-- Another stream's output tile keeps the instruction off its first engine: Matrix holds the tile, or the tile is open
behind the operand queues and Fetch does not put another stream's operands between (R35; log 65, DEDUCED); a skipped instruction
uses neither (R109), and a DRAIN's side operand may load (R82). -/
def matrixTaken (v : Tile) (q : QInstr) : Bool :=
  !q.skip &&
    (if isAccum q.w then (match openStream v with | some x => x != q.x | none => false)
     else usesEng q.w .matrix && wClass q.w != 0x0B && v.active.state == .accumulating && v.active.owner != q.x)

/-- The part of an instruction at engine `e` is the next of its stream there and the engine may start it (R33 to R36). -/
def partClear (v : Tile) (q : QInstr) (e : Engine) : Bool :=
  v.waiting.all (fun p => !(p.x == q.x && seqBefore p.seq q.seq && usesEng p.w e)) &&
    v.inflight.all (fun i => !(i.q.x == q.x && seqBefore i.q.seq q.seq && holdsPart i e)) &&
    (q.skip || (v.inflight.all (fun i => !holdsAll i e q.w) && (e != .fetch || fetchFree v q.w)))

/-- The Matrix part of an accumulating instruction may start: it is next, its operands are first in the operand queues,
`pre` being the started instructions before it, and Matrix holds no other stream's tile (R33, R35, R37). -/
def matrixClear (v : Tile) (q : QInstr) (pre : List Inflight) : Bool :=
  partClear v q .matrix && !pre.any isQueued && !(v.active.state == .accumulating && v.active.owner != q.x)

/-- Tokens, run-ahead and engines allow the start (R34). -/
def startable (v : Tile) (q : QInstr) : Bool :=
  partClear v q (firstEng q.w) && tokensReady v q.x (wWait q.w) (firstEng q.w) && runAheadOk v q &&
    !matrixTaken v q

/-! ## Dispatch (R31, R32, R306 to R309) -/

/-- Depth of an engine's instruction queue (R36). -/
def queueDepth : Engine → Nat
  | .fetch => 64 | .matrix => 32 | .vector => 32 | .store => 64

/-- The second part of a started instruction is still in an engine's instruction queue (R32, R33). -/
def partQueued (i : Inflight) (e : Engine) : Bool :=
  match i.why with
  | .panel | .matrix | .side => lastEng i.q.w == e && lastEng i.q.w != firstEng i.q.w
  | .operands _ _ _ _ _ => e == .matrix
  | .store _ _ => e == .store
  | _ => false

/-- A queue of the instruction is full (R32). -/
def queueFull (v : Tile) (x : Stream) (w : BitVec 128) : Bool :=
  engines.any (fun e => usesEng w e &&
    decide (queueDepth e ≤ (v.waiting.filter (fun q => q.x == x && usesEng q.w e)).length +
      (v.inflight.filter (fun i => i.q.x == x && partQueued i e)).length))

/-! ## The instruction buffer (R31, R308) -/

/-- The detail of the address fault of a fetch from `a`, none when the word may lie there: T1 within the partition's
groups or the tile's own store (R308); a program is 16-byte aligned (R306). -/
def fetchDetail (s : State) (p t a : Nat) : Option Nat :=
  if a % 16 ≠ 0 then some 4
  else match placeOf a with
  | .t1 g => if bitSet (getPart s p).memGroups g then none else some 2
  | .tile n off => if n = t && off < storeBytes then none else (accessDetail s p a false).orElse fun _ => some 2
  | _ => (accessDetail s p a false).orElse fun _ => some 2

/-- Instructions that a stream's buffer holds (R31). -/
abbrev bufferDepth : Nat := 256

/-- The address that a stream's fill reads next: behind the last word held, or the pc. -/
def fillAt (c : StreamCtl) : Nat := match c.buf.getLast? with | some b => b.1 + 16 | none => c.pc

/-- The fill of a stream goes on: not with a full buffer, nor at an address that a program may not use (R31, R308). -/
def fillGoes (s : State) (p t : Nat) (c : StreamCtl) : Bool :=
  c.state == .running && !c.ended && decide (c.buf.length < bufferDepth) && (fetchDetail s p t (fillAt c)).isNone

/-- One word more in a stream's instruction buffer (R31, R308). -/
def fillWord (s : State) (p t : Nat) (c : StreamCtl) : StreamCtl :=
  if fillGoes s p t c then
    { c with buf := c.buf ++ [(fillAt c, BitVec.ofNat 128 (readNat s (fillAt c) 16))] }
  else c

/-- The fill of one cycle, a line of four words (R308). -/
def fillBuffer (s : State) (p t : Nat) (c : StreamCtl) : StreamCtl :=
  fillWord s p t (fillWord s p t (fillWord s p t (fillWord s p t c)))

/-- The resolved target of a WATCH or WAIT (R330). -/
def resolveTarget (c : StreamCtl) (w : BitVec 128) : Nat :=
  if isRel w then (fld w 63 16 + fld w 15 0 * (c.step - c.firstStep)) % 2 ^ 64 else fld w 63 0

/-- The stream may dispatch: tile able to act and not stopped, stream RUNNING before its END, partition RUNNING (R31,
R307, R333, R390). -/
def mayDispatch (s : State) (t : Nat) (x : Stream) : Bool :=
  let v := getTile s t
  let c := getCtl v x
  tileUp s t && !v.stopped && c.state == .running && !c.ended &&
    (match partOfTile s t with
     | some p => (getPart s p).state == .running
     | none => false)

/-- STEP's number (R309): the first after a start marks first_step, each later one the previous step + 1. -/
def nextMark (c : StreamCtl) : Nat := if c.marked then c.step + 1 else c.firstStep

/-- A pre-empted stream stops before its mark (R406). -/
def stopsAtStep (q : Part) (c : StreamCtl) : Bool := q.preemptAsked && decide (q.preemptStep + 1 ≤ nextMark c)

/-- The control class at dispatch (R309). -/
def dispatchControl (s : State) (p t : Nat) (x : Stream) (w : BitVec 128) : State :=
  let v := getTile s t
  let c := getCtl v x
  let c1 := { c with pc := c.pc + 16, nextSeq := (c.nextSeq + 1) % 2 ^ 32, buf := c.buf.drop 1 }
  match wClass w with
  | 0x01 =>
    if stopsAtStep (getPart s p) c then
      putPart s p { getPart s p with stepStopped := insertNew (getPart s p).stepStopped (streamKey t x) }
    else
      putTile s t (putCtl v x { c1 with step := nextMark c, mark0 := c.mark1, mark1 := c.pc, marked := true })
  | 0x02 => putTile s t (putCtl v x { c1 with pc := fld w 103 47, buf := [] })
  | 0x03 => putTile s t (settleHalt (putCtl v x { c1 with ended := true }))
  | _ => putTile s t (putCtl v x c1)

/-- A BWD2 DW whose group the snapshot marks frozen, or the DRAIN after one (R109). -/
def isSkipped (q : Part) (c : StreamCtl) (w : BitVec 128) : Bool :=
  (wClass w == 0x0A && fld w 84 84 == 1 && q.frozen.contains (fld w 67 56)) || (wClass w == 0x0B && c.dwSkip)

/-- The control block after an engine instruction's dispatch. -/
def afterDispatch (q : Part) (c : StreamCtl) (w : BitVec 128) : StreamCtl :=
  { c with pc := c.pc + 16, nextSeq := (c.nextSeq + 1) % 2 ^ 32, buf := c.buf.drop 1
           dwSkip := if wClass w == 0x0B then false else c.dwSkip || (isSkipped q c w && wEot w) }

/-- Dispatch of one word as the stream's next instruction, before any engine starts (R32, R308, R332). -/
def dispatch (s : State) (t : Nat) (x : Stream) (w : BitVec 128) : State :=
  if !mayDispatch s t x then s
  else
    let v := getTile s t
    let c := getCtl v x
    let p := (partOfTile s t).getD 0
    match fetchDetail s p t c.pc with
    | some d => tileFault s t x 4 c.pc c.nextSeq ⟨6, d, c.pc⟩
    | none =>
      match decodeFault t x c.marked w with
      | some f => tileFault s t x 4 c.pc c.nextSeq f
      | none =>
        let tr := fun (s : State) => traceRecord s 0 (tileUnit s t (firstEng w)) p w.toNat
        if (enginesOf w).isNone then
          dispatchControl (if wClass w == 0x01 && stopsAtStep (getPart s p) c then s else tr s) p t x w
        else if queueFull v x w then s
        else
          let q : QInstr := { pc := c.pc, seq := c.nextSeq, x := x, w := w, target := resolveTarget c w
                              step := c.step, marked := c.marked, skip := isSkipped (getPart s p) c w }
          let v := putCtl v x (afterDispatch (getPart s p) c w)
          putTile (tr s) t { v with waiting := v.waiting ++ [q] }

/-! ## Starting -/

/-- What an engine answers to a start: a fault, the completed instruction's state, the state with the instruction
started and not complete, or not ready after all. -/
inductive Started where
  | fault (f : IFault)
  | done (s : State)
  | going (s : State) (why : Await) (desc : Nat)
  | notReady
  deriving DecidableEq, Repr

/-- Bumps of the tile counter object 0x4100 + t. -/
def tileCtr (s : State) (t sub n : Nat) : State := addCtr s (0x4100 + t) sub n

/-- The device address that a fault of an own-store descriptor's instruction reports: the address at fault, or the
descriptor's (R334). -/
def ownFault (t : Nat) (w : BitVec 128) (f : IFault) : IFault :=
  { f with addr := if f.kind = 6 then tileAddr t f.addr
                   else if f.kind = 3 || f.kind = 4 || f.kind = 8 then tileAddr t (wDesc w) else 0 }

/-- An answer with its fault address made a device address. -/
def ownStarted (t : Nat) (w : BitVec 128) : Started → Started
  | .fault f => .fault (ownFault t w f)
  | r => r

/-- A tile whose Matrix holds no output tile any more is at its boundary and takes the settings of R56. -/
def discardTile (s : State) (t : Nat) (v : Tile) : State := takeSettings (putTile s t v) (1 + t) [0x3110]

/-- The tile without a waiting instruction. -/
def dropWaiting (v : Tile) (q : QInstr) : Tile :=
  { v with waiting := v.waiting.filter (fun r => !(r.x == q.x && r.seq == q.seq)) }

end Sys2Proof.Machine
end

