-- ==== Sys2Proof/Machine/Bank.lean ====
section
/-! DEFINITION. Machine/Bank.lean: bank-side operations on 64-byte lines (R48 to R50, R187, R320) and the
counter-based generator (R169). -/

namespace Sys2Proof.Machine

/-- FP32 words of a run of bytes. -/
def wordsOf : List Byte → List W32
  | a :: b :: c :: d :: r => BitVec.ofNat 32 (ofBytes [a, b, c, d]) :: wordsOf r
  | _ => []

/-- Bytes of FP32 words. -/
def bytesOfWords (l : List W32) : List Byte := l.flatMap (fun w => toBytes 4 w.toNat)

/-- 16-bit words of a run of bytes. -/
def halvesOf : List Byte → List W16
  | a :: b :: r => BitVec.ofNat 16 (ofBytes [a, b]) :: halvesOf r
  | _ => []

/-- The exact value of a BF16 word. -/
def bf16val (w : W16) : Fp := fmtDecode .bf16 w.toNat

/-- A BF16 sum, rounded to nearest even in BF16 (R49). -/
def bf16add (a b : W16) : W16 := BitVec.ofNat 16 (fmtArith .bf16 (fpAdd (bf16val a) (bf16val b)))

/-- A BF16 value widened to FP32. -/
def bf16to32 (w : W16) : W32 := f32of (bf16val w)

/-- Element-wise add of operands to the first words of a run (R49). -/
def addWords : List W32 → List W32 → List W32
  | o :: os, x :: xs => f32add o x :: addWords os xs
  | os, _ => os

/-- Element-wise BF16 add. -/
def addHalves : List W16 → List W16 → List W16
  | o :: os, x :: xs => bf16add o x :: addHalves os xs
  | os, _ => os

/-- Element-wise add of FP32 operands to BF16 elements (R49). -/
def addHalves32 : List W16 → List W32 → List W16
  | o :: os, x :: xs => BitVec.ofNat 16 (fmtArith .bf16 (fpAdd (bf16val o) (f32val x))) :: addHalves32 os xs
  | os, _ => os

/-- Compensated adds to the first pairs of a run (R49, R78). -/
def foldWords : List W32 → List W32 → List W32
  | a :: c :: os, x :: xs => (foldPair (a, c) x).1 :: (foldPair (a, c) x).2 :: foldWords os xs
  | os, _ => os

/-- One max or min with index (R49). -/
def pickPair (isMax : Bool) (v i x j : W32) : W32 × W32 :=
  let fv := f32val v; let fx := f32val x
  if fpIsNan fv then (v, i)
  else if fpIsNan fx || (if isMax then fpLt fv fx else fpLt fx fv) || (fpEq fx fv && decide (j.toNat < i.toNat)) then
    (x, j)
  else (v, i)

/-- Max or min with index on the first pairs of a run. -/
def pickWords (isMax : Bool) : List W32 → List W32 → List W32
  | v :: i :: os, x :: j :: xs => (pickPair isMax v i x j).1 :: (pickPair isMax v i x j).2 :: pickWords isMax os xs
  | os, _ => os

/-- The row claim on a header line (R49): the answer 0 CLAIMED, 1 HIT, 2 OTHER, and the line. -/
def rowClaim (line : List Byte) (id : Nat) : Nat × List Byte :=
  let cur := ofBytes (line.take 8)
  let cnt := ofBytes ((line.drop 8).take 4)
  if cur = 2 ^ 64 - 1 then (0, toBytes 8 id ++ toBytes 4 1 ++ line.drop 12)
  else if cur = id then (1, toBytes 8 cur ++ toBytes 4 (min (cnt + 1) 0xFFFFFFFF) ++ line.drop 12)
  else (2, line)

/-- A bank operation on a run of bytes: STORE's codes (R320), 6 the add of FP32 operands to BF16 elements, 7 the row
claim (R49); operands may be fewer than the run's elements, and the rest of the run is unchanged. -/
def bankApply (op : Nat) (old new : List Byte) : List Byte :=
  match op with
  | 1 => bytesOfWords (addWords (wordsOf old) (wordsOf new))
  | 2 => (addHalves (halvesOf old) (halvesOf new)).flatMap (fun w => toBytes 2 w.toNat)
  | 3 => bytesOfWords (foldWords (wordsOf old) (wordsOf new))
  | 4 => bytesOfWords (pickWords true (wordsOf old) (wordsOf new))
  | 5 => bytesOfWords (pickWords false (wordsOf old) (wordsOf new))
  | 6 => (addHalves32 (halvesOf old) (wordsOf new)).flatMap (fun w => toBytes 2 w.toNat)
  | 7 => (rowClaim old (ofBytes (new.take 8))).2
  | _ => new ++ old.drop new.length

/-- Bytes of the run that an operation's operand bytes act on. -/
def bankSpan (op n : Nat) : Nat := match op with | 3 => 2 * n | 6 => n / 2 | 7 => 64 | _ => n

/-- Operand bytes for a run of `n` target bytes. -/
def bankOperand (op n : Nat) : Nat := match op with | 3 => n / 2 | 6 => 2 * n | 7 => 8 | _ => n

/-- The answer of an operation: of a row claim 0 CLAIMED, 1 HIT, 2 OTHER; 3 for one that returns nothing. -/
def bankAnswer (op : Nat) (old new : List Byte) : Nat :=
  if op = 7 then (rowClaim old (ofBytes (new.take 8))).1 else 3

/-- A read-modify-write is applied to its bytes; a poisoned line stays poisoned (R48, R254). -/
def bankRaw (s : State) (a op : Nat) (new : List Byte) : State :=
  let old := readBytes s a (bankSpan op new.length)
  { putMem s (pokeBytes s.mem a (bankApply op old new)) with
    bankReply := if op = 7 then bankAnswer op old new else s.bankReply }

/-- Source bytes per destination line (R320). -/
def bankSrcBytes (op : Nat) : Nat := if op = 3 then 32 else 64

/-! ## The counter-based generator (R169) -/

/-- One round. -/
def philoxRound (k0 k1 : Nat) (c : Nat × Nat × Nat × Nat) : Nat × Nat × Nat × Nat :=
  let (c0, c1, c2, c3) := c
  let p0 := 0xD2511F53 * c0
  let p1 := 0xCD9E8D57 * c2
  ((p1 / 2 ^ 32) ^^^ c1 ^^^ k0, p1 % 2 ^ 32, (p0 / 2 ^ 32) ^^^ c3 ^^^ k1, p0 % 2 ^ 32)

/-- `n` rounds with the key advanced after each. -/
def philox : Nat → Nat → Nat → Nat × Nat × Nat × Nat → Nat × Nat × Nat × Nat
  | 0, _, _, c => c
  | n + 1, k0, k1, c => philox n ((k0 + 0x9E3779B9) % 2 ^ 32) ((k1 + 0xBB67AE85) % 2 ^ 32) (philoxRound k0 k1 c)

/-- The four result words of a 64-bit key and a counter. -/
def genWords (key c0 c1 c2 c3 : Nat) : Nat × Nat × Nat × Nat :=
  philox 10 (key % 2 ^ 32) (key / 2 ^ 32 % 2 ^ 32) (c0 % 2 ^ 32, c1 % 2 ^ 32, c2 % 2 ^ 32, c3 % 2 ^ 32)

/-- The 16 random bits of stochastic rounding (R119). -/
def srBits (seed tile count row col : Nat) : Nat := (genWords seed col row count (0x01000000 + tile)).1 % 65536

/-- The rounding mode of an element under a `round_mode` code (R118, R119). -/
def roundOf (mode seed tile count row col : Nat) : RoundMode :=
  match mode with
  | 1 => .towardZero
  | 2 => .stochastic (srBits seed tile count row col)
  | _ => .nearestEven

/-! ## The operations of a bank-side unit -/

/-- The read-modify-write that an operation of R49 is, with its operand bytes; none for an undefined code. BF16
operands of FP32 elements are widened. -/
def bankRequest (op : BankOp) (operand : List Byte) : Option (Nat × List Byte) :=
  let wide := fun (n : Nat) => bytesOfWords ((halvesOf (operand.take n)).map bf16to32)
  match op with
  | .addF32 | .rowAddF32 => some (1, operand.take 64)
  | .addBf16 => some (2, operand.take 64)
  | .addF32FromBf16 | .rowAddBf16 => some (1, wide 32)
  | .addBf16FromF32 => some (6, operand)
  | .compF32 => some (3, operand.take 32)
  | .compBf16 => some (3, wide 16)
  | .maxIdx => some (4, operand.take 64)
  | .minIdx => some (5, operand.take 64)
  | .rowClaim => some (7, operand.take 8)
  | .undefined => none

end Sys2Proof.Machine
end

