-- ==== Sys2Proof/Machine/MemErr.lean ====
section
/-! DEFINITION. Machine/MemErr.lean: link errors, poisoned lines, refills from replicas, retirement, patrol scrub
(11 R248 to R256). -/

namespace Sys2Proof.Machine

/-! ## Where a line lies -/

/-- Placement of a partition. -/
def getPlace (s : State) (p : Nat) : Placement := mget Placement.reset s.place p

/-- Writes a partition's placement. -/
def putPlace (s : State) (p : Nat) (v : Placement) : State := { s with place := mset Placement.reset s.place p v }

/-- Memory dies whose samplers and Retriever engines serve a partition: `serve_dies` of its placement table (R16, R234),
or the dies of its interface groups while it has none. -/
def serveDies (s : State) (p : Nat) : List Nat :=
  let v := getPlace s p
  if v.valid then (upFrom 0 4).filter (bitSet (bits v.header 355 352)) else memDiesOf (getPart s p)

/-- A request or doorbell wakes the memory dies that serve its partition (R417, R420; log 24, DEDUCED). -/
def wakeMem (s : State) (p : Nat) : State := (serveDies s p).foldl (fun s d => wakeDomain s (24 + d)) s

/-- The partition in whose groups, tiles, share or window a line lies (R256). -/
def lineOwner (s : State) (a : Nat) : Option Nat :=
  match placeOf a with
  | .t1 g => partOfMemGroup s g
  | .tile t _ => partOfTile s t
  | .landing _ off => (upFrom 0 16).find? (fun p => isFormed (getPart s p) && inShare (getPart s p) off)
  | .window w _ => some (bits (windowOf s w) 9 6)
  | _ => none

/-- A number of the die whose poison table holds a line: memory dies 0 to 3, compute dies 10 to 13, 99 for T2. -/
def poisonDie (a : Nat) : Nat :=
  match placeOf a with
  | .t1 g => g / 5
  | .tile t _ => 10 + t / 16
  | .landing d _ => d
  | _ => 99

/-! ## Object records (R235, R252) -/

/-- A location of an object: 0 home, 1 replica 0, 2 replica 1: address and stamp address. -/
def objLoc (r i : Nat) : Nat × Nat :=
  match i with
  | 0 => (bits r 127 64, bits r 383 320)
  | 1 => (bits r 255 192, bits r 447 384)
  | _ => (bits r 319 256, bits r 511 448)

/-- The locations of an object that hold a line at `a`. -/
def objHolds (r a : Nat) : Option Nat :=
  (upFrom 0 (1 + bits r 5 4)).find? (fun i => decide ((objLoc r i).1 ≤ a) && decide (a < (objLoc r i).1 + bits r 191 128))

/-- The object record that covers a line. -/
def objOf (s : State) (p a : Nat) : Option Nat :=
  (getPlace s p).objects.find? (fun r => (objHolds r a).isSome)

/-- A stamp, none when it is invalid (R235). -/
def validStamp (v : Nat) : Option Nat := if v = 2 ^ 64 - 1 then none else some v

/-- A location's stamp, none when it is invalid or has no stamp (R235). -/
def stampOf (s : State) (r i : Nat) : Option Nat :=
  let a := (objLoc r i).2
  if a = 0 then none else validStamp (readNat s a 8)

/-- The locations of an object record. -/
def objLocs (r : Nat) : List Nat := upFrom 0 (1 + bits r 5 4)

/-- The location of an object other than location i, by the stamps `stamp` of its locations: the first whose stamp is
valid and equal to that of location i (R252). -/
def sourceBy (stamp : Nat → Option Nat) (r i : Nat) : Option Nat :=
  match stamp i with
  | none => none
  | some v => (objLocs r).find? (fun j => j != i && stamp j == some v)

/-- The line that refills the line at `a` by such stamps (R252). -/
def refillBy (s : State) (stamp : Nat → Nat → Option Nat) (p a : Nat) : Option Nat :=
  (objOf s p a).bind (fun r => (objHolds r a).bind (fun i =>
    (sourceBy (stamp r) r i).map (fun j => (objLoc r j).1 + (a - (objLoc r i).1))))

/-- The line that refills the line at `a`: the first of home, replica 0 and replica 1, other than itself, whose stamp
is valid and equal to its own (R252). -/
def refillSource (s : State) (p a : Nat) : Option Nat := refillBy s (stampOf s) p a

/-- Addresses in a window. -/
def isWindow (a : Nat) : Bool :=
  match placeOf a with
  | .window _ _ => true
  | _ => false

/-- The object of a line has a location or a stamp in a window, which a peer holds (R239, R344). -/
def usesWindow (s : State) (p a : Nat) : Bool :=
  match objOf s p a with
  | none => false
  | some r => (objLocs r).any (fun i => isWindow (objLoc r i).1 || isWindow (objLoc r i).2)

/-! ## Retirement (R253, R255, R256) -/

/-- The bank of an SRAM line and its key in the table of spare lines. -/
def spareKey (a : Nat) : Nat :=
  match placeOf a with
  | .tile t off => t * 4096 + 16 * (off / 0x400000) + (off % 0x400000 / 64) % 16
  | .landing d off => 2 ^ 20 + d * 65536 + Config.landingBank d (off / 64)
  | _ => 0

/-- A line's page or SRAM line is retired, or mem.retire_full is raised. A spare page that fails is retired in turn. -/
def retireLine (s : State) (a : Nat) : State :=
  match placeOf a with
  | .t1 g =>
    let page := pageOf a
    if s.memErr.copying.contains page then s
    else if 1024 ≤ mget 0 s.memErr.spareUsed g then
      raise s 0x0305 ((partOfMemGroup s g).getD 0xFF) 0 [a, g]
    else
      putMemErr s { s.memErr with
        copying := s.memErr.copying ++ [page], corrected := s.memErr.corrected.filter (fun c => c.1 != page)
        spareUsed := mset 0 s.memErr.spareUsed g (mget 0 s.memErr.spareUsed g + 1) }
  | .tile _ _ | .landing _ _ =>
    let k := spareKey a
    if 16 ≤ mget 0 s.memErr.spareLines k then raise s 0x0305 ((lineOwner s a).getD 0xFF) 0 [a, 0]
    else putMemErr s { s.memErr with spareLines := mset 0 s.memErr.spareLines k (mget 0 s.memErr.spareLines k + 1) }
  | _ => s

/-! ## Poisoned lines (R251 to R254) -/

/-- A parked request whose line was not refilled: a whole write replaces the line, anything else is dropped (R254). -/
def dropOne (line : Nat) (s : State) (r : Parked) : State :=
  match r.req with
  | .write off data => if off.val = 0 ∧ data.length = 64 then pokeMemory s line data else s
  | _ => s

/-- The parked requests of a line, taken off the list. -/
def takeParked (s : State) (line : Nat) : List Parked × State :=
  (s.memErr.parked.filter (fun r => r.line == line),
   putMemErr s { s.memErr with parked := s.memErr.parked.filter (fun r => r.line != line) })

/-- The bytes of a line are what its read gave: free values (log 2, DESIGN CHOICE); the line stays as it is otherwise. -/
def spoilLine (s : State) (line : Nat) : State :=
  putMem { s with free := s.free + 1 } (pokeBytes s.mem line ((upFrom line 64).map (Config.freeByte s.free)))

/-- The readers of a window line that waited for its refill have bytes for it (R241). -/
def serveFar (s : State) (line : Nat) (bs : List Byte) : State :=
  let l := s.lft.reads.filter (fun r => r.src == line && r.failed)
  putLft s { s.lft with
    reads := s.lft.reads.filter (fun r => !(r.src == line && r.failed))
    far := l.foldl (fun m r => pokeBytes m (r.owner * 2 ^ 64 + line) bs) s.lft.far }

/-- The poisoned line is delivered to its readers: free values (R254; log 2, DESIGN CHOICE). Of a T2 line no copy is
kept, so nothing of it stays poisoned (R241). -/
def deliverPoison (s : State) (line : Nat) : State :=
  if isWindow line then
    serveFar (putMemErr { s with free := s.free + 1 } { s.memErr with poison := s.memErr.poison.filter (· != line) }) line
      ((upFrom line 64).map (Config.freeByte s.free))
  else
    let s := spoilLine s line
    putMemErr s { s.memErr with delivered := insertNew s.memErr.delivered line }

/-- No refill is made: the poisoned line is delivered, the partition restarts or, when the line fails again in the
replay of the step, is held; the line stays poisoned (R254). -/
def failRefill (s : State) (line : Nat) : State :=
  let p := lineOwner s line
  let objId := ((p.bind (fun p => objOf s p line)).map (fun r => bits r 31 16)).getD 0
  let s := if poisonDie line < 4 then addCtr s (0x4200 + poisonDie line) 6 1 else s
  let s := deliverPoison (raise s 0x0301 (p.getD 0xFF) 0 [line, objId]) line
  let t := takeParked s line
  let s := retireLine (t.1.foldl (dropOne line) t.2) line
  match p with
  | some p => causeOrHold s p 0x0301 1 line 0
  | none => s

/-- The refill of a line is sought: at once, or, where its object uses a window, over the fabric (R252, R344). -/
def seekRefill (s : State) (line : Nat) : State :=
  match lineOwner s line with
  | none => failRefill s line
  | some p =>
    if usesWindow s p line then putMemErr s { s.memErr with seeking := s.memErr.seeking ++ [(line, false)] }
    else match refillSource s p line with
      | some src => putMemErr s { s.memErr with refilling := s.memErr.refilling ++ [(line, src)] }
      | none => failRefill s line

/-- The line takes its entry in its poison table and is counted (R251, R258). -/
def notePoison (s : State) (line : Nat) : State :=
  if s.memErr.poison.contains line then s
  else
    let s := markPoison s line
    match placeOf line with
    | .tile t _ => tileCtr s t 0x2D 1
    | _ => if poisonDie line < 4 then addCtr s (0x4200 + poisonDie line) 4 1 else s

/-- The line is poisoned and its refill is sought (R251, R252). -/
def poisonLine (s : State) (line : Nat) : State := seekRefill (notePoison s line) line

/-- A request meets an uncorrectable error: it parks; the line takes an entry of its die's poison table or waits for
one (R251). -/
def meetError (s : State) (line : Nat) (req : MemReq) : State :=
  let s := putMemErr s { s.memErr with parked := s.memErr.parked ++ [⟨line, req⟩] }
  if s.memErr.refilling.any (fun r => r.1 == line) || s.memErr.seeking.any (fun r => r.1 == line) || s.memErr.waiting.contains line
  then s
  else if !s.memErr.poison.contains line &&
      decide (256 ≤ (s.memErr.poison.filter (fun l => poisonDie l == poisonDie line)).length) then
    putMemErr s { s.memErr with waiting := s.memErr.waiting ++ [line] }
  else poisonLine s line

/-- Lines that waited for an entry of the poison table take those that are free (R251). -/
def admitPoison (s : State) : State :=
  s.memErr.waiting.foldl (fun s line =>
    if (s.memErr.poison.filter (fun l => poisonDie l == poisonDie line)).length < 256 then
      poisonLine (putMemErr s { s.memErr with waiting := s.memErr.waiting.filter (· != line) }) line
    else s) s

/-! ## Requests to lines (R249, R251, R253, R254) -/

/-- A read-modify-write of a part of a line: it parks on a line that waits, meets the error of a line that cannot be
read, and is dropped on one that was delivered poisoned (R254). -/
def bankPiece (s : State) (l op off : Nat) (data : List Byte) : State :=
  let s := wakeRun s l 64
  if lineHeld s l true then parkReq s l (.modify (Fin.ofNat 8 op) (lineOff off) data)
  else if lineMeets s l then meetError s l (.modify (Fin.ofNat 8 op) (lineOff off) data)
  else if lineBad s l then s
  else bankRaw s (l + off) op data

/-- A bank operation at a line of memory (R48, R187). -/
def bankWrite (s : State) (a op : Nat) (new : List Byte) : State :=
  if op = 0 then writeBytes s a new else bankPiece s (a / 64 * 64) op (a % 64) new

/-- Writes lines with a bank operation from a run of source bytes. -/
def bankWriteLines : Nat → State → Nat → Nat → List Byte → State
  | 0, s, _, _, _ => s
  | n + 1, s, a, op, src =>
    bankWriteLines n (bankWrite s a op (src.take (bankSrcBytes op))) (a + 64) op (src.drop (bankSrcBytes op))

/-- No line waits and none is in error. -/
def memClean (s : State) : Bool := memQuiet s && s.memErr.poison.isEmpty && s.memErr.failedIf.isEmpty

/-- A bank operation on a run of entries that may start anywhere and fill part of their last line: the bytes are
combined in place, line by line where a line may wait. -/
def bankCombine (s : State) (a op : Nat) (new : List Byte) : State :=
  if memClean s && domsUp s then bankRaw s a op new
  else
    (linesOf a (bankSpan op new.length)).foldl (fun s l =>
      let lo := max a l
      let hi := min (a + bankSpan op new.length) (l + 64)
      bankPiece s l op (lo - l) ((new.drop (bankOperand op (lo - a))).take (bankOperand op (hi - lo)))) s

/-- A parked request of a line is applied (R253). -/
def serveOne (line : Nat) (s : State) (r : Parked) : State :=
  match r.req with
  | .read => s
  | .write off data => writeBytes s (line + off.val) (data.take (64 - off.val))
  | .modify op off data => bankWrite s (line + off.val) op.val data

/-- The parked requests of lines that wait no longer are applied in arrival order (R249, R253). -/
def serveParked (s : State) : State :=
  let l := s.memErr.parked
  (l.filter (fun r => !lineHeld s r.line true)).foldl (fun s r => serveOne r.line s r)
    (putMemErr s { s.memErr with parked := l.filter (fun r => lineHeld s r.line true) })

/-- What a read of runs of bytes meets: none, and it may go on; else it waits, and lines that cannot be read have met
their error (R249, R251). -/
def meetRuns (s : State) (runs : List (Nat × Nat)) : Option State :=
  if memClean s then none
  else
    let ls := runs.flatMap (fun r => linesOf r.1 r.2)
    if ls.any (fun l => lineHeld s l false) then some s
    else if ls.any (lineMeets s) then
      some ((ls.filter (lineMeets s)).foldl (fun s l => if lineHeld s l false then s else meetError s l .read) s)
    else none

/-- A read of runs of bytes wakes the domains whose stores hold them (R417). -/
def wakeRuns (s : State) (runs : List (Nat × Nat)) : State :=
  if domsUp s then s else runs.foldl (fun s r => wakeRun s r.1 r.2) s

/-- A unit's work that reads runs of bytes: it wakes their domains, and waits while they cannot be read. -/
def onceRead (s : State) (runs : List (Nat × Nat)) (f : State → State) : State :=
  let s := wakeRuns s runs
  match meetRuns s runs with
  | some s' => s'
  | none => f s

/-- What reads of levels of runs meet, each level read where the one before says: the first level that cannot be read. -/
def meetLevels (s : State) : List (List (Nat × Nat)) → Option State
  | [] => none
  | l :: r => (meetRuns s l).orElse fun _ => meetLevels s r

/-- A unit's work that reads levels of runs of bytes, each level where the one before says. -/
def onceLevels (s : State) (levels : List (List (Nat × Nat))) (f : State → State) : State :=
  let s := wakeRuns s levels.flatten
  match (if memClean s then none else meetLevels s levels) with
  | some s' => s'
  | none => f s

/-- A doorbell of a kind and partition is acted on once the runs that its value names can be read, in the order of its
stores (R249, R251); kinds: 0 Hound, 1 mask planner, 2 reductions, 3 table publishes. -/
def atDoorbell (s : State) (kind p v : Nat) (levels : List (List (Nat × Nat))) (f : State → State) : State :=
  let wait := fun (s : State) => putSched s { s.sched with doorbells := s.sched.doorbells ++ [(kind, p, v)] }
  if s.sched.doorbells.any (fun x => x.1 == kind && x.2.1 == p) then wait s
  else
    let s := wakeRuns s levels.flatten
    match (if memClean s then none else meetLevels s levels) with
    | some s' => wait s'
    | none => f s

/-- The doorbells of a kind and partition that wait are abandoned. -/
def dropDoorbells (s : State) (kind p : Nat) : State :=
  putSched s { s.sched with doorbells := s.sched.doorbells.filter (fun x => !(x.1 == kind && x.2.1 == p)) }

/-- No write of the partition waits for its line: what its units wrote is written and visible (R249, R253, R264). -/
def settled (s : State) (p : Nat) : Bool :=
  s.memErr.parked.all (fun r => r.req == .read || lineOwner s r.line != some p)

/-- What a unit of a partition does once its writes are visible: until then it waits (R249, R253, R264; log 79, DESIGN
CHOICE). -/
def onceSettled (s : State) (p : Nat) (f : State → State) : State := if settled s p then f s else s

/-- An instruction whose work is done, `v` being the tile without it, completes, or waits for the lines of its writes (R39,
R42). -/
def finishInstr (s : State) (t : Nat) (v : Tile) (q : QInstr) : State :=
  putTile s t (if settled s ((partOfTile s t).getD 0) then completeInstr v q
    else { v with inflight := v.inflight ++ [⟨q, lastEng q.w, .acks [], [], 0⟩] })

/-- PAGE_COPY_DONE (R253): a retired page's copy completes and its address is remapped; the writes that waited for it
are applied. -/
def execPageCopyDone (k : Nat) (s : State) : Host.Outcome State Fault Refusal :=
  match s.memErr.copying[k]? with
  | none => .next s
  | some page =>
    let g := page / 2 ^ 37
    let s := putMemErr s { s.memErr with
      copying := dropAt s.memErr.copying k, retiredPages := s.memErr.retiredPages ++ [page] }
    .next (serveParked
      (raise (addCtr s (0x4200 + g / 5) 7 1) 0x0304 ((partOfMemGroup s g).getD 0xFF) 0 [page, g]))

/-- The address of the instruction that a stream has at an engine, with its sequence number: the oldest incomplete one,
else the next to be dispatched. -/
def requesterOf (v : Tile) (x : Stream) (e : Engine) : Nat × Nat :=
  match v.inflight.find? (fun i => i.q.x == x && i.eng == e) with
  | some i => (i.q.pc, i.q.seq)
  | none => ((getCtl v x).pc, (getCtl v x).nextSeq)

/-- UNCORRECTABLE_ERROR (R248, R251): a request to a line meets an uncorrectable error; or a parity error of a tile's
accumulators, buffers or queues, which no request meets, faults the tile and restarts its partition. -/
def execUncorrectableError (e : ErrorSite) (req : MemReq) (s : State) : Host.Outcome State Fault Refusal :=
  match e with
  | .line n => .next (meetError s (64 * n.toNat) req)
  | .parity t x e =>
    let r := requesterOf (getTile s t.val) x e
    if tileGoes s t.val then .next (tileFault s t.val x (engNo e) r.1 r.2 ⟨9, 0, 0⟩) else .next s

/-! ## Links and scrub (R249, R250) -/

/-- LINK_CRC_FAILURE (R249): a burst of interface i exhausts its retries and the interface retrains; the bursts of
its die that were retried since the last such command stand in `retried`, this one apart (R258; log 85, DESIGN CHOICE). -/
def execLinkCrcFailure (burst : Burst) (s : State) : Host.Outcome State Fault Refusal :=
  let k := 0x4200 + burst.itf.val / 40
  let s := addCtr (addCtr s k 1 (burst.retried.toNat + 1)) k 2 1
  .next (putMemErr s { s.memErr with retrain := insertNew s.memErr.retrain burst.itf.val })

/-- RETRAIN_DONE (R249): the retrain of interface i completes or fails; a failed interface's lines are uncorrectable
until the next cold reset. -/
def execRetrainDone (i : Fin 160) (ok : Bool) (s : State) : Host.Outcome State Fault Refusal :=
  if !s.memErr.retrain.contains i.val then .next s
  else
    let s := putMemErr s { s.memErr with
      retrain := s.memErr.retrain.filter (· != i.val)
      failedIf := if ok then s.memErr.failedIf else insertNew s.memErr.failedIf i.val }
    .next (serveParked (raise s 0x0306 0xFF 0 [i.val, if ok then 0 else 1]))

/-- Die d's patrol scrub, which counts only time that its memory domain spends ACTIVE or DOZE, has one cycle more (R422). -/
def scrubTick (s : State) (d : Nat) : State :=
  if getDom s (24 + d) ≤ 1 then
    putMemErr s { s.memErr with scrubbed := mset 0 s.memErr.scrubbed d (mget 0 s.memErr.scrubbed d + 1) }
  else s

/-- The corrected errors still within the scrub period of their die, with n more of a page (R250, R422). -/
def withCorrected (s : State) (page n : Nat) : List (Nat × Nat × Nat) :=
  s.memErr.corrected.filter (fun c =>
    decide (mget 0 s.memErr.scrubbed (poisonDie c.1) < c.2.1 + setting s 0x3300 1 * 3600 * 10 ^ 8)) ++
    [(page, mget 0 s.memErr.scrubbed (poisonDie page), n)]

/-- The corrected errors that a page has met, by such a list. -/
def correctedOf (l : List (Nat × Nat × Nat)) (page : Nat) : Nat :=
  (l.filter (fun c => c.1 == page)).foldl (fun n c => n + c.2.2) 0

/-- The domain whose stores hold a line, which a scrub wakes: its scrub is not due in SLEEP or OFF, nor a GDDR7 page's in
NAP (R417, R422). -/
def scrubDomain (s : State) (a : Nat) : Option Nat :=
  match placeOf a with
  | .t1 g => if getDom s (24 + g / 5) ≤ 1 then some (24 + g / 5) else none
  | .landing d _ => if getDom s (24 + d) ≤ 2 then some (24 + d) else none
  | .tile t _ => if tilePresent s t && decide (getDom s (tileDom s t) ≤ 2) then some (tileDom s t) else none
  | _ => none

/-- PATROL_SCRUB (R250): the scrub reads and corrects the page or SRAM line at a line number; it corrects `found`
errors, and reads of the place corrected `reads` since its last scrub (log 33, DESIGN CHOICE). A retained word is scrubbed
in NAP without a wake (R422). -/
def execPatrolScrub (line : BitVec 51) (found reads : BitVec 16) (s : State) : Host.Outcome State Fault Refusal :=
  let a := 64 * line.toNat
  let n := found.toNat + reads.toNat
  let th := setting s 0x3300 2
  match scrubDomain s a with
  | none => .next s
  | some i =>
    let s := if getDom s i = 2 then s else wakeDomain s i
    match placeOf a with
    | .t1 g =>
      let l := withCorrected s (pageOf a) n
      let s := putMemErr (addCtr s (0x4200 + g / 5) 3 n) { s.memErr with corrected := l }
      .next (if th ≠ 0 && decide (th ≤ correctedOf l (pageOf a)) then retireLine s a else s)
    | .landing d _ => .next (addCtr s (0x4200 + d) 3 n)
    | .tile t _ => .next (tileCtr s t 0x2C n)
    | _ => .next s

end Sys2Proof.Machine
end

