-- ==== Sys2Proof/Machine/Sync.lean ====
section
/-! DEFINITION. Machine/Sync.lean: counters, signals, watches and whistles (12), the replay bias (17 R398), and the
synchronisation instructions of a tile (14 R328 to R331). -/

namespace Sys2Proof.Machine

/-! ## Small readings -/

/-- The hub of a counter (R259). -/
def hubOf (n : Nat) : Nat := n / 4096

/-- Bumps a hub's counter object (R286). -/
def hubCtr (s : State) (n sub k : Nat) : State := addCtr s (0x4800 + hubOf n) sub k

/-- Unit number of a unit identity (R283); none for peers and management. -/
def unitOfId (id : Nat) : Option Nat := if bits id 15 12 ≤ 5 then some (unitNo (bits id 15 12) (bits id 9 0)) else none

/-- The identity carries a stale tag (R263, R400). -/
def isStale (s : State) (id : Nat) : Bool :=
  match unitOfId id with
  | some u => bits id 31 16 != tagOf s u
  | none => false

/-- A message with a stale tag is dropped: counted, and raised at most once per unit per second (R400). -/
def staleDrop (s : State) (hub id part : Nat) : State :=
  let s := addCtr s (0x4800 + hub) 7 1
  match unitOfId id with
  | none => s
  | some u =>
    let last := mget 0 s.units.dropTime u
    if last = 0 || last + 1000000000 ≤ nowNs s + 1 then
      let s := putUnits s { s.units with dropTime := mset 0 s.units.dropTime u (nowNs s + 1) }
      raise s 0x0A0B part id [tagOf s u]
    else s

/-- Watches that hold a slot on a hub for a partition: armed, or fired and not delivered (R271). -/
def slotsHeld (s : State) (hub : Nat) (p : Nat → Bool) : Nat :=
  (s.sync.armed.filter (fun w => hubOf w.ctr == hub && p w.part)).length +
    (s.sync.whistles.filter (fun x => x.slot && hubOf x.w.ctr == hub && p x.w.part)).length

/-- A slot is free on the hub for the partition (R271). -/
def slotFree (s : State) (hub p : Nat) : Bool :=
  decide (slotsHeld s hub (fun _ => true) < 16384) &&
    decide (slotsHeld s hub (· == p) < settingAt s (1 + p) 0x3503 (p + 1))

/-! ## Whistles (R273, R275) -/

/-- Sends a whistle for a watch. -/
def sendWhistle (s : State) (w : Watch) (status : Nat) (slot : Bool) : State :=
  let s := hubCtr s w.ctr 2 1
  putSync s { s.sync with
    whistles := s.sync.whistles ++ [⟨w, status, (getCounter s w.ctr).value, slot⟩] }

/-- Every armed watch that the counter's value satisfies fires, in ascending target order (R272, R275). -/
def fireWatches (s : State) (n : Nat) : State :=
  let hit := fun (w : Watch) => w.ctr == n && decide (w.target ≤ (getCounter s n).value)
  let l := sortBy (fun a b => decide (a.target < b.target)) (s.sync.armed.filter hit)
  let s := putSync s { s.sync with armed := s.sync.armed.filter (fun w => !hit w) }
  l.foldl (fun s w => sendWhistle s w 0 true) s

/-! ## Applying an operation (R261, R282, R398) -/

/-- The counter after an ADD, MAX or INIT (op 1, 2, 3) (R261). -/
def counterOp (v op x : Nat) : Nat :=
  match op with
  | 1 => min (v + x) 0xFFFFFFFFFFFFFFFF
  | 2 => max v x
  | _ => x

/-- Applies an operation to an OWNED counter: value, inspection record, overflow event, step sums of replay-counted
ADDs, count, whistles. -/
def applyOp (s : State) (n op x unit : Nat) (counted : Option Nat) : State :=
  let c := getCounter s n
  let carries := op = 1 ∧ 0xFFFFFFFFFFFFFFFF < c.value + x
  let add := fun (par v : Nat) =>
    match counted with
    | some st => if op = 1 ∧ st % 2 = par then (v + x) % 2 ^ 64 else v
    | none => v
  let s := putCounter s n { c with
    value := counterOp c.value op x, sumEven := add 0 c.sumEven, sumOdd := add 1 c.sumOdd
    lastUnit := unit, lastS := s.time.s, lastNs := s.time.ns, lastOp := op, lastOperand := x }
  let s := if carries then raise s 0x0402 c.owner unit [n] else s
  fireWatches (hubCtr s n 1 1) n

/-- A local operation reaches its hub: dropped when its unit's tag is stale, discarded when the counter is not owned
by the unit's partition (R262, R263, R278). -/
def hubApply (s : State) (g : Signal) : State :=
  if isStale s g.unit then staleDrop s (hubOf g.ctr) g.unit g.part
  else if ownsCounter s g.part g.ctr then applyOp s g.ctr (if g.isMax then 2 else 1) g.operand g.unit g.counted
  else hubCtr s g.ctr 9 1

/-- Sends a local signal towards its hub; 0xFFFF_FFFF names no counter (R259). -/
def sendSignal (s : State) (g : Signal) : State :=
  if g.ctr = 0xFFFFFFFF then s else putSync s { s.sync with signals := s.sync.signals ++ [g] }

/-- An ADD of one by a module unit for a partition, not replay-counted. -/
def signalOne (s : State) (p n unit : Nat) : State :=
  sendSignal s { ctr := n, isMax := false, operand := 1, unit := unit, stream := 3, part := p, counted := none }

/-- A signal of the same unit, stream and counter was issued earlier (R265). -/
def earlierSignal (l : List Signal) (k : Nat) (g : Signal) : Bool :=
  (l.take k).any (fun h => h.ctr == g.ctr && h.unit == g.unit && h.stream == g.stream)

/-- What reaches the hub of a counter, in its FAB domain (R414, R420). -/
def onceAtHub (s : State) (n : Nat) (f : State → State) : State := onceActive s (20 + hubOf n) f

/-- HUB_SIGNAL_APPLY (R264, R265): the hub applies the k-th signal on its way; signals of one unit and stream to one
counter go in the order they were issued, and a signal is applied only when the writes that it covers are visible: the
model waits for every write of its partition (log 79, DESIGN CHOICE). -/
def execHubSignalApply (k : Nat) (s : State) : Host.Outcome State Fault Refusal :=
  match s.sync.signals[k]? with
  | none => .next s
  | some g =>
    if earlierSignal s.sync.signals k g then .next s
    else
      .next (onceSettled s g.part (fun s => onceAtHub s g.ctr (fun s =>
        hubApply (putSync s { s.sync with signals := dropAt s.sync.signals k }) g)))

/-! ## Remote signals (R267, R268) -/

/-- Sequence comparison modulo 2^32 (R266, R367). -/
def seqLe (a b : Nat) : Bool := decide ((b + 2 ^ 32 - a % 2 ^ 32) % 2 ^ 32 < 2 ^ 31)

/-- Key of the flow of a peer and partition. -/
def flowKey (peer part : Nat) : Nat := peer * 16 + part

/-- The flow of a peer and partition. -/
def getFlow (s : State) (peer part : Nat) : Flow := mget Flow.reset s.lft.flows (flowKey peer part)

/-- Writes a flow. -/
def putFlow (s : State) (peer part : Nat) (f : Flow) : State :=
  putLft s { s.lft with flows := mset Flow.reset s.lft.flows (flowKey peer part) f }

/-- Advances a watermark over the sequences recorded above it; `n` bounds the walk. -/
def advanceMark : Nat → Nat → List Nat → Nat × List Nat
  | 0, w, l => (w, l)
  | n + 1, w, l =>
    let x := (w + 1) % 2 ^ 32
    if l.contains x then advanceMark n x (l.filter (· != x)) else (w, l)

/-- A sequence of a flow is settled, by landing or a NAK (R371 to R373); 16 of them ask for an ACK. -/
def settleSeq (s : State) (peer part seq : Nat) : State :=
  let f := getFlow s peer part
  let r := advanceMark (f.landed.length + 1) f.wm (insertNew f.landed seq)
  putFlow s peer part { f with wm := r.1, landed := r.2, sinceAck := f.sinceAck + 1 }

/-- A sequence no longer stands between the landed data watermark and later data: its data landed, or it carries no
data (R267). -/
def seenSeq (s : State) (peer part seq : Nat) : State :=
  let f := getFlow s peer part
  let r := advanceMark (f.dataSeen.length + 1) f.dataWm (insertNew f.dataSeen seq)
  putFlow s peer part { f with dataWm := r.1, dataSeen := r.2 }

/-- The flow's landed data watermark has reached a signal's (R267). -/
def markLanded (s : State) (h : HeldSignal) : Bool := seqLe h.mark (getFlow s h.peer h.part).dataWm

/-- A remote signal is applied, or dropped when its counter is not OWNED by the flow's partition; its sequence is
settled either way (R268, R372). -/
def applyRemote (s : State) (h : HeldSignal) : State :=
  let s :=
    if ownsCounter s h.part h.ctr then
      applyOp s h.ctr (if h.isMax then 2 else 1) h.operand (unitId 0 6 0 h.peer) none
    else raise (hubCtr s h.ctr 8 1) 0x0403 h.part (unitId 0 6 0 h.peer) [h.ctr, h.peer]
  settleSeq s h.peer h.part h.seq

/-- Remote signals that a hub holds (R267). -/
def hubHolds (s : State) (hub : Nat) : Nat := (s.sync.held.filter (fun h => hubOf h.ctr == hub)).length

/-- A remote signal waits for its data: in its hub while that holds fewer than 512, else in LFT receive, as does one behind
another of its flow that is kept there (R267). -/
def holdSignal (s : State) (h : HeldSignal) : State :=
  if hubHolds s (hubOf h.ctr) < 512 && !s.sync.kept.any (fun g => g.peer == h.peer && g.part == h.part) then
    putSync (hubCtr s h.ctr 4 1) { s.sync with held := s.sync.held ++ [h] }
  else putSync s { s.sync with kept := s.sync.kept ++ [h] }

/-- The signals kept in LFT receive go to the hubs that have room for them (R267). -/
def admitKept (s : State) : State :=
  s.sync.kept.foldl holdSignal (putSync s { s.sync with kept := [] })

/-- HELD_SIGNAL_APPLY (R267): the k-th held signal is applied once its data has landed; held signals of one flow go in
arrival order. -/
def execHeldSignalApply (k : Nat) (s : State) : Host.Outcome State Fault Refusal :=
  match s.sync.held[k]? with
  | none => .next s
  | some h =>
    if (s.sync.held.take k).any (fun g => g.peer == h.peer && g.part == h.part) || !markLanded s h then .next s
    else
      .next (onceAtHub s h.ctr (fun s =>
        admitKept (applyRemote (putSync s { s.sync with held := dropAt s.sync.held k }) h)))

/-! ## Counter lines (R262) -/

/-- The work core runs an item of its partition, so that it can store. -/
def coreActive (s : State) (c : Nat) : Bool := (mget Core.reset s.sched.cores c).busy

/-- A work core stalls on an enqueue write that is held (R291). -/
def coreStalled (s : State) (c : Nat) : Bool := s.sched.held.any (fun h => h.src == .core c)

/-- The work core runs an item and does not stall, so that it can load and store. -/
def coreGoes (s : State) (c : Nat) : Bool := coreActive s c && !coreStalled s c

/-- Identity of a work core: while it runs an item, with the tag under which it took it (R400). -/
def coreUnit (s : State) (c : Nat) : Nat :=
  let v := mget Core.reset s.sched.cores c
  unitId (if v.busy then v.tag else tagOf s (unitNo 1 c)) 1 0 c

/-- What a work core sends: dropped where the core's tag is stale (R400). -/
def fromCore (s : State) (c : Nat) (f : State → State) : State :=
  if isStale s (coreUnit s c) then staleDrop s (c / 24) (coreUnit s c) ((partOfCore s c).getD 0xFF) else f s

/-- A work core's store to a counter line: an operation 1 ADD, 2 MAX, 3 INIT, or 0 for the load offset and reserved
offsets; applied, or discarded and counted (R261, R262). -/
def counterStore (s : State) (c n op v : Nat) : State :=
  if !coreGoes s c then s
  else if isStale s (coreUnit s c) then staleDrop s (hubOf n) (coreUnit s c) ((partOfCore s c).getD 0xFF)
  else
    match partOfCore s c with
    | none => hubCtr s n 9 1
    | some p =>
      let ok := ownsCounter s p n &&
        (match op with
         | 1 => decide (1 ≤ v) && decide (v ≤ 65535)
         | 2 => true
         | 3 => (getPart s p).state == .stopped
         | _ => false)
      if ok then applyOp s n op v (coreUnit s c) none else hubCtr s n 9 1

/-- A store to a counter line may reach its hub: it covers the item's earlier stores, so the writes of its partition are
visible (R264, R295; log 79, DESIGN CHOICE). -/
def coreCovers (s : State) (c : Nat) : Bool := (partOfCore s c).all (settled s)

/-- A work core's store to a counter line reaches its hub, once it may (R262, R264, R295, R420). -/
def coreSignal (s : State) (c n op v : Nat) : State :=
  if coreCovers s c then onceAtHub s n (fun s => counterStore s c n op v) else s

/-- COUNTER_ADD (R262): a work-core store to offset 0x08. -/
def execCounterAdd (c : Fin 96) (n : Fin 16384) (v : BitVec 64) (s : State) : Host.Outcome State Fault Refusal :=
  .next (coreSignal s c.val n.val 1 v.toNat)

/-- COUNTER_MAX (R262): a work-core store to offset 0x10. -/
def execCounterMax (c : Fin 96) (n : Fin 16384) (v : BitVec 64) (s : State) : Host.Outcome State Fault Refusal :=
  .next (coreSignal s c.val n.val 2 v.toNat)

/-- COUNTER_INIT (R262): a work-core store to offset 0x18. -/
def execCounterInit (c : Fin 96) (n : Fin 16384) (v : BitVec 64) (s : State) : Host.Outcome State Fault Refusal :=
  .next (coreSignal s c.val n.val 3 v.toNat)

/-! ## Watches (R269 to R274, R398) -/

/-- Requests a watch: it is on its way to its hub; the timeout runs from now (R274). -/
def requestWatch (s : State) (ctr target : Nat) (waiter : Waiter) (part tag timeout : Nat) : State :=
  putSync s { s.sync with
    registering := s.sync.registering ++
      [⟨ctr, target, waiter, part, tag, timeout, if timeout = 0 then 0 else s.ao + 100 * timeout⟩] }

/-- The target raised by the replay bias for the partition's own units (R398). -/
def biased (s : State) (w : Watch) : Watch :=
  let c := getCounter s w.ctr
  if c.owner = w.part ∧ c.state = 1 then { w with target := (w.target + c.bias) % 2 ^ 64 } else w

/-- A WATCH that waited for its slot completes (R271). -/
def watchAdmitted (s : State) (w : Watch) : State :=
  match w.waiter with
  | .reg t x e r =>
    let v := getTile s t
    match v.inflight.find? (fun i => i.q.x == x && i.eng == e && i.why == .slot r) with
    | some i => putTile s t (completeInstr { v with inflight := v.inflight.filter (· != i) } i.q)
    | none => s
  | _ => s

/-- A watch takes a slot: it fires at once when the target holds, else it is armed (R272). -/
def admitWatch (s : State) (w : Watch) : State :=
  let s := watchAdmitted s w
  if w.target ≤ (getCounter s w.ctr).value then sendWhistle s w 0 true
  else
    let s := putSync s { s.sync with armed := s.sync.armed ++ [w] }
    let n := (s.sync.armed.filter (fun v => hubOf v.ctr == hubOf w.ctr)).length
    if getCtr s (0x4800 + hubOf w.ctr) 3 < n then setCtr s (0x4800 + hubOf w.ctr) 3 n else s

/-- A waiter that is a tile engine: a watch register, or a slot sum. -/
def isReg : Waiter → Bool
  | .reg _ _ _ _ | .tie _ => true
  | _ => false

/-- A registration reaches its hub (R271, R272, R278): ORPHANED on a counter without an owner, held for a slot when
there is none, else admitted. -/
def registerWatch (s : State) (w : Watch) : State :=
  let w := biased s w
  if (getCounter s w.ctr).state ≠ 1 then
    sendWhistle (hubCtr (watchAdmitted s w) w.ctr 5 1) w 1 false
  else if slotFree s (hubOf w.ctr) w.part then admitWatch s w
  else
    let s := if isReg w.waiter then s else hubCtr s w.ctr 10 1
    putSync s { s.sync with slotWaits := s.sync.slotWaits ++ [w] }

/-- Identity under which a watch's waiter is known, for its tag check; none where the waiter is no tagged unit. -/
def waiterUnit (w : Watch) : Option Nat :=
  match w.waiter with
  | .reg t _ e _ => some (unitId w.tag 0 (engNo e) t)
  | .tie t => some (unitId w.tag 0 2 t)
  | .pass2 d _ => some (unitId w.tag 4 0 d)
  | _ => none

/-- WATCH_REGISTER (R272): the k-th registration on its way reaches its hub; one whose unit's tag is stale is dropped
(R400). -/
def execWatchRegister (k : Nat) (s : State) : Host.Outcome State Fault Refusal :=
  match s.sync.registering[k]? with
  | none => .next s
  | some w =>
    .next (onceAtHub s w.ctr (fun s =>
      let s := putSync s { s.sync with registering := dropAt s.sync.registering k }
      match waiterUnit w with
      | some id => if isStale s id then staleDrop s (hubOf w.ctr) id w.part else registerWatch s w
      | none => registerWatch s w))

/-- WATCH_SLOT_FREED (R271): the k-th registration that waits for a slot takes one that is free. -/
def execWatchSlotFreed (k : Nat) (s : State) : Host.Outcome State Fault Refusal :=
  match s.sync.slotWaits[k]? with
  | none => .next s
  | some w =>
    if slotFree s (hubOf w.ctr) w.part then
      .next (admitWatch (putSync s { s.sync with slotWaits := dropAt s.sync.slotWaits k }) w)
    else .next s

/-- WATCH_TIMEOUT (R274): the timeout of the k-th watch of a list elapses: 0 on the way, 1 waiting for a slot,
2 armed. The watch completes with TIMEOUT. -/
def execWatchTimeout (list : Fin 3) (k : Nat) (s : State) : Host.Outcome State Fault Refusal :=
  let y := s.sync
  let l := if list.val = 0 then y.registering else if list.val = 1 then y.slotWaits else y.armed
  match l[k]? with
  | none => .next s
  | some w =>
    if w.timeout = 0 then .next s
    else
      let y := if list.val = 0 then { y with registering := dropAt y.registering k }
        else if list.val = 1 then { y with slotWaits := dropAt y.slotWaits k }
        else { y with armed := dropAt y.armed k }
      let s := wakeDomain (putSync s y) (20 + hubOf w.ctr)
      .next (sendWhistle (hubCtr (watchAdmitted s w) w.ctr 6 1) w 2 (list.val = 2))

/-! ## Delivery (R273, R281, R331) -/

/-- Key of watch register r of an engine and stream. -/
def watchKey (x : Stream) (e : Engine) (r : Nat) : Nat := streamNo x * 16 + engNo e * 4 + r

/-- A watch register. -/
def getWatch (v : Tile) (x : Stream) (e : Engine) (r : Nat) : WatchReg := mget WatchReg.reset v.watches (watchKey x e r)

/-- Writes a watch register. -/
def putWatch (v : Tile) (x : Stream) (e : Engine) (r : Nat) (w : WatchReg) : Tile :=
  { v with watches := mset WatchReg.reset v.watches (watchKey x e r) w }

/-- A WAIT on a fired register completes, or faults on ORPHANED or TIMEOUT without `tolerate` (R331). -/
def finishWait (s : State) (t : Nat) (q : QInstr) (e : Engine) (r status : Nat) : State :=
  let v := getTile s t
  let s := putTile s t (putWatch v q.x e r { getWatch v q.x e r with armed := false })
  if status ≠ 0 && fld q.w 98 98 == 0 then tileFault s t q.x (engNo e) q.pc q.seq ⟨7, status, 0⟩
  else completeAt s t q

/-- A whistle reaches a watch register. -/
def deliverReg (s : State) (t : Nat) (x : Stream) (e : Engine) (r status value : Nat) : State :=
  let v := getTile s t
  let v := putWatch v x e r { getWatch v x e r with fired := true, status := status, value := value }
  match v.inflight.find? (fun i => i.q.x == x && i.eng == e && i.why == .watch r) with
  | some i => finishWait (putTile s t { v with inflight := v.inflight.filter (· != i) }) t i.q e r status
  | none => putTile s t v

/-- A whistle reaches a slot-sum REDUCE (R327, R331). -/
def deliverTie (s : State) (t status : Nat) : State :=
  let v := getTile s t
  match v.inflight.find? (fun i => i.why == .tie) with
  | none => s
  | some i =>
    if status ≠ 0 then
      tileFault (putTile s t { v with inflight := v.inflight.filter (· != i) }) t i.q.x 2 i.q.pc i.q.seq ⟨7, status, 0⟩
    else putTile s t { v with inflight := v.inflight.map (fun j => if j == i then { j with why := .matrix } else j) }

/-- A whistle makes a work item READY, with any status (R292, R293). -/
def deliverItem (s : State) (die slot status value : Nat) : State :=
  putSched s { s.sched with items := s.sched.items.map (fun i =>
    if i.die = die ∧ i.slot = slot ∧ i.state = 1 then
      { i with state := 2, status := status, value := value, enqNs := nowNs s }
    else i) }

/-- Payload of a whistle's trace record (R492). -/
def whistleTrace (x : Whistle) : Nat :=
  let r := match x.w.waiter with | .reg _ _ _ r => r | _ => 0
  x.value % 2 ^ 64 + x.w.ctr * 2 ^ 64 + x.status * 2 ^ 80 + r * 2 ^ 84

/-- Delivers a whistle to its waiter. -/
def deliver (s : State) (x : Whistle) : State :=
  let s := traceRecord s 1 ((waiterUnit x.w).getD 0) x.w.part (whistleTrace x)
  match x.w.waiter with
  | .reg t st e r => deliverReg s t st e r x.status x.value
  | .tie t => deliverTie s t x.status
  | .item d k => deliverItem s d k x.status x.value
  | .pass2 _ _ | .gate _ _ => putSync s { s.sync with fired := s.sync.fired ++ [(x.w.waiter, x.status)] }

/-- Power domain that a whistle's waiter stands in: of a tile, a work scheduler or a memory die (R414, R417). -/
def whistleDom (s : State) (w : Watch) : Option Nat :=
  match w.waiter with
  | .reg t _ _ _ => some (tileDom s t)
  | .tie t => some (tileDom s t)
  | .item d _ => some (20 + d)
  | .pass2 d _ => some (24 + d)
  | .gate _ _ => none

/-- The waiter's domain where it is not ACTIVE, or has committed to leaving that state (R420, R421). -/
def asleepDom (s : State) (w : Watch) : Option Nat :=
  (whistleDom s w).filter (fun i => !domAwake s i)

/-- A whistle reaches its waiter's ACTIVE domain: its idle spell ends (R416). -/
def wakeWaiter (s : State) (w : Watch) : State :=
  match whistleDom s w with
  | some i => wakeDomain s i
  | none => s

/-- WHISTLE_ARRIVAL (R273, R281): the k-th whistle reaches its waiter; held while the waiter's partition is
pre-empted, except a work item's, which becomes READY and held (R299), and while the waiter's domain is not ACTIVE,
which it wakes (R420); dropped when the waiter's tag is stale. -/
def execWhistleArrival (k : Nat) (s : State) : Host.Outcome State Fault Refusal :=
  match s.sync.whistles[k]? with
  | none => .next s
  | some x =>
    let isItem := match x.w.waiter with | .item _ _ => true | _ => false
    if (getPart s x.w.part).state == .preempted && !isItem then .next s
    else
      match asleepDom s x.w with
      | some i => .next (wakeDomain s i)
      | none =>
        let s := putSync s { s.sync with whistles := dropAt s.sync.whistles k }
        match waiterUnit x.w with
        | some id => if isStale s id then .next (staleDrop s (hubOf x.w.ctr) id x.w.part) else .next (deliver (wakeWaiter s x.w) x)
        | none => .next (deliver (wakeWaiter s x.w) x)

/-! ## Orphaning and cancelling (R278, R280) -/

/-- The watches of a partition's own units are cancelled without a whistle (R280); whistles on their way to them
go with them. -/
def cancelWatches (s : State) (p : Nat) : State :=
  let keep := fun (w : Watch) => w.part != p
  putSync s { s.sync with
    registering := s.sync.registering.filter keep, slotWaits := s.sync.slotWaits.filter keep
    armed := s.sync.armed.filter keep, whistles := s.sync.whistles.filter (fun x => keep x.w) }

/-- One counter is orphaned: other units' watches complete with ORPHANED (R278). -/
def orphanCounter (s : State) (n : Nat) : State :=
  let c := getCounter s n
  let s := putCounter s n { c with state := 2 }
  let mine := fun (w : Watch) => w.ctr == n
  let armed := s.sync.armed.filter mine
  let waiting := s.sync.slotWaits.filter mine
  let s := putSync s { s.sync with
    armed := s.sync.armed.filter (fun w => !mine w), slotWaits := s.sync.slotWaits.filter (fun w => !mine w) }
  let s := armed.foldl (fun s w => sendWhistle (hubCtr s n 5 1) w 1 true) s
  let s := waiting.foldl (fun s w => sendWhistle (hubCtr (watchAdmitted s w) n 5 1) w 1 false) s
  if armed.isEmpty && waiting.isEmpty then s else raise s 0x0401 c.owner 0 [n, c.value]

/-- The counters of a partition's range. -/
def countersOf (q : Part) : List Nat := upFrom q.ctrFirst q.ctrCount

/-- Every counter of a partition is orphaned (R278), the partition's own watches first cancelled. -/
def orphanAll (s : State) (p : Nat) : State := (countersOf (getPart s p)).foldl orphanCounter (cancelWatches s p)

/-- A counter at 0, with no bias, in a state and with an owner; the record of its last signal stays (R282). -/
def freshCounter (s : State) (n st p : Nat) : State :=
  putCounter s n { getCounter s n with value := 0, state := st, owner := p, bias := 0, sumEven := 0, sumOdd := 0 }

/-- A counter is made OWNED at 0 (R260, R398). -/
def ownCounter (p : Nat) (s : State) (n : Nat) : State := freshCounter s n 1 p

/-- A counter of a dissolved partition is FREE at 0 (R260). -/
def releaseCounter (s : State) (n : Nat) : State := freshCounter s n 0 0

/-- Replay bias of a restart: both step sums join the bias (R398). -/
def addBias (s : State) (n : Nat) : State :=
  let c := getCounter s n
  putCounter s n { c with bias := (c.bias + c.sumEven + c.sumOdd) % 2 ^ 64, sumEven := 0, sumOdd := 0 }

/-- The boundary of step t clears the sum of its parity (R398). -/
def clearSum (t : Nat) (s : State) (n : Nat) : State :=
  let c := getCounter s n
  putCounter s n (if t % 2 = 0 then { c with sumEven := 0 } else { c with sumOdd := 0 })

/-! ## Inspection (R282 to R284) -/

/-- One entry of the watch list, most significant byte first in each field (R284). -/
def watchEntry (s : State) (w : Watch) (fired : Bool) : List Byte :=
  let id := match w.waiter with
    | .reg t _ e _ => unitId w.tag 0 (engNo e) t
    | .tie t => unitId w.tag 0 2 t
    | .item d k => Config.waiterId (d * 8192 + k)
    | .pass2 d _ => unitId w.tag 4 0 d
    | .gate p e => Config.waiterId (2 ^ 16 + p * 4096 + e)
  let r := match w.waiter with | .reg _ _ _ r => r | _ => 0xFF
  let left := if w.timeout = 0 then 0 else ceilDiv (w.due - s.ao) 100
  toBytesBE 8 w.target ++ toBytesBE 4 id ++ toBytesBE 1 r ++ toBytesBE 1 (if fired then 1 else 0) ++ toBytesBE 2 left

/-- The snapshot of a counter. -/
def syncSnap (s : State) (n : Nat) : SyncSnap :=
  let l := sortBy (fun (a b : Watch × Bool) => decide (a.1.target < b.1.target))
    ((s.sync.armed.filter (fun w => w.ctr == n)).map (fun w => (w, false)) ++
      (s.sync.whistles.filter (fun x => x.slot && x.w.ctr == n && (getPart s x.w.part).state == .preempted)).map
        (fun x => (x.w, true)))
  { sel := n, ctr := getCounter s n, waiters := (l.filter (fun e => !e.2)).length
    list := (l.take 256).flatMap (fun e => watchEntry s e.1 e.2) }

/-- SYNC_SELECT (R282): a write of a counter number takes a snapshot; a number above 16,383 is refused. -/
def execSyncSelect (n : BitVec 16) (s : State) : Host.Outcome State Fault Refusal :=
  if n.toNat < 16384 then .next (putSync s { s.sync with snap := syncSnap s n.toNat }) else .next s

/-! ## SIGNAL, WATCH and WAIT at a tile engine (R264, R270, R328 to R331) -/

/-- Device address of a counter line. -/
def counterAddr (n : Nat) : Nat := 0x040200000000 + n * 64

/-- An earlier instruction of the engine and stream has writes that a SIGNAL covers and that are not complete
(R264). -/
def uncovered (v : Tile) (q : QInstr) (e : Engine) : Bool :=
  v.inflight.any (fun i => i.q.x == q.x && lastEng i.q.w == e && seqBefore i.q.seq q.seq &&
    (match i.why with
     | .load | .acks _ | .vexec | .tie | .side | .matrix | .store _ _ => true
     | _ => false))

/-- A local SIGNAL leaves its engine (R263, R398). -/
def emitSignal (s : State) (p t : Nat) (q : QInstr) : State :=
  let e := lastEng q.w
  let isMax := fld q.w 101 101 == 1
  sendSignal s { ctr := fld q.w 89 76, isMax := isMax, operand := fld q.w 63 0, unit := tileUnit s t e
                 stream := streamNo q.x, part := p, counted := some q.step }

/-- The start of a local SIGNAL. -/
def startSignal (s : State) (p t : Nat) (q : QInstr) : Started :=
  let n := fld q.w 89 76
  if !ownsCounter s p n then .fault ⟨6, 2, counterAddr n⟩
  else if uncovered (getTile s t) q (lastEng q.w) then .going s .cover 0
  else .done (emitSignal s p t q)

/-- Requests the watch of a WATCH or inline WAIT on its register. -/
def armRegister (s : State) (p t : Nat) (q : QInstr) : State :=
  let e := lastEng q.w
  let r := fld q.w 101 100
  let v := getTile s t
  let s := putTile s t (putWatch v q.x e r { armed := true, fired := false, status := 3, value := 0 })
  requestWatch s (fld q.w 97 84) q.target (.reg t q.x e r) p (tagOf s t) (fld q.w 83 68)

/-- The fault of a WATCH or inline WAIT (R270, R279, R329). -/
def watchFault (s : State) (p t : Nat) (q : QInstr) : Option IFault :=
  let w := getWatch (getTile s t) q.x (lastEng q.w) (fld q.w 101 100)
  if w.armed then some ⟨5, 0, 0⟩
  else if !(ownsCounter s p (fld q.w 97 84) || mayWatch s p (fld q.w 97 84)) then
    some ⟨6, 2, counterAddr (fld q.w 97 84)⟩
  else none

/-- Registrations on their way to a hub for a partition count against its free slots. -/
def slotLikely (s : State) (hub p : Nat) : Bool :=
  let onWay := fun (f : Watch → Bool) => (s.sync.registering.filter (fun w => hubOf w.ctr == hub && f w)).length +
    (s.sync.slotWaits.filter (fun w => hubOf w.ctr == hub && w.part == p)).length
  decide (slotsHeld s hub (fun _ => true) + onWay (fun _ => true) < 16384) &&
    decide (slotsHeld s hub (· == p) + onWay (fun w => w.part == p) < settingAt s (1 + p) 0x3503 (p + 1))

/-- The start of a WATCH (R270, R271). -/
def startWatch (s : State) (p t : Nat) (q : QInstr) : Started :=
  match watchFault s p t q with
  | some f => .fault f
  | none =>
    if slotLikely s (hubOf (fld q.w 97 84)) p then .done (armRegister s p t q)
    else .going (armRegister s p t q) (.slot (fld q.w 101 100)) 0

/-- The start of a WAIT: form 1 registers and blocks; form 0 blocks on an armed register, or completes at once when it
has fired (R270, R329, R331). -/
def startWait (s : State) (p t : Nat) (q : QInstr) : Started :=
  let e := lastEng q.w
  let r := fld q.w 101 100
  if wForm q.w = 1 then
    match watchFault s p t q with
    | some f => .fault f
    | none => .going (armRegister s p t q) (.watch r) 0
  else
    let v := getTile s t
    let w := getWatch v q.x e r
    if !w.armed then .fault ⟨5, 0, 0⟩
    else if w.fired then
      if w.status ≠ 0 && fld q.w 98 98 == 0 then .fault ⟨7, w.status, 0⟩
      else .done (putTile s t (putWatch v q.x e r { w with armed := false }))
    else .going s (.watch r) 0

end Sys2Proof.Machine
end

