-- ==== Sys2Proof/Machine/Sched.lean ====
section
/-! DEFINITION. Machine/Sched.lean: the work schedulers: enqueueing, dispatch, the end of items, aging, restart and
pre-emption (13). -/

namespace Sys2Proof.Machine

/-! ## The descriptor (R289, R290) -/

/-- Field of a work-item descriptor. -/
def itemFld (d : BitVec 512) (hi lo : Nat) : Nat := bits d.toNat hi lo

/-- `item_id`. -/
def itemId (d : BitVec 512) : Nat := itemFld d 55 40

/-- The planner's work item: a system item at level 7 (R213). Its other words the spec does not state: its entry in the
system area, neither watch nor done_counter of its own (R288; log 83, DESIGN CHOICE). -/
def plannerItem : BitVec 512 :=
  BitVec.ofNat 512 (1 + 7 * 2 ^ 4 + 0xE0000 * 2 ^ 96 + 0xFFFFFFFF * 2 ^ 128 + 0xFFFFFFFF * 2 ^ 160)

/-- The partition's cores of a die (R287). -/
def coresOn (s : State) (p d : Nat) : List Nat := (getPart s p).cores.filter (fun c => c / 24 == d)

/-- The cores that an affinity names; all for 0. -/
def affine (aff : Nat) (l : List Nat) : List Nat := if aff = 0 then l else l.filter (fun c => bitSet aff (c % 24))

/-- The partition takes no items: forming, restarting, held or unformed (R290 code 7). -/
def itemsClosed (s : State) (p : Nat) : Bool :=
  match (getPart s p).state with
  | .forming | .restarting | .held | .unformed => true
  | _ => false

/-- Why a descriptor is refused, lowest code; none when accepted (R290). The planner runs system code, whose entry the
third reason cannot mean (R288). -/
def refusalOf (s : State) (d p : Nat) (byModule : Bool) (x : BitVec 512) : Option Nat :=
  let wc := itemFld x 191 160
  let dc := itemFld x 159 128
  if itemFld x 3 0 ≠ 1 || itemFld x 39 7 ≠ 0 then some 1
  else if itemFld x 6 4 = 7 && !byModule then some 2
  else if itemFld x 127 96 % 4 ≠ 0 || (0xE0000 ≤ itemFld x 127 96 && !(byModule && x == plannerItem)) then some 3
  else if (affine (itemFld x 95 72) (coresOn s p d)).isEmpty then some 4
  else if (wc ≠ 0xFFFFFFFF && !(ownsCounter s p wc || mayWatch s p wc)) ||
      (dc ≠ 0xFFFFFFFF && !ownsCounter s p dc) then some 5
  else if itemsClosed s p then some 7
  else none

/-- An item is refused: counted and raised (R290). -/
def refuseItem (s : State) (d p code id : Nat) : State :=
  raise (addCtr s (0x4900 + d) 12 1) 0x0501 p 0 [code, id]

/-! ## Slots (R291, R292) -/

/-- Items of a die. -/
def itemsOn (s : State) (d : Nat) : List Item := s.sched.items.filter (fun i => i.die == d)

/-- A slot of the die is free for the partition (R291). -/
def slotOpen (s : State) (d p : Nat) : Bool :=
  decide ((itemsOn s d).length < 8192) &&
    decide (((itemsOn s d).filter (fun i => i.part == p)).length < setting s 0x3602 (p + 1))

/-- The lowest free slot number of a die. -/
def freeSlot (s : State) (d : Nat) : Nat :=
  ((upFrom 0 8192).find? (fun k => !(itemsOn s d).any (fun i => i.slot == k))).getD 0

/-- A descriptor takes a slot: READY, or WATCHING its counter (R289, R292). -/
def takeSlot (s : State) (d p : Nat) (x : BitVec 512) : State :=
  let k := freeSlot s d
  let wc := itemFld x 191 160
  let it : Item :=
    { die := d, slot := k, part := p, desc := x, state := if wc = 0xFFFFFFFF then 2 else 1, level := itemFld x 6 4
      system := itemFld x 6 4 == 7, enqNs := nowNs s, status := 0, value := 0, core := 0, startNs := 0 }
  let s := addCtr (putSched s { s.sched with items := s.sched.items ++ [it] }) (0x4900 + d) 11 1
  if wc = 0xFFFFFFFF then s else requestWatch s wc (itemFld x 255 192) (.item d k) p 0 (itemFld x 71 56)

/-- An enqueue write reaches its port: refused, held for a slot, or accepted (R290, R291). The answer says whether it
is held. -/
def enqueue (s : State) (d p : Nat) (src : EnqSource) (whole : Bool) (x : BitVec 512) : State × Bool :=
  let s := wakeDomain s (20 + d)
  if !whole then (refuseItem s d p 6 0, false)
  else
    match refusalOf s d p (src == .module) x with
    | some c => (refuseItem s d p c (itemId x), false)
    | none =>
      if slotOpen s d p then (takeSlot s d p x, false)
      else
        (putSched (addCtr s (0x4900 + d) 13 1) { s.sched with held := s.sched.held ++ [⟨d, p, src, x⟩] }, true)

/-- The writer of a held enqueue write goes on: a STORE completes, an LFT packet is settled as landed (R291, R300). -/
def releaseWriter (s : State) (p : Nat) (src : EnqSource) : State :=
  match src with
  | .tile t x seq =>
    let v := getTile s t
    match v.inflight.find? (fun i => i.q.x == x && i.q.seq == seq && i.why == .enqueue) with
    | some i => putTile s t (completeInstr { v with inflight := v.inflight.filter (· != i) } i.q)
    | none => s
  | .flow peer seq => settleSeq (seenSeq s peer p seq) peer p seq
  | _ => s

/-- A work core's write to the enqueue port of die d; the partition is the core's. -/
def coreEnqueue (s : State) (d c : Nat) (whole : Bool) (desc : BitVec 512) : State :=
  fromCore s c (fun s =>
    match partOfCore s c with
    | none => s
    | some p => (enqueue s d p (.core c) whole desc).1)

/-- ENQUEUE (R289 to R292): a work core that runs an item writes the enqueue port of die d. -/
def execEnqueue (d : Fin 4) (c : Fin 96) (whole : Bool) (desc : BitVec 512) (s : State) :
    Host.Outcome State Fault Refusal :=
  .next (if coreGoes s c.val then coreEnqueue s d.val c.val whole desc else s)

/-- The identity under which a held enqueue write came, where its writer has lost its place since (R400, R401). -/
def staleWriter (s : State) (h : HeldEnq) : Option Nat :=
  match h.src with
  | .core c => if isStale s (coreUnit s c) then some (coreUnit s c) else none
  | .tile t _ _ => if tilePresent s t then none else some (unitId ((tagOf s t + 0xFFFD) % 0xFFFF + 1) 0 3 t)
  | _ => none

/-- ENQUEUE_SLOT_FREED (R291): the k-th held enqueue write takes a slot that is free for it; one of a unit that was
declared dead is dropped (R400). -/
def execEnqueueSlotFreed (k : Nat) (s : State) : Host.Outcome State Fault Refusal :=
  match s.sched.held[k]? with
  | none => .next s
  | some h =>
    let s' := putSched s { s.sched with held := dropAt s.sched.held k }
    match staleWriter s h with
    | some id => .next (staleDrop s' h.die id h.part)
    | none =>
    if slotOpen s h.die h.part then
      let s := s'
      .next (releaseWriter (takeSlot s h.die h.part h.desc) h.part h.src)
    else .next s

/-! ## Dispatch (R293, R296) -/

/-- The items that a core may run now (R287, R296, R299). -/
def runnable (s : State) (c p : Nat) : List Item :=
  if (getPart s p).state == .preempted then []
  else s.sched.items.filter (fun i =>
    i.state == 2 && i.die == c / 24 && i.part == p &&
      (itemFld i.desc 95 72 == 0 || bitSet (itemFld i.desc 95 72) (c % 24)))

/-- The item that a core takes: the highest level, then the oldest, then the lowest slot (R296). -/
def chooseItem (l : List Item) : Option Item :=
  l.foldl (fun b i =>
    match b with
    | none => some i
    | some j =>
      if j.level < i.level || (j.level = i.level &&
        (i.enqNs < j.enqNs || (i.enqNs = j.enqNs && i.slot < j.slot))) then some i else b) none

/-- Registers of an item at its start (R293), by register number. -/
def itemRegs (i : Item) : Map (BitVec 64) :=
  let set := fun (m : Map (BitVec 64)) (k v : Nat) => mset 0 m k (BitVec.ofNat 64 v)
  let m := mset 0 [] 1 (Config.exitAddr i.die)
  let m := set m 2 0xFFFFFFFFFFFDFFF0
  let m := set (set m 10 (itemFld i.desc 319 256)) 11 (itemFld i.desc 383 320)
  let m := set (set m 12 (itemFld i.desc 447 384)) 13 (itemFld i.desc 511 448)
  set (set (set m 14 i.status) 15 i.value) 16 i.slot

/-- A core takes an item, with the run limit committed now (R302). -/
def startItem (s : State) (c : Nat) (i : Item) : State :=
  let s := takeSetting s (i.die + 1) 0x3600 4
  let pr := itemFld i.desc 6 4
  let wait := nowNs s - i.enqNs
  let co := mget Core.reset s.sched.cores c
  let s := putSched s { s.sched with
    items := s.sched.items.map (fun j =>
      if j.die = i.die ∧ j.slot = i.slot then { j with state := 3, core := c, startNs := nowNs s } else j)
    cores := mset Core.reset s.sched.cores c
      { Core.reset with
        busy := true, tag := tagOf s (unitNo 1 c), slot := i.slot, pc := 0xFFFFFFFFFFF00000 + itemFld i.desc 127 96, regs := itemRegs i
        idleFromNs := co.idleFromNs } }
  let k := 0x4900 + i.die
  let s := addCtr (addCtr s k (0x11 + pr) 1) k (0x19 + pr) wait
  let s := if getCtr s k (0x21 + pr) < wait then setCtr s k (0x21 + pr) wait else s
  let s := addCtr s (0x4A00 + c) 2 (nowNs s - co.idleFromNs)
  traceRecord s 2 (coreUnit s c) i.part
    (itemFld i.desc 319 256 + itemId i.desc * 2 ^ 64 + i.slot * 2 ^ 80 + i.level * 2 ^ 96)

/-- A core is free to take items. -/
def coreFree (s : State) (c : Nat) : Bool := !coreActive s c && !s.units.out.contains (unitNo 1 c)

/-- The item that a core would take. -/
def coreChoice (s : State) (c : Nat) : Option Item := (partOfCore s c).bind (fun p => chooseItem (runnable s c p))

/-- A core of the die with a lower number became free at the same moment and would take the same item: it chooses first
(R296). -/
def yieldsTo (s : State) (c : Nat) : Bool :=
  (upFrom (c / 24 * 24) (c % 24)).any (fun b => coreFree s b && coreChoice s b == coreChoice s c &&
    (mget Core.reset s.sched.cores b).idleFromNs == (mget Core.reset s.sched.cores c).idleFromNs)

/-- A free core takes the oldest READY item of the highest level that it may run (R296). -/
def dispatchItem (s : State) (c : Nat) : State :=
  if !coreFree s c then s
  else
    match coreChoice s c with
    | none => s
    | some i => if yieldsTo s c then s else startItem s c i

/-- ITEM_DISPATCH (R296). -/
def execItemDispatch (c : Fin 96) (s : State) : Host.Outcome State Fault Refusal := .next (dispatchItem s c.val)

/-! ## The end of an item (R294) -/

/-- The item that a core runs. -/
def runningItem (s : State) (c : Nat) : Option Item :=
  s.sched.items.find? (fun i => i.state == 3 && i.core == c && i.die == c / 24)

/-- The core is free and the slot with it; the core's counters grow (R301). -/
def freeCore (s : State) (c : Nat) (i : Item) : State :=
  let t := nowNs s - i.startNs
  let s := putSched s { s.sched with
    items := s.sched.items.filter (fun j => !(j.die == i.die && j.slot == i.slot))
    cores := mset Core.reset s.sched.cores c { Core.reset with idleFromNs := nowNs s } }
  let s := addCtr (addCtr s (0x4A00 + c) 1 t) (0x4A00 + c) 3 1
  if getCtr s (0x4A00 + c) 4 < t then setCtr s (0x4A00 + c) 4 t else s

/-- The item of a core returns with a status (R294): its `done_counter` is signalled, which takes effect once the item's
stores are written and visible (R264). What a core with a stale tag says reaches nothing (R401). -/
def itemReturns (s : State) (c : Nat) (status : Nat) : State :=
  match runningItem s c with
  | none => s
  | some i =>
    fromCore s c (fun s =>
    let s := freeCore s c i
    let s := if status = 0 then s
      else raise (addCtr s (0x4900 + i.die) 16 1) 0x0504 i.part (coreUnit s c) [itemId i.desc, status]
    signalOne s i.part (itemFld i.desc 159 128) (coreUnit s c))

/-- The item of a core takes a RISC-V exception: nothing is signalled and the partition restarts (R294). -/
def itemFaults (s : State) (c cause pc : Nat) : State :=
  match runningItem s c with
  | none => s
  | some i =>
    let s := freeCore s c i
    addCause (raise s 0x0502 i.part (coreUnit s c) [itemId i.desc, cause, pc]) i.part 0x0502

/-- ITEM_RETURN (R294): the item returns with its status; its stores are acknowledged and done_counter is
signalled. A core that stalls goes no further (R291); the planner returns by PLAN_BUILT. -/
def execItemReturn (c : Fin 96) (status : BitVec 64) (s : State) : Host.Outcome State Fault Refusal :=
  .next (if coreStalled s c.val || (runningItem s c.val).any (fun i => i.desc == plannerItem) then s else itemReturns s c.val status.toNat)

/-- ITEM_FAULT (R294): the item takes a RISC-V exception. -/
def execItemFault (c : Fin 96) (cause pc : BitVec 64) (s : State) : Host.Outcome State Fault Refusal :=
  .next (if coreStalled s c.val then s else itemFaults s c.val cause.toNat pc.toNat)

/-- A work core's store to a doorbell of partition p: the core runs an item of p; another partition's doorbell is an
access fault of its item (R288). -/
def byCore (s : State) (c p : Nat) (f : State → State) : State :=
  if !coreGoes s c then s
  else if partOfCore s c = some p then fromCore s c f
  else itemFaults s c 7 (mget Core.reset s.sched.cores c).pc

/-- ITEM_OVERRUN (R294): an item still RUNNING after the run limit is stopped, its held write with it; nothing is signalled
and the partition restarts. -/
def execItemOverrun (c : Fin 96) (s : State) : Host.Outcome State Fault Refusal :=
  match runningItem s c.val with
  | none => .next s
  | some i =>
    let s := freeCore s c.val i
    let s := putSched s { s.sched with held := s.sched.held.filter (fun h => h.src != .core c.val) }
    .next (addCause (raise s 0x0503 i.part (coreUnit s c.val) [itemId i.desc, c.val]) i.part 0x0503)

/-! ## Aging (R297) -/

/-- The level that aging gives an item. -/
def agedLevel (now per : Nat) (i : Item) : Nat := min 6 (itemFld i.desc 6 4 + (now - i.enqNs) / per)

/-- The item ages: READY, not held, of priority 6 or below. -/
def ages (s : State) (i : Item) : Bool :=
  i.state == 2 && (getPart s i.part).state != .preempted && decide (itemFld i.desc 6 4 ≤ 6)

/-- AGING_EVALUATION (R297): the scheduler of die d raises starved items, by the period committed now (R302). -/
def execAgingEvaluation (d : Fin 4) (s : State) : Host.Outcome State Fault Refusal :=
  let s := takeSetting s (d.val + 1) 0x3600 1
  let per := setting s 0x3600 1
  if per = 0 then .next s
  else
    let lvl := fun (i : Item) => agedLevel (nowNs s) (per * 1000) i
    let gain := sumOf (s.sched.items.map (fun i =>
      if i.die == d.val && ages s i && decide (i.level < lvl i) then lvl i - i.level else 0))
    .next (addCtr (putSched s { s.sched with items := s.sched.items.map (fun i =>
      if i.die == d.val && ages s i && decide (i.level < lvl i) then { i with level := lvl i } else i) })
      (0x4900 + d.val) 14 gain)

/-! ## Restart and resumption (R299, R300) -/

/-- A restart, STOP or hold stops the partition's items, frees their slots and refuses its held writes (R300). -/
def cancelItems (s : State) (p : Nat) : State :=
  let mine := s.sched.items.filter (fun i => i.part == p)
  let s := mine.foldl (fun s i => if i.state = 3 then freeCore s i.core i else s) s
  let s := mine.foldl (fun s i => addCtr s (0x4900 + i.die) 15 1) s
  let held := s.sched.held.filter (fun h => h.part == p)
  let s := putSched s { s.sched with
    items := s.sched.items.filter (fun i => i.part != p), held := s.sched.held.filter (fun h => h.part != p) }
  held.foldl (fun s h => releaseWriter (refuseItem s h.die p 7 (itemId h.desc)) p h.src) s

/-- Resumption advances the enqueue time of held items by the time they were READY while held (R299). -/
def resumeItems (s : State) (p since : Nat) : State :=
  putSched s { s.sched with items := s.sched.items.map (fun i =>
    if i.part = p ∧ i.state = 2 then { i with enqNs := i.enqNs + (nowNs s - max i.enqNs since) } else i) }

end Sys2Proof.Machine
end

