-- ==== Sys2Proof/Machine/Lft.lean ====
section
/-! DEFINITION. Machine/Lft.lean: fabric transport: peers, flows, packets sent and received, the remote-effect ledger,
window reads, loss of paths and peers (16 R363 to R374, R377 to R379; 15 R345 to R349; 11 R239 to R241). -/

namespace Sys2Proof.Machine

/-! ## Peer entries (R363 to R365) -/

/-- A peer. -/
def getPeer (s : State) (n : Nat) : Peer := mget Peer.reset s.lft.peers n

/-- Writes a peer. -/
def putPeer (s : State) (n : Nat) (v : Peer) : State :=
  putLft s { s.lft with peers := mset Peer.reset s.lft.peers n v }

/-- Field of a peer entry. -/
def peerFld (s : State) (n hi lo : Nat) : Nat := bits (getPeer s n).entry.toNat hi lo

/-- The entry is enabled. -/
def peerOn (s : State) (n : Nat) : Bool := peerFld s n 26 26 == 1

/-- The entry is the module itself. -/
def peerSelf (s : State) (n : Nat) : Bool := peerOn s n && peerFld s n 27 27 == 1

/-- Exactly one enabled entry has `self` set (R365). -/
def selfOk (s : State) : Bool :=
  (s.lft.peers.filter (fun e => peerSelf s e.1)).length == 1

/-- The module's own peer number. -/
def selfPeer (s : State) : Nat := ((s.lft.peers.find? (fun e => peerSelf s e.1)).map Prod.fst).getD 0

/-- The remote partition that an entry binds a partition to (R364). -/
def boundTo (s : State) (n p : Nat) : Option Nat :=
  let b := peerFld s n (112 + 5 * p + 4) (112 + 5 * p)
  if peerOn s n && bitSet b 4 then some (b % 16) else none

/-- The peer carries sequenced packets (R365, R369). -/
def peerUp (s : State) (n : Nat) : Bool :=
  peerOn s n && (if peerSelf s n then selfOk s else peerFld s n 33 32 == 2)

/-- A field of an entry replaced. -/
def withBits (w : BitVec 512) (hi lo v : Nat) : BitVec 512 :=
  BitVec.ofNat 512 (w.toNat - bits w.toNat hi lo * 2 ^ lo + (v % 2 ^ (hi + 1 - lo)) * 2 ^ lo)

/-- Sets an entry's `state` (R363). -/
def setPeerState (s : State) (n st : Nat) : State :=
  let v := getPeer s n
  putPeer s n { v with entry := withBits v.entry 33 32 st }

/-- The entry's paths may use a sub-port: preferred, or a fallback (R363, R370). -/
def pathOf (s : State) (n sub : Nat) : Bool :=
  bitSet (peerFld s n 319 192) sub || bitSet (peerFld s n 63 48) (sub / 8)

/-- The peers that are not enabled loopbacks and may use a sub-port. -/
def peersOn (s : State) (sub : Nat) : List Nat :=
  (s.lft.peers.map Prod.fst).filter (fun n => peerOn s n && !peerSelf s n && pathOf s n sub)

/-- The state that an enabled entry without an agreed path has: HELLO when a path's link is up, else DOWN. -/
def idlePeerState (s : State) (n : Nat) : Nat := if s.ports.links.any (fun l => pathOf s n l) then 1 else 0

/-! ## Sending (R366, R370) -/

/-- A counter of the transport (R387). -/
def lftCtr (s : State) (sub n : Nat) : State := addCtr s 0x4C00 sub n

/-- Bytes queued on a path. -/
def queuedOn (s : State) (path : Nat) : Nat :=
  sumOf ((s.lft.out.filter (fun o => o.path == path)).map (fun o => 32 + o.p.payload.length))

/-- The path of a packet: the UP direct path with the fewest queued bytes, else such a switch path (R370); `not`
is avoided where another is UP (R372). -/
def choosePath (s : State) (n : Nat) (avoid : Option Nat) : Option Nat :=
  let ups := (getPeer s n).paths.map Prod.fst
  let pick := fun (l : List Nat) => l.foldl (fun b x =>
    match b with
    | none => some x
    | some y => if queuedOn s x < queuedOn s y then some x else some y) none
  let best := fun (l : List Nat) =>
    (pick (l.filter (fun x => bitSet (peerFld s n 319 192) x))).orElse fun _ => pick l
  match avoid with
  | none => best ups
  | some a => (best (ups.filter (· != a))).orElse fun _ => best ups

/-- Hands a packet to a port. -/
def emitPkt (s : State) (o : OutPkt) : State :=
  putLft (lftCtr s 1 1) { s.lft with out := s.lft.out ++ [o] }

/-- Hands an unsequenced packet for a peer to a port. -/
def emitCtl (s : State) (n part : Nat) (p : Packet) : State :=
  match choosePath s n none with
  | none => s
  | some path => emitPkt s { id := 0, peer := n, part := part, origin := none, path := path, p := p }

/-- The header that this module sends a peer from a partition. -/
def headFor (s : State) (n part typ : Nat) : Packet :=
  { version := max 1 (peerFld s n 31 28), typ := typ, retx := false, srcPeer := (getPeer s n).youAre, srcPart := part
    dstPart := (boundTo s n part).getD 0, seq := 0, aux := 0, addr := 0, operand := 0, payload := [] }

/-- The body of a HELLO (R368). -/
def helloBody (s : State) (n sub : Nat) : List Byte :=
  toBytesBE 8 Config.moduleId.toNat ++ toBytesBE 8 s.lft.incarnation ++ toBytesBE 2 0x0002 ++ toBytesBE 2 n ++
    toBytesBE 1 sub ++ toBytes 43 0

/-- Sends a HELLO on a path. -/
def sendHello (s : State) (n sub : Nat) : State :=
  emitPkt s { id := 0, peer := n, part := 0, origin := none, path := sub
              p := { headFor s n 0 0 with dstPart := 0, payload := helloBody s n sub } }

/-- The first bits of an ACK's landed map (R367): bit i for sequence watermark + 2 + i. -/
def ackMap (f : Flow) : Nat :=
  sumOf ((upFrom 0 64).map (fun i => if f.landed.contains ((f.wm + 2 + i) % 2 ^ 32) then 2 ^ i else 0))

/-- Sends an ACK of a flow (R367, R372); the grant is the flow's credits less the packets held (log 20, DESIGN CHOICE). -/
def sendAck (s : State) (n part : Nat) : State :=
  let f := getFlow s n part
  let mine := fun (h : HeldSignal) => h.peer == n && h.part == part
  let held := (s.sync.held.filter mine).length + (s.sync.kept.filter mine).length +
    (s.sched.held.filter (fun h => match h.src with | .flow peer _ => peer == n && h.part == part | _ => false)).length
  let s := emitCtl s n part { headFor s n part 6 with
    seq := f.wm, aux := setting s 0x1120 5 - held, operand := ackMap f }
  putFlow s n part { getFlow s n part with sinceAck := 0 }

/-- Sends a NAK of a packet (R373). -/
def sendNak (s : State) (n : Nat) (h : Packet) (seq code : Nat) : State :=
  emitCtl s n h.dstPart { headFor s n h.dstPart 7 with dstPart := h.srcPart, seq := seq, aux := code }

/-! ## Effects and their completion (R321, R346, R347, R372, R373) -/

/-- A packet of a tile's effect needs nothing more: the instruction completes when it was the last. -/
def effectDone (s : State) (t id : Nat) : State :=
  let v := getTile s t
  match v.inflight.find? (fun i => match i.why with | .acks l => l.contains id | _ => false) with
  | none => s
  | some i =>
    let l := match i.why with | .acks l => l.filter (· != id) | _ => []
    if l.isEmpty then finishInstr s t { v with inflight := v.inflight.filter (· != i) } i.q
    else putTile s t { v with inflight := v.inflight.map (fun j => if j == i then { j with why := .acks l } else j) }

/-- The ledger entry's key matches an effect (R346). -/
def ledgerIs (p : Nat) (e : Effect) (l : LedgerEntry) : Bool :=
  l.part == p && l.tile == e.tile && l.eng == e.eng && l.x == e.x && l.step == e.step && l.ord == e.ord

/-- Records an accepted chunk or SIGNAL (R346, R348). -/
def recordEffect (s : State) (peer p : Nat) (e : Effect) : State :=
  match e.chunk with
  | none => s
  | some c =>
    match s.lft.ledger.find? (ledgerIs p e) with
    | some _ => putLft s { s.lft with
        ledger := s.lft.ledger.map (fun l => if ledgerIs p e l then { l with mask := l.mask ||| 2 ^ c } else l) }
    | none =>
      if s.lft.ledger.length < 131072 then
        putLft s { s.lft with ledger := s.lft.ledger ++
          [{ part := p, tile := e.tile, eng := e.eng, x := e.x, step := e.step, ord := e.ord, peer := peer
             far := e.far, mask := 2 ^ c }] }
      else if s.lft.ledgerFull.contains (p, e.step) then s
      else raise (putLft s { s.lft with ledgerFull := s.lft.ledgerFull ++ [(p, e.step)] }) 0x090C p 0 [e.step]

/-! ## Receiving (R371 to R374) -/

/-- The die whose enqueue port an address is. -/
def enqueuePort (a : Nat) : Option Nat :=
  (upFrom 0 4).find? (fun d => (Config.enqueueAddr d).toNat == a)

/-- The refusal code of one line of a WRITE or READ; 0 none (R373). -/
def lineCode (s : State) (part a op : Nat) (read : Bool) : Nat :=
  let q := getPart s part
  let c2 := fun (b : Bool) => if b then 0 else 2
  match placeOf a with
  | .t1 g => c2 (bitSet q.memGroups g)
  | .tile t off => if !bitSet q.groups (t / 4) then 2 else if off ≥ storeBytes || !tilePresent s t then 3 else 0
  | .landing _ off => c2 (inShare q off)
  | .control _ =>
    if read || (enqueuePort a).isNone then 3 else if op ≠ 0 then 4 else 0
  | _ => 3

/-- The lowest nonzero code. -/
def lowestCode (l : List Nat) : Nat :=
  l.foldl (fun b c => if c = 0 then b else if b = 0 || c < b then c else b) 0

/-- The refusal code of a sequenced packet from a peer (R373); 0 none. -/
def refusalCode (s : State) (n : Nat) (h : Packet) : Nat :=
  let bound := boundTo s n h.dstPart == some h.srcPart
  let closed := match (getPart s h.dstPart).state with
    | .forming | .restarting | .held => true
    | _ => false
  let port := h.typ = 1 && (enqueuePort h.addr).isSome
  let len := if h.typ = 1 then h.payload.length else h.operand
  let lines := (upFrom 0 (min (len / 64) 64)).map (fun i => lineCode s h.dstPart (h.addr + 64 * i) (h.aux % 8) (h.typ == 2))
  let sizeBad := (h.typ = 1 || h.typ = 2) && (len < 64 || 4096 < len || len % 64 ≠ 0 || h.addr % 64 ≠ 0)
  let roundBad := h.typ = 5 && (h.payload.length ≠ 64 || 10 < h.aux % 65536)
  lowestCode ([if bound then 0 else 1, if sizeBad || roundBad then 5 else 0,
      if closed && !port then 6 else 0, if h.typ = 1 && 6 ≤ h.aux % 8 then 4 else 0] ++
    (if h.typ = 1 || h.typ = 2 then lines else []))

/-- What became of a received packet: settled as landed, refused with a code, or held; or a WRITE whose bytes wait for their
lines. -/
inductive Taken where
  | landed
  | landing
  | refused (code : Nat)
  | held
  deriving DecidableEq, Repr

/-- The bytes of a WRITE applied line by line; with bank_op 3 each 64 payload bytes hold 8 operands first (R367). -/
def landLines : Nat → State → Nat → Nat → List Byte → State
  | 0, s, _, _, _ => s
  | n + 1, s, a, op, bs => landLines n (bankWrite s a op (bs.take (bankSrcBytes op))) (a + 64) op (bs.drop 64)

/-- A checked WRITE is applied (R289); it has landed once its bytes are visible: the model waits for every write of its
partition (R267, R372; log 79, DESIGN CHOICE). -/
def takeWrite (s : State) (n : Nat) (h : Packet) : State × Taken :=
  match enqueuePort h.addr with
  | some d =>
    let r := enqueue s d h.dstPart (.flow n h.seq) (h.payload.length = 64) (BitVec.ofNat 512 (ofBytes (h.payload.take 64)))
    (r.1, if r.2 then .held else .landed)
  | none =>
    let s := landLines (h.payload.length / 64) s h.addr (h.aux % 8) h.payload
    if settled s h.dstPart then (s, .landed)
    else (putLft s { s.lft with landing := s.lft.landing ++ [(n, h)] }, .landing)

/-- A checked SIGNAL is applied, held for its data, or discarded when its amount breaks R261 (R267, R268). -/
def takeSignal (s : State) (n : Nat) (h : Packet) : State × Taken :=
  let g : HeldSignal :=
    { peer := n, part := h.dstPart, ctr := h.addr % 2 ^ 14, isMax := bitSet h.addr 16, operand := h.operand
      mark := h.aux, seq := h.seq }
  let s := seenSeq s n h.dstPart h.seq
  if !g.isMax && (g.operand = 0 || 65535 < g.operand) then (hubCtr s g.ctr 9 1, .landed)
  else if markLanded s g then (applyRemote s g, .landed)
  else (holdSignal s g, .held)

/-- A sequence is already landed, or so far ahead that it counts as old (R367, R371). -/
def isOld (f : Flow) (seq : Nat) : Bool :=
  seqLe seq f.wm || f.landed.contains seq || !seqLe seq ((f.wm + 2 ^ 30) % 2 ^ 32)

/-- A packet whose signal or item is still held here. -/
def isHeldSeq (s : State) (n : Nat) (h : Packet) : Bool :=
  (s.sync.held ++ s.sync.kept).any (fun g => g.peer == n && g.part == h.dstPart && g.seq == h.seq) ||
    s.lft.landing.any (fun g => g.1 == n && g.2.dstPart == h.dstPart && g.2.seq == h.seq) ||
    s.sched.held.any (fun g => g.part == h.dstPart && g.src == .flow n h.seq)

/-- The reader of a window line that is the refill of a line (R344). -/
def refillOwner (line : Nat) : Nat := 2 ^ 58 + line

/-- Poisoned completion of a window read (R241): raised, and every line is handled as an uncorrectable error; the one read
of a refill has failed then (R252). -/
def failRead (s : State) (r : FarRead) : State :=
  let lines := (upFrom 0 (r.bytes / 64)).map (fun i => r.src + 64 * i)
  let s := putLft s { s.lft with
    reads := (s.lft.reads.filter (· != r)) ++
      lines.map (fun a => { r with src := a, bytes := 64, failed := true, seq := none }) }
  let s := raise s 0x0303 r.part 0 [r.window, r.src]
  if refillOwner 0 ≤ r.owner then s else lines.foldl (fun s a => meetError s a .read) s

/-- A CLOSING window whose reads have completed is CLOSED (R239). -/
def settleWindows (s : State) : State :=
  putLft s { s.lft with windows := s.lft.windows.filterMap (fun e =>
    if bits e.2.toNat 5 4 = 2 && !s.lft.reads.any (fun r => r.window == e.1 && !r.failed) then
      let v := withBits e.2 5 4 0
      if v = 0 then none else some (e.1, v)
    else some e) }

/-- The answer to a READ of this module completes its lines, good or poisoned (R241, R374): `st` 0 is good. -/
def takeReadData (s : State) (n part seq st : Nat) (bs : List Byte) : State :=
  match s.lft.reads.find? (fun r => r.peer == n && r.part == part && !r.failed && r.seq == some seq) with
  | none => s
  | some r =>
    if st % 256 = 0 && bs.length = r.bytes then
      settleWindows (putLft s { s.lft with
        reads := s.lft.reads.filter (· != r), far := pokeBytes s.lft.far (r.owner * 2 ^ 64 + r.src) bs })
    else settleWindows (failRead s r)

/-- Answers a READ with READ_DATA of a status: 0 good, 1 refused, 2 poisoned (R374); the module's own READ gets it at once
(R345, R365). -/
def sendReadData (s : State) (n : Nat) (h : Packet) (st : Nat) : State :=
  let bs := if st = 1 then [] else readBytes s h.addr h.operand
  if peerSelf s n then takeReadData s n h.srcPart h.seq st bs
  else emitCtl s n h.dstPart { headFor s n h.dstPart 3 with dstPart := h.srcPart, aux := h.seq, operand := st, payload := bs }

/-- A READ that waits for its lines is answered when they can be read, or, its error met, when they still cannot
(R249, R251). -/
def tryRead (s : State) (r : Nat × Packet × Bool) : State :=
  let n := r.1; let h := r.2.1
  let wait := fun (s : State) (met : Bool) => putLft s { s.lft with asked := s.lft.asked ++ [(n, h, met)] }
  let s := wakeRun s h.addr h.operand
  let ls := linesOf h.addr h.operand
  if ls.any (fun l => lineHeld s l false) then wait s r.2.2
  else if ls.any (lineBad s) then
    if r.2.2 then sendReadData s n h 2 else wait ((meetRuns s [(h.addr, h.operand)]).getD s) true
  else sendReadData s n h 0

/-- The READs that wait are tried again, in their order. -/
def serveReads (s : State) : State :=
  if s.lft.asked.isEmpty then s else s.lft.asked.foldl tryRead (putLft s { s.lft with asked := [] })

/-- A READ is answered, refused or once its lines can be read (R374). -/
def answerRead (s : State) (n : Nat) (h : Packet) (refused : Bool) : State :=
  if refused then sendReadData s n h 1 else tryRead s (n, h, false)

/-- A WRITE whose bytes are visible has landed: it is acknowledged with its flow (R267, R372). -/
def finishLanding (s : State) (r : Nat × Packet) : State :=
  onceSettled s r.2.dstPart (fun s =>
    let s := putLft s { s.lft with landing := s.lft.landing.filter (· != r) }
    settleSeq (seenSeq s r.1 r.2.dstPart r.2.seq) r.1 r.2.dstPart r.2.seq)

/-- The WRITEs whose bytes have become visible have landed. -/
def serveLandings (s : State) : State := s.lft.landing.foldl finishLanding s

/-- A sequenced packet is checked and applied once (R371, R373). -/
def takePacket (s : State) (n : Nat) (h : Packet) : State × Taken :=
  let c := refusalCode s n h
  if c = 1 then (s, .refused 1)
  else if c ≠ 0 then (seenSeq s n h.dstPart h.seq, .refused c)
  else if h.typ = 1 then
    let r := takeWrite s n h
    (if r.2 = .landed then seenSeq r.1 n h.dstPart h.seq else r.1, r.2)
  else if h.typ = 4 then takeSignal s n h
  else (seenSeq s n h.dstPart h.seq, .landed)

/-- Raises fabric.write_refused (R373, R539). -/
def raiseRefused (s : State) (part code peer addr side : Nat) : State :=
  raise s 0x0908 part (unitId 0 6 0 peer) [code, peer, addr, side]

/-- The address or counter that a refusal reports. -/
def refusedAddr (h : Packet) : Nat := if h.typ = 4 then h.addr % 2 ^ 14 else h.addr

/-! ## Loss of a refused packet at the sender (R373) -/

/-- A NAK reaches the sender of a packet: a STORE faults, a SIGNAL restarts its partition, a READ fails (R373). -/
def nakEffect (s : State) (o : OutPkt) (code : Nat) : State :=
  match o.p.typ, o.origin with
  | 1, some e =>
    let v := getTile s e.tile
    let s := putTile s e.tile { v with inflight := v.inflight.filter (fun i =>
      match i.why with | .acks l => !l.contains o.id | _ => true) }
    tileFault s e.tile e.x (engNo e.eng) e.pc e.seq ⟨6, 2, o.p.addr⟩
  | 4, _ => addCause (raiseRefused s o.part code o.peer (refusedAddr o.p) 1) o.part 0x0908
  | 2, _ =>
    match s.lft.reads.find? (fun r => r.id == o.id && !r.failed) with
    | some r => settleWindows (failRead s r)
    | none => s
  | _, _ => s

/-! ## The flow's sending side (R370, R371) -/

/-- Unacknowledged packets and outstanding window reads of the module (R370). -/
def transactions (s : State) : Nat :=
  sumOf (s.lft.flows.map (fun e => e.2.unacked.length)) + (s.lft.reads.filter (fun r => r.seq.isSome)).length

/-- A WRITE touches a line of an earlier unacknowledged WRITE (R371). -/
def linesClash (a b : Packet) : Bool :=
  a.typ == 1 && b.typ == 1 && decide (a.addr < b.addr + b.payload.length) && decide (b.addr < a.addr + a.payload.length)

/-- The head of a flow's waiting packets may be accepted (R369 to R371). -/
def mayAccept (s : State) (n part : Nat) (f : Flow) (o : OutPkt) : Bool :=
  peerUp s n && (boundTo s n part).isSome && !f.failed &&
    decide (f.unacked.length < min f.grant (setting s 0x1120 5)) && decide (transactions s < 16384) &&
    f.unacked.all (fun u => !linesClash o.p u.p)

/-- Packets of a flow are settled: their effects go on (R372). -/
def ackSeqs (s : State) (n part : Nat) (done : Nat → Bool) : State :=
  let f := getFlow s n part
  let l := f.unacked.filter (fun o => done o.p.seq)
  let s := putFlow s n part { f with unacked := f.unacked.filter (fun o => !done o.p.seq) }
  l.foldl (fun s o =>
    match o.p.typ, o.origin with
    | 1, some e => effectDone s e.tile o.id
    | _, _ => s) s

/-- The loopback: an accepted packet is taken as a received one (R345). -/
def loopback (s : State) (n part : Nat) (o : OutPkt) : State :=
  let r := takePacket s n o.p
  match r.2 with
  | .landed =>
    let s := settleSeq r.1 n o.p.dstPart o.p.seq
    ackSeqs (if o.p.typ = 2 then answerRead s n o.p false else s) n part (· == o.p.seq)
  | .refused c =>
    let s := settleSeq r.1 n o.p.dstPart o.p.seq
    let s := raiseRefused s o.p.dstPart c n (refusedAddr o.p) 0
    let f := getFlow s n part
    nakEffect (putFlow s n part { f with unacked := f.unacked.filter (fun u => u.id != o.id) }) o c
  | .held | .landing => r.1

/-- The head of a flow's waiting packets is accepted: it gets its sequence, a SIGNAL its watermark, the ledger its
record, and it is sent (R266, R345, R346, R370). -/
def acceptPkt (s : State) (n part : Nat) (o : OutPkt) : State :=
  let f := getFlow s n part
  let seq := f.next
  let h := headFor s n part o.p.typ
  let pk := { o.p with
    srcPeer := if peerSelf s n then n else h.srcPeer, srcPart := part, dstPart := h.dstPart, seq := seq
    aux := if o.p.typ = 4 then f.lastData else o.p.aux }
  let path := (choosePath s n none).getD 0
  let o := { o with p := pk, path := path }
  let s := putFlow s n part { f with
    next := (seq + 1) % 2 ^ 32, sendq := f.sendq.drop 1, unacked := f.unacked ++ [o]
    lastData := if o.p.typ = 1 then seq else f.lastData }
  let s := putLft s { s.lft with reads := s.lft.reads.map (fun r =>
    if r.id = o.id ∧ r.failed = false ∧ o.p.typ = 2 then { r with seq := some seq } else r) }
  let s := match o.origin with
    | some e =>
      let s := recordEffect s n part e
      if o.p.typ = 4 then effectDone s e.tile o.id else s
    | none => s
  if peerSelf s n then loopback s n part o else emitPkt s o

/-- Accepts waiting packets of a flow while it may; `k` bounds their number. -/
def pumpFlow : Nat → State → Nat → Nat → State
  | 0, s, _, _ => s
  | k + 1, s, n, part =>
    let f := getFlow s n part
    match f.sendq with
    | [] => s
    | o :: _ => if mayAccept s n part f o then pumpFlow k (acceptPkt s n part o) n part else s

/-- The sequence is settled at the receiver's side of a loopback. -/
def isSettled (f : Flow) (seq : Nat) : Bool := seqLe seq f.wm || f.landed.contains seq

/-- Lets a flow go on: a loopback's settled packets are acknowledged, then waiting packets are accepted. -/
def pump (s : State) (n part : Nat) : State :=
  let s := if peerSelf s n then ackSeqs s n part (isSettled (getFlow s n ((boundTo s n part).getD 0))) else s
  pumpFlow ((getFlow s n part).sendq.length) s n part

/-- Lets every flow go on. -/
def pumpAll (s : State) : State := s.lft.flows.foldl (fun s e => pump s (e.1 / 16) (e.1 % 16)) s

/-- Queues packets on a flow: each takes the next number. -/
def queuePkts (s : State) (n part : Nat) (l : List (Option Effect × Packet)) : List Nat × State :=
  let ids := upFrom s.lft.nextId l.length
  let os := l.zip ids |>.map (fun e =>
    ({ id := e.2, peer := n, part := part, origin := e.1.1, path := 0, p := e.1.2 } : OutPkt))
  let f := getFlow s n part
  let s := putFlow s n part { f with sendq := f.sendq ++ os }
  (ids, putLft s { s.lft with nextId := s.lft.nextId + l.length })

/-- The numbers of a list that a flow still holds. -/
def stillHeld (s : State) (n part : Nat) (ids : List Nat) (accepted : Bool) : List Nat :=
  let f := getFlow s n part
  ids.filter (fun i => f.sendq.any (fun o => o.id == i) || (!accepted && f.unacked.any (fun o => o.id == i)))

/-! ## Remote STORE and SIGNAL (R320, R345 to R347, R364) -/

/-- A tile's remote effect may go to the peer (R364, R365). -/
def remoteOk (s : State) (p n : Nat) : Bool :=
  (boundTo s n p).isSome && (!peerSelf s n || selfOk s) && decide (n < 1024)

/-- Key of the count of an engine's effects in a stream since a mark. -/
def ordKey (t : Nat) (x : Stream) (e : Engine) (step : Nat) : Nat := (streamKey t x * 4 + engNo e) * 2 ^ 64 + step

/-- The effect of an instruction with its next ordinal, and the state with the ordinal taken (R346). -/
def newEffect (s : State) (t : Nat) (e : Engine) (q : QInstr) (far : Nat) : Effect × State :=
  let k := ordKey t q.x e q.step
  let o := mget 0 s.lft.ordinals k
  ({ tile := t, eng := e, x := q.x, pc := q.pc, seq := q.seq, step := q.step, ord := o, begins := false, chunk := none, far := far },
   putLft s { s.lft with ordinals := mset 0 s.lft.ordinals k (o + 1) })

/-- Length of a STORE's chunks (R346). -/
def chunkLen (total : Nat) : Nat := max 64 (ceilDiv (ceilDiv total 512) 64 * 64)

/-- Cuts a STORE's far lines into WRITE packets that keep to one chunk and one run of addresses; `acc` is the packet
under construction: first address, bytes, chunk. -/
def cutPackets (clen : Nat) :
    List (Nat × List Byte) → Nat → Option (Nat × List Byte × Nat) → List (Nat × List Byte × Nat)
  | [], _, none => []
  | [], _, some a => [a]
  | (far, bs) :: r, i, none => cutPackets clen r (i + 1) (some (far, bs, i * 64 / clen))
  | (far, bs) :: r, i, some (a, d, c) =>
    if far = a + d.length && c = i * 64 / clen && d.length < 4096 then
      cutPackets clen r (i + 1) (some (a, d ++ bs, c))
    else (a, d, c) :: cutPackets clen r (i + 1) (some (far, bs, i * 64 / clen))

/-- Marks the first and the last packet of each chunk; `prev` is the chunk of the packet before. -/
def markEnds (prev : Option Nat) : List (Nat × List Byte × Nat) → List (Nat × List Byte × Nat × Bool × Bool)
  | [] => []
  | a :: r => (a.1, a.2.1, a.2.2, prev != some a.2.2, (r.head?.map (fun b => b.2.2)) != some a.2.2) :: markEnds (some a.2.2) r

/-- The chunks of an effect whose first packets were accepted in an attempt that a restart ended: their rest follows, so they
are not sent again (R346, R349; log 108, DEDUCED). -/
def restMask (s : State) (n p : Nat) (e : Effect) : Nat :=
  (getFlow s n p).sendq.foldl (fun m o =>
    match o.origin with
    | some x =>
      if x.tile == e.tile && x.eng == e.eng && x.x == e.x && x.step == e.step && x.ord == e.ord then
        (match x.chunk with | some c => m ||| 2 ^ c | none => m)
      else m
    | none => m) 0

/-- A remote STORE: far lines with their 64 payload bytes (R320, R346, R347). -/
def remoteStore (s : State) (p t : Nat) (q : QInstr) (n op far : Nat) (lines : List (Nat × List Byte)) : Started :=
  if !remoteOk s p n then .fault ⟨6, 2, far⟩
  else
    let r := newEffect s t .store q far
    let e := r.1
    let s := r.2
    let old := s.lft.ledger.find? (ledgerIs p e)
    let bad := match old with | some l => l.peer != n || l.far != far | none => false
    if bad then .done (addHold (raise s 0x090D p 0 [q.step, n]) p 0x090D)
    else
      let mask := (match old with | some l => l.mask | none => 0) ||| restMask s n p e
      let pk := markEnds none (cutPackets (chunkLen (64 * lines.length)) lines 0 none)
      let send := pk.filter (fun x => !bitSet mask x.2.2.1)
      let s := if send.length < pk.length then addCtr s (0x4B00 + p) 5 1 else s
      let u := queuePkts s n p (send.map (fun x =>
        (some { e with begins := x.2.2.2.1, chunk := if x.2.2.2.2 then some x.2.2.1 else none },
         { headFor s n p 1 with aux := op, addr := x.1, payload := x.2.1 })))
      let s := pump u.2 n p
      let left := stillHeld s n p u.1 false
      if left.isEmpty then .done s else .going s (.acks left) 0

/-- The start of a remote SIGNAL (R266, R347, R364): it leaves once the engine's earlier writes are accepted on its
flow, or landed. -/
def startRemoteSignal (s : State) (p t : Nat) (q : QInstr) : Started :=
  let n := fld q.w 99 90
  let e := lastEng q.w
  let v := getTile s t
  let waits := v.inflight.any (fun i => i.q.x == q.x && lastEng i.q.w == e && seqBefore i.q.seq q.seq &&
    (match i.why with
     | .acks l => l.isEmpty || !(stillHeld s n p l true).isEmpty ||
        l.any (fun id => !(getFlow s n p).unacked.any (fun o => o.id == id))
     | .load | .vexec | .tie | .side | .matrix | .store _ _ => true
     | _ => false))
  if !remoteOk s p n then .fault ⟨6, 2, counterAddr (fld q.w 89 76)⟩
  else if waits then .going s .cover 0
  else
    let r := newEffect s t e q (fld q.w 89 76)
    let s := r.2
    match s.lft.ledger.find? (ledgerIs p r.1) with
    | some l =>
      if l.peer != n || l.far != fld q.w 89 76 then .done (addHold (raise s 0x090D p 0 [q.step, n]) p 0x090D)
      else .done (addCtr s (0x4B00 + p) 5 1)
    | none =>
      let u := queuePkts s n p [(some { r.1 with begins := true, chunk := some 0 },
        { headFor s n p 4 with addr := fld q.w 89 76 + fld q.w 101 101 * 65536, operand := fld q.w 63 0 })]
      let s := pump u.2 n p
      let left := stillHeld s n p u.1 true
      if left.isEmpty then .done s else .going s (.acks left) 0

/-! ## Window reads (R239 to R241, R374) -/

/-- Issues the READ packets of a run of bytes of one window for a reader. -/
def readWindow (s : State) (part src bytes owner tag : Nat) : State :=
  match placeOf src with
  | .window w off =>
    let n := bits (windowOf s w) 447 416
    let base := bits (windowOf s w) 511 448
    let parts := (upFrom 0 (ceilDiv bytes 4096)).map (fun i => (4096 * i, min 4096 (bytes - 4096 * i)))
    let u := queuePkts s n part (parts.map (fun x =>
      (none, { headFor s n part 2 with addr := (base + off + x.1) % 2 ^ 64, operand := x.2 })))
    let s := u.2
    let rs := (parts.zip u.1).map (fun x =>
      ({ id := x.2, seq := none, failed := false, window := w, peer := n, part := part, src := src + x.1.1
         bytes := x.1.2, owner := owner, tag := tag } : FarRead))
    pump (putLft s { s.lft with reads := s.lft.reads ++ rs }) n part
  | _ => s

/-- The parts of a run of bytes that lie in one window each (R239). -/
def windowParts (src bytes : Nat) : List (Nat × Nat) :=
  let k := 2 ^ 35
  (upFrom (src / k) ((src + bytes - 1) / k - src / k + 1)).map (fun w =>
    (max src (w * k), min (src + bytes) ((w + 1) * k) - max src (w * k)))

/-- Issues the READ packets of a run of window bytes for a reader, each window's through its own entry. -/
def readFar (s : State) (part src bytes owner tag : Nat) : State :=
  (windowParts src bytes).foldl (fun s x => readWindow s part x.1 x.2 owner tag) s

/-- A reader's window reads are all answered. -/
def farReady (s : State) (owner tag : Nat) : Bool := s.lft.reads.all (fun r => !(r.owner == owner && r.tag == tag))

/-- A byte for a reader: from the window bytes answered to it, or from memory. -/
def farByte (s : State) (owner a : Nat) : Byte :=
  match placeOf a with
  | .window _ _ => mget 0 s.lft.far (owner * 2 ^ 64 + a)
  | _ => readByte s a

/-- A number of `n` bytes for a reader. -/
def farNat (s : State) (owner a n : Nat) : Nat := ofBytes ((upFrom a n).map (farByte s owner))

/-- Forgets the window bytes of a reader. -/
def dropFar (s : State) (owner : Nat) : State :=
  putLft s { s.lft with far := mdrop (fun k => k / 2 ^ 64 == owner) s.lft.far }

/-- A window entry as it is kept: its reserved bits read as zero (R11, R239). -/
def windowEntry (e : BitVec 512) : BitVec 512 := withBits e 383 10 0

/-- WINDOW_OPEN (R239): software writes an entry's fields and state 1; ignored unless the window is CLOSED. -/
def execWindowOpen (w : Fin 256) (entry : BitVec 512) (s : State) : Host.Outcome State Fault Refusal :=
  if bits (windowOf s w.val) 5 4 = 0 then
    .next (putLft s { s.lft with windows := mset 0 s.lft.windows w.val (withBits (windowEntry entry) 5 4 1) })
  else .next s

/-- Software writes state 2 of an OPEN window: CLOSED once the outstanding reads complete (R239). -/
def closeWindow (s : State) (w : Nat) : State :=
  let e := mget 0 s.lft.windows w
  if bits e.toNat 5 4 = 1 then
    settleWindows (putLft s { s.lft with windows := mset 0 s.lft.windows w (withBits e 5 4 2) })
  else s

/-- WINDOW_CLOSE (R239). -/
def execWindowClose (w : Fin 256) (s : State) : Host.Outcome State Fault Refusal := .next (closeWindow s w.val)

/-- FAR_READ_TIMEOUT (R241): the k-th outstanding window read is not answered within timeout_us. -/
def execFarReadTimeout (k : Nat) (s : State) : Host.Outcome State Fault Refusal :=
  match (s.lft.reads.filter (fun r => !r.failed))[k]? with
  | none => .next s
  | some r => .next (settleWindows (failRead s r))

/-! ## Received packets -/

/-- The packet as this module holds it. -/
def packetOf (typ : Nat) (h : LftPacket) : Packet :=
  { version := h.version.toNat, typ := typ, retx := h.retx, srcPeer := h.srcPeer.val, srcPart := h.srcPart.val, dstPart := h.dstPart.val
    seq := h.seq.toNat, aux := h.aux.toNat, addr := h.addr.toNat, operand := h.operand.toNat, payload := h.payload }

/-- A frame whose CRC-32C fails is dropped and counted; so is one of an unknown version or type, or from no enabled peer
(R366, R387). In ROM recovery the ports carry DAP alone (R502). -/
def fromPeer (s : State) (h : LftPacket) (f : State → State) : State :=
  if s.dev.phase = .recovery then s else
  let s := lftCtr (wakeDomain (wakeDomain s 44) 45) 2 1
  if !h.crcOk then lftCtr s 6 1
  else if h.version = 1 && decide (h.typ.toNat < 8) && peerOn s h.srcPeer.val then f s
  else lftCtr s 5 1

/-- After a packet is settled: an ACK at the sixteenth (R372). -/
def ackIfDue (s : State) (n part : Nat) : State := if 16 ≤ (getFlow s n part).sinceAck then sendAck s n part else s

/-- A packet of no flow is refused with code 1 and settles nothing (R373); a READ is answered as refused (R374). -/
def refuseUnbound (s : State) (n : Nat) (h : Packet) : State :=
  let s := if h.typ = 2 then sendReadData s n h 1 else sendNak s n h h.seq 1
  if h.typ = 1 || h.typ = 4 then raiseRefused s h.dstPart 1 n (refusedAddr h) 0 else s

/-- A sequenced packet received: applied once, refused with a NAK, or acknowledged and discarded as a duplicate; a READ sent
again is served again (R371 to R374). -/
def receiveSeq (s : State) (n : Nat) (h : Packet) : State :=
  if boundTo s n h.dstPart != some h.srcPart then refuseUnbound s n h
  else if isOld (getFlow s n h.dstPart) h.seq then
    let s := sendAck (lftCtr s 4 1) n h.dstPart
    if h.typ = 2 then answerRead s n h (refusalCode s n h != 0) else s
  else if isHeldSeq s n h then lftCtr s 4 1
  else
    let r := takePacket s n h
    match r.2 with
    | .held | .landing => r.1
    | .landed =>
      let s := if h.typ = 2 then answerRead r.1 n h false else r.1
      ackIfDue (if h.typ = 4 && isOld (getFlow s n h.dstPart) h.seq then s
        else settleSeq s n h.dstPart h.seq) n h.dstPart
    | .refused c =>
      if h.typ = 2 then
        ackIfDue (settleSeq (answerRead r.1 n h true) n h.dstPart h.seq) n h.dstPart
      else
        let s := sendNak (settleSeq r.1 n h.dstPart h.seq) n h h.seq c
        if h.typ = 1 || h.typ = 4 then raiseRefused s h.dstPart c n (refusedAddr h) 0 else s

/-- LFT_WRITE_RECEIVED (R371 to R373). -/
def execLftWriteReceived (h : LftPacket) (s : State) : Host.Outcome State Fault Refusal :=
  .next (fromPeer s h (fun s => receiveSeq s h.srcPeer.val (packetOf 1 h)))

/-- LFT_READ_RECEIVED (R374). -/
def execLftReadReceived (h : LftPacket) (s : State) : Host.Outcome State Fault Refusal :=
  .next (fromPeer s h (fun s => receiveSeq s h.srcPeer.val (packetOf 2 h)))

/-- LFT_SIGNAL_RECEIVED (R267, R268, R373). -/
def execLftSignalReceived (h : LftPacket) (s : State) : Host.Outcome State Fault Refusal :=
  .next (fromPeer s h (fun s => receiveSeq s h.srcPeer.val (packetOf 4 h)))

/-- LFT_READ_DATA_RECEIVED (R374, R241): the answer to a READ completes its lines, good or poisoned. -/
def execLftReadDataReceived (h : LftPacket) (s : State) : Host.Outcome State Fault Refusal :=
  .next (fromPeer s h (fun s =>
    takeReadData s h.srcPeer.val h.dstPart.val h.aux.toNat h.operand.toNat h.payload))

/-- LFT_ACK_RECEIVED (R372): settles landed packets, takes the credit grant and lets the flow go on. -/
def execLftAckReceived (h : LftPacket) (s : State) : Host.Outcome State Fault Refusal :=
  .next (fromPeer s h (fun s =>
    let n := h.srcPeer.val
    let p := h.dstPart.val
    let wm := h.seq.toNat
    let done := fun (seq : Nat) => seqLe seq wm ||
      (let d := (seq + 2 ^ 32 - (wm + 2) % 2 ^ 32) % 2 ^ 32
       decide (d < 64) && bitSet h.operand.toNat d)
    let s := putFlow s n p { getFlow s n p with grant := h.aux.toNat }
    pump (ackSeqs s n p done) n p))

/-- LFT_NAK_RECEIVED (R373): settles a refused sequence. -/
def execLftNakReceived (h : LftPacket) (s : State) : Host.Outcome State Fault Refusal :=
  .next (fromPeer s h (fun s =>
    let n := h.srcPeer.val
    let p := h.dstPart.val
    let f := getFlow s n p
    match f.unacked.find? (fun o => o.p.seq == h.seq.toNat) with
    | none => s
    | some o =>
      let s := putFlow s n p { f with unacked := f.unacked.filter (fun u => u.id != o.id) }
      pump (nakEffect s o h.aux.toNat) n p))

/-- ACK_TIMER (R372): an ACK goes out while packets are unacknowledged. -/
def execAckTimer (peer : Fin 1024) (part : Fin 16) (s : State) : Host.Outcome State Fault Refusal :=
  if (getFlow s peer.val part.val).sinceAck = 0 || !peerOn s peer.val then .next s
  else .next (sendAck s peer.val part.val)

/-- Sends unacknowledged packets of a flow again (R372). -/
def resend (s : State) (n part : Nat) (which : OutPkt → Bool) : State :=
  let f := getFlow s n part
  (f.unacked.filter which).foldl (fun s o =>
    match choosePath s n (some o.path) with
    | none => s
    | some path =>
      let o' := { o with path := path, p := { o.p with retx := true } }
      let f := getFlow s n part
      let s := putFlow s n part { f with unacked := f.unacked.map (fun u => if u.id == o.id then o' else u) }
      emitPkt (lftCtr s 3 1) o') s

/-- LFT_RETRANSMIT_TIMEOUT (R372): the unacknowledged packet of a sequence is sent again on another path. -/
def execLftRetransmitTimeout (peer : Fin 1024) (part : Fin 16) (seq : BitVec 32) (s : State) :
    Host.Outcome State Fault Refusal :=
  if peerUp s peer.val && !peerSelf s peer.val then
    .next (resend s peer.val part.val (fun o => o.p.seq == seq.toNat))
  else .next s

/-! ## Loss of peers (R377 to R379) -/

/-- The partitions that an entry binds. -/
def boundParts (s : State) (n : Nat) : List Nat := (upFrom 0 16).filter (fun p => (boundTo s n p).isSome)

/-- The partition has a job: RUNNING, RESTARTING or PREEMPTED. -/
def jobRuns (s : State) (p : Nat) : Bool :=
  match (getPart s p).state with
  | .running | .restarting | .preempted => true
  | _ => false

/-- Held signals of a peer are discarded. -/
def dropHeld (s : State) (n : Nat) : State :=
  let s := putLft s { s.lft with
    asked := s.lft.asked.filter (fun r => r.1 != n), landing := s.lft.landing.filter (fun r => r.1 != n) }
  admitKept (putSync s { s.sync with
    held := s.sync.held.filter (fun h => h.peer != n), kept := s.sync.kept.filter (fun h => h.peer != n) })

/-- The reads that a peer will not answer complete poisoned. -/
def failReads (s : State) (n : Nat) : State :=
  settleWindows ((s.lft.reads.filter (fun r => r.peer == n && !r.failed)).foldl failRead s)

/-- A peer's flows fail (R378); reason 1 no path, 2 timeout. -/
def peerLost (s : State) (n reason : Nat) : State :=
  let s := setPeerState s n 3
  let s := putLft s { s.lft with flows := s.lft.flows.map (fun e =>
    if e.1 / 16 = n then (e.1, { e.2 with failed := true }) else e) }
  let s := raise (lftCtr s 8 1) 0x0909 0xFF (unitId 0 6 0 n) [n, reason]
  let s := failReads (dropHeld s n) n
  (boundParts s n).foldl (fun s p => if jobRuns s p then addCause s p 0x0909 else s) s

/-- PEER_TIMEOUT (R378): a flow of an UP peer has no path, or a packet unacknowledged for lft.peer_timeout_ms. -/
def execPeerTimeout (peer : Fin 1024) (s : State) : Host.Outcome State Fault Refusal :=
  let n := peer.val
  if !peerUp s n || peerSelf s n then .next s
  else if (getPeer s n).paths.isEmpty then .next (peerLost s n 1)
  else if s.lft.flows.any (fun e => e.1 / 16 == n && !e.2.unacked.isEmpty) then .next (peerLost s n 2)
  else .next s

/-- A path of a peer is removed (R377): its unacknowledged packets are sent again at once; a peer without a path is
lost. -/
def removePath (s : State) (sub : Nat) (n : Nat) : State :=
  let v := getPeer s n
  if !v.paths.any (fun x => x.1 == sub) then s
  else
    let s := lftCtr (putPeer s n { v with paths := v.paths.filter (fun x => x.1 != sub) }) 7 1
    if (getPeer s n).paths.isEmpty then (if peerFld s n 33 32 = 2 then peerLost s n 1 else s)
    else (boundParts s n).foldl (fun s p => resend s n p (fun o => o.path == sub)) s

/-- HELLO_INTERVAL (R369): HELLOs on every path of an enabled peer; a path without a HELLO in three intervals is no
longer UP. -/
def execHelloInterval (peer : Fin 1024) (s : State) : Host.Outcome State Fault Refusal :=
  let n := peer.val
  if !peerOn s n || peerSelf s n then .next s
  else
    let s := (s.ports.links.filter (fun l => pathOf s n l)).foldl (fun s l => sendHello s n l) s
    let v := getPeer s n
    let s := putPeer s n { v with paths := v.paths.map (fun x => (x.1, x.2 + 1)) }
    .next (((getPeer s n).paths.filter (fun x => decide (3 ≤ x.2))).foldl (fun s x => removePath s x.1 n) s)

/-- A new incarnation ends every flow with a peer (R379). -/
def reincarnated (s : State) (n inc : Nat) : State :=
  let s := failReads (dropHeld s n) n
  let s := putLft s { s.lft with flows := s.lft.flows.filter (fun e => e.1 / 16 != n) }
  let s := raise s 0x090A 0xFF (unitId 0 6 0 n) [n, inc]
  (boundParts s n).foldl (fun s p => if jobRuns s p then addHold s p 0x090A else s) s

/-- LFT_HELLO_RECEIVED (R368, R369, R378, R379): a HELLO on a sub-port from the peer of an entry. -/
def execLftHelloReceived (sub : Fin 128) (peer : Fin 1024) (mid inc : BitVec 64) (versions : BitVec 16)
    (youAre : Fin 1024) (s : State) : Host.Outcome State Fault Refusal :=
  let n := peer.val
  if s.dev.phase = .recovery then .next s else
  let s := lftCtr (wakeDomain (wakeDomain s 44) 45) 2 1
  if !peerOn s n then .next (lftCtr s 5 1)
  else if peerSelf s n || (peerFld s n 511 448 ≠ 0 && peerFld s n 511 448 ≠ mid.toNat) || !pathOf s n sub.val then .next s
  else
    let v := getPeer s n
    let fresh := v.known && v.incarnation != inc.toNat
    let s := if fresh then reincarnated s n inc.toNat else s
    let v := getPeer s n
    let s := putPeer s n { v with
      paths := (v.paths.filter (fun x => x.1 != sub.val)) ++ [(sub.val, 0)], incarnation := inc.toNat, known := true
      youAre := youAre.val }
    if versions.getLsbD 1 then
      let was := peerFld s n 33 32
      let v := getPeer s n
      let s := putPeer s n { v with entry := withBits (withBits v.entry 33 32 2) 31 28 1 }
      let s := putLft s { s.lft with flows := s.lft.flows.map (fun e =>
        if e.1 / 16 = n then (e.1, { e.2 with failed := false }) else e) }
      let s := if was = 3 then (boundParts s n).foldl (fun s p => resend s n p (fun _ => true)) s else s
      .next ((boundParts s n).foldl (fun s p => pump s n p) s)
    else if v.mismatch then .next (setPeerState s n 1)
    else
      let s := setPeerState s n 1
      .next (raise (putPeer s n { getPeer s n with mismatch := true }) 0x0907 0xFF (unitId 0 6 0 n)
        [n, versions.toNat])

/-- A peer entry as software writes it: its reserved bits read as zero, `state` and `lft_version` are the module's (R11,
R363). -/
def peerEntry (e : BitVec 512) : BitVec 512 := withBits (withBits (withBits e 33 32 0) 31 28 0) 25 4 0

/-- A write of a peer entry: one that is enabled takes a write of `enable` 0 alone; else the fields are taken (R363). -/
def writePeer (s : State) (n : Nat) (entry : BitVec 512) : State :=
  if peerOn s n then
    if bits entry.toNat 26 26 = 1 then s
    else
      let v := getPeer s n
      let off : Peer := { Peer.reset with entry := withBits (withBits (withBits v.entry 26 26 0) 33 32 0) 31 28 0 }
      let s := failReads (dropHeld s n) n
      putLft s { s.lft with
        peers := mset Peer.reset s.lft.peers n off
        flows := s.lft.flows.filter (fun e => e.1 / 16 != n) }
  else
    let s := putPeer s n { Peer.reset with entry := peerEntry entry }
    if !peerOn s n then s
    else if peerSelf s n then
      let v := getPeer s n
      pumpAll (putPeer s n { v with entry := withBits (withBits v.entry 33 32 2) 31 28 1 })
    else setPeerState s n (idlePeerState s n)

/-- PEER_TABLE_WRITE (R363). -/
def execPeerTableWrite (peer : Fin 1024) (entry : BitVec 512) (s : State) : Host.Outcome State Fault Refusal :=
  .next (writePeer s peer.val entry)

/-- Every flow that the partition is bound to is UP (R378, R395 step 8). -/
def flowsUp (s : State) (p : Nat) : Bool :=
  s.lft.peers.all (fun e => (boundTo s e.1 p).isNone || peerUp s e.1)

end Sys2Proof.Machine
end

