-- ==== Sys2Proof/Machine/Place.lean ====
section
/-! DEFINITION. Machine/Place.lean: placement tables and the prefetch schedule (11 R234 to R247). -/

namespace Sys2Proof.Machine

/-! ## Checks of a placement table (R234 to R236) -/

/-- An address in T0 or T1. -/
def inT01 (a : Nat) : Bool :=
  match placeOf a with
  | .t1 _ | .tile _ _ | .landing _ _ => true
  | _ => false

/-- A run of T0 or T1 lies within the partition's groups, tiles and share: its ends, and a byte of every group or of
every 64 KiB of T0 between them. -/
def runInside (s : State) (p a bytes : Nat) : Bool :=
  let last := a + bytes - 1
  let unit := match placeOf a with | .t1 _ => 2 ^ 37 | _ => 65536
  (accessDetail s p a false).isNone && (accessDetail s p last false).isNone &&
    (upFrom (a / unit + 1) (last / unit - a / unit)).all (fun i => (accessDetail s p (i * unit) false).isNone)

/-- The header is accepted. -/
def headerOk (h : Nat) : Bool :=
  counterOk (bits h 255 224) &&
  bits h 3 0 == 1 && bits h 511 356 == 0 && bits h 63 48 == 0 && bits h 31 4 == 0 && bits h 355 352 != 0 &&
    decide (bits h 351 320 ≤ 2048) && bits h 319 288 % 65536 == 0 && decide (1 ≤ bits h 287 256) &&
    decide (bits h 287 256 ≤ 65535) && decide (bits h 223 192 ≤ 65535) && bits h 191 128 % 64 == 0

/-- The locations of a record that lie in T0 or T1, as runs. -/
def recordRuns (r : Nat) : List (Nat × Nat) :=
  ((upFrom 0 (1 + bits r 5 4)).map (fun i => ((objLoc r i).1, bits r 191 128))).filter (fun x => inT01 x.1)

/-- An object record is accepted by itself. -/
def recordOk (s : State) (p r : Nat) : Bool :=
  bits r 3 0 == 1 && bits r 63 32 == 0 && bits r 15 6 == 0 && decide (bits r 5 4 ≤ 2) && bits r 191 128 % 64 == 0 &&
    bits r 127 64 % 64 == 0 && inT01 (bits r 127 64) && (recordRuns r).all (fun x => runInside s p x.1 x.2) &&
    (upFrom 1 2).all (fun i => decide (i ≤ bits r 5 4) || ((objLoc r i).1 == 0 && (objLoc r i).2 == 0)) &&
    (upFrom 1 (bits r 5 4)).all (fun i =>
      match placeOf (objLoc r i).1 with
      | .window w _ => bits (windowOf s w) 9 6 == p
      | .t1 _ | .tile _ _ | .landing _ _ => true
      | _ => false)

/-- No two of a list's runs overlap. -/
def runsApart : List (Nat × Nat) → Bool
  | [] => true
  | x :: l => l.all (fun y => !runsMeet x y) && runsApart l

/-- A record's own runs lie apart; it keeps the order of `home_addr` and overlaps none before it. -/
def recordFits (before : List Nat) (r : Nat) : Bool :=
  runsApart (recordRuns r) && before.all (fun b => decide (bits b 127 64 < bits r 127 64) &&
    (recordRuns b).all (fun x => (recordRuns r).all (fun y => !runsMeet x y)))

/-- The windows that a T2 run lies in belong to the partition; `opened`: and are OPEN (R240). -/
def windowsOk (s : State) (p a n : Nat) (opened : Bool) : Bool :=
  (windowParts a n).all (fun x =>
    match placeOf x.1 with
    | .window w _ => bits (windowOf s w) 9 6 == p && (!opened || windowOpen s p w)
    | _ => false)

/-- A prefetch source lies in the partition's groups, or in windows of its own (R233, R240, R242). -/
def sourceHeld (s : State) (p a n : Nat) : Bool :=
  match placeOf a with
  | .t1 _ => runInside s p a (max 1 n)
  | .window _ _ => windowsOk s p a (max 1 n) false
  | _ => false

/-- A prefetch destination lies in the prefetch area and in the partition's share (R233, R234, R242). -/
def landHeld (s : State) (p h a n : Nat) : Bool :=
  let q := getPart s p
  decide (bits h 319 288 ≤ a) && decide (a + n ≤ bits h 319 288 + bits h 351 320 * 65536) && inShare q a &&
    inShare q (a + max 1 n - 1)

/-- A prefetch entry is accepted (R231, R233, R236, R242, R259, R279). -/
def entryOk (s : State) (p h e : Nat) : Bool :=
  bits e 3 0 == 1 && bits e 127 8 == 0 && bits e 5 4 == 0 && bits e 511 448 % 64 == 0 && bits e 383 352 % 64 == 0 &&
    decide (bits e 383 352 ≤ bits e 191 176 * 65536) && bits e 351 320 % 64 == 0 &&
    sourceHeld s p (bits e 511 448) (bits e 383 352) && landHeld s p h (bits e 351 320) (bits e 383 352) &&
    counterOk (bits e 319 288) && counterOk (bits e 287 256) && (bits e 255 224 == 0xFFFFFFFF || mayWatch s p (bits e 255 224)) &&
    decide (bits e 223 192 < bits h 287 256) && decide (1 ≤ bits e 143 128) && decide (bits e 143 128 ≤ 1024) &&
    decide (1 ≤ bits e 159 144) && decide (bits e 159 144 ≤ bits e 143 128)

/-- The position of the first record that fails. -/
def firstBad (s : State) (p : Nat) : List Nat → List Nat → Option Nat
  | _, [] => none
  | before, r :: rest =>
    if recordOk s p r && recordFits before r then firstBad s p (before ++ [r]) rest else some before.length

/-- The table at an address: its header, objects and entries, or the offending record: an object's position, an
entry's position after the objects', 0 for the header. -/
def readTable (s : State) (p a : Nat) : Nat × List Nat × List Nat × Option Nat :=
  let h := readNat s a 64
  let objs := (upFrom 0 (bits h 47 32)).map (fun i => readNat s (bits h 127 64 + 64 * i) 64)
  let ents := if bits h 191 128 = 0 then [] else
    (upFrom 0 (bits h 223 192)).map (fun i => readNat s (bits h 191 128 + 64 * i) 64)
  let bad :=
    if !headerOk h then some 0
    else
      match firstBad s p [] objs with
      | some i => some i
      | none => (posOf (fun e => !entryOk s p h e) ents).map (· + objs.length)
  (h, objs, ents, bad)

/-- The levels of runs that the reading of a table takes. -/
def placeLevels (s : State) (a : Nat) : List (List (Nat × Nat)) :=
  let h := readNat s a 64
  [[(a, 64)], [(bits h 127 64, 64 * bits h 47 32), (bits h 191 128, if bits h 191 128 = 0 then 0 else 64 * bits h 223 192)]]

/-- Loads a partition's placement table; the answer says whether it is accepted (R234, R236). -/
def loadTable (s : State) (p : Nat) : State × Bool :=
  let r := readTable s p (setting s 0x3200 (p + 1))
  match r.2.2.2 with
  | some i => (raise s 0x0302 p 0 [i], false)
  | none =>
    (putPlace s p { Placement.reset with valid := true, header := r.1, objects := r.2.1, entries := r.2.2.1 }, true)

/-- A write to place.reload (R234): 1 has the table reread at the partition's next boundary. -/
def askReload (s : State) (p v : Nat) : State :=
  if v = 1 then putPart s p { getPart s p with reload := true } else s

/-- PLACEMENT_RELOAD (R234): a write to place.reload. -/
def execPlacementReload (p : Fin 16) (v : BitVec 8) (s : State) : Host.Outcome State Fault Refusal :=
  .next (askReload s p.val v.toNat)

/-! ## Prefetch (R242 to R247) -/

/-- Value of a counter. -/
def ctrValue (s : State) (n : Nat) : Nat := (getCounter s n).value

/-- Value of the progress counter. -/
def progress (s : State) (v : Placement) : Nat := ctrValue s (bits v.header 255 224)

/-- Rereads the table at a boundary; a refused table leaves the old one (R234, R236). -/
def reloadTable (s : State) (p : Nat) : State :=
  let old := getPlace s p
  let r := loadTable (takeSettings s (1 + p) [0x3200]) p
  if r.2 then
    let new := getPlace r.1 p
    putPlace r.1 p { new with
      p0 := progress r.1 new, last := progress r.1 new, issues := old.issues, count := old.count, issued := old.issued
      owed := old.owed }
  else r.1

/-- Credits in use on a die. -/
def creditsUsed (v : Placement) (d : Nat) : Nat :=
  sumOf ((v.issues.filter (fun i => !i.released && bits (v.entries.getD i.entry 0) 7 6 == d)).map PfIssue.credits)

/-- The gate of an entry for step t is open: no gate, or its counter, which the partition may watch, has reached the biased
target (R245, R279, R398). -/
def gateOpen (s : State) (p t e : Nat) : Bool :=
  let g := bits e 255 224
  g == 0xFFFFFFFF ||
    (let c := getCounter s g
     mayWatch s p g && decide ((bits e 447 384 + (t - (getPart s p).firstStep) + (if c.owner = p then c.bias else 0)) % 2 ^ 64 ≤ c.value))

/-- The reader of a prefetch entry's window reads. -/
def pfOwner (p i step : Nat) : Nat := (p * 65536 + i) * 2 + step % 2

/-- Entry i is issued for step t: the step's, the next step's, or one owed to a step that has passed. -/
def markIssued (v : Placement) (cur i t : Nat) : Placement :=
  if t = cur then { v with issued := insertNew v.issued i }
  else if t = cur + 1 then { v with issuedNext := insertNew v.issuedNext i }
  else { v with owed := v.owed.filter (fun o => !(o.1 == t && o.2.1 == i)) }

/-- Entry i is short of credits or gate at its issue point for step t. -/
def markShort (v : Placement) (cur i t : Nat) : Placement :=
  if t = cur then { v with short := insertNew v.short i }
  else if t = cur + 1 then { v with shortNext := insertNew v.shortNext i }
  else v

/-- The number of an entry's next issue: one more than it has, unless an issue that a restart kept has that number already;
then the highest below it that is free, which the issue taken back had (R245, R247; log 98, DEDUCED). -/
def nextNth (v : Placement) (i : Nat) : Nat :=
  let n := mget 0 v.count i + 1
  (((upFrom 0 n).map (n - ·)).find? (fun k => !v.issues.any (fun x => x.entry == i && x.nth == k))).getD n

/-- Issues entry i for step t (R245): credits are taken, the entry is counted, a T2 source is read. -/
def issueEntry (s : State) (p i t : Nat) : State :=
  let v := getPlace s p
  let e := v.entries.getD i 0
  let n := nextNth v i
  let v := markIssued { v with
    issues := v.issues ++ [⟨i, t, n, bits e 191 176, false, false⟩]
    count := mset 0 v.count i (mget 0 v.count i + 1) } (getPart s p).step i t
  let s := addCtr (putPlace s p v) (0x4700 + p) 1 1
  readFar s p (bits e 511 448) (bits e 383 352) (pfOwner p i t) t

/-- The source of an entry can be read: a T2 source once its windows are OPEN (R240; log 78, DESIGN CHOICE). -/
def sourceOpen (s : State) (p e : Nat) : Bool :=
  match placeOf (bits e 511 448) with
  | .window _ _ => windowsOk s p (bits e 511 448) (max 1 (bits e 383 352)) true
  | _ => true

/-- Tries entry i at or past its issue point for step t. -/
def tryEntry (s : State) (p i t : Nat) : State :=
  let v := getPlace s p
  let e := v.entries.getD i 0
  let free := decide (creditsUsed v (bits e 7 6) + bits e 191 176 ≤ bits v.header 351 320)
  if free && gateOpen s p t e && sourceOpen s p e then issueEntry s p i t
  else
    let v := markShort v (getPart s p).step i t
    let s := putPlace s p v
    if gateOpen s p t e || v.gates.contains i || !mayWatch s p (bits e 255 224) then s
    else
      requestWatch (putPlace s p { v with gates := v.gates ++ [i] }) (bits e 255 224)
        ((bits e 447 384 + (t - (getPart s p).firstStep)) % 2 ^ 64) (.gate p i) p 0 0

/-- Writes an entry's `late_steps` and, where it is raised, its `lead`, in the table as read and in memory: the module writes
no other field (R234, R242). A `late_steps` past its 16 bits is a free value (log 2, DESIGN CHOICE). -/
def setLate (s : State) (p i : Nat) (late lead : Nat) : State :=
  let f := freshFree s
  let s := if late < 65536 then s else f.2
  let late := if late < 65536 then late else f.1 % 65536
  let v := getPlace s p
  let e := v.entries.getD i 0
  let e' := withBits (withBits (BitVec.ofNat 512 e) 175 160 late) 159 144 lead
  let a := bits v.header 191 128 + 64 * i
  let s := writeNat (putPlace s p { v with entries := setAt v.entries i e'.toNat }) (a + 20) 2 late
  if lead = bits e 159 144 then s else writeNat s (a + 18) 2 lead

/-- Classifies entry i at its use point (R246). -/
def classifyEntry (s : State) (p i : Nat) : State :=
  let v := getPlace s p
  let e := v.entries.getD i 0
  let t := (getPart s p).step
  let s := putPlace s p { v with classed := v.classed ++ [i] }
  let k := 0x4700 + p
  let landed := v.issued.contains i && !v.issues.any (fun x => x.entry == i && x.step == t && !x.landed)
  if landed then s
  else
    let late := bits e 175 160 + 1
    if !v.issued.contains i && v.short.contains i then
      setLate (addCtr (addCtr s k 2 1) k 3 1) p i late (bits e 159 144)
    else if bits e 159 144 < bits e 143 128 then
      setLate (addCtr (addCtr s k 2 1) k 4 1) p i late (bits e 159 144 + 1)
    else setLate (addCtr s k 2 1) p i late (bits e 159 144)

/-- One entry evaluated at the progress counter's value; a lead that its classification raises counts from the next step on
(R244 to R246). -/
def evalEntry (p : Nat) (s : State) (i : Nat) : State :=
  let v := getPlace s p
  let e := v.entries.getD i 0
  let t := (getPart s p).step
  let val := progress s v
  let use := bits e 223 192; let lead := bits e 159 144
  let npos := bits v.header 287 256
  let pos := min (val - v.p0) (npos - 1)
  let s := if decide (use ≤ pos + lead) && !v.issued.contains i && decide (v.p0 ≤ val) then tryEntry s p i t else s
  let s := if decide (use ≤ pos) && !v.classed.contains i && decide (v.p0 ≤ val) then classifyEntry s p i else s
  let v := getPlace s p
  let lead := bits (v.entries.getD i 0) 159 144
  if use < lead && !v.issuedNext.contains i && decide (v.p0 + npos + use ≤ val + lead) then tryEntry s p i (t + 1)
  else s

/-- An issue owed to a step that has passed is tried once its issue point is reached: no entry is lost (R244). -/
def evalOwed (p : Nat) (s : State) (o : Nat × Nat × Nat) : State :=
  if o.2.2 ≤ progress s (getPlace s p) then tryEntry s p o.2.1 o.1 else s

/-- Entries that a change concerns: those owed to earlier steps, then all in schedule order. -/
def evalEntries (s : State) (p : Nat) : State :=
  if jobRuns s p && (getPlace s p).valid && (getPart s p).state == .running then
    (upFrom 0 (getPlace s p).entries.length).foldl (evalEntry p) ((getPlace s p).owed.foldl (evalOwed p) s)
  else s

/-- Whistles delivered to a partition's gates are taken up. -/
def takeGates (s : State) (p : Nat) : State :=
  let hit := fun (w : Waiter × Nat) => match w.1 with | .gate q _ => q == p | _ => false
  let l := (s.sync.fired.filter hit).filterMap (fun w => match w.1 with | .gate _ i => some i | _ => none)
  if l.isEmpty then s
  else
    let v := getPlace s p
    putPlace (putSync s { s.sync with fired := s.sync.fired.filter (fun w => !hit w) }) p
      { v with gates := v.gates.filter (fun i => !l.contains i) }

/-- PROGRESS_CHANGE (R243 to R246): the progress counter of a running partition has changed; entries issue and are
classified, and a jump or an overshoot marks the step. -/
def execProgressChange (p : Fin 16) (s : State) : Host.Outcome State Fault Refusal :=
  let p := p.val
  let v := getPlace s p
  if !v.valid || (getPart s p).state != .running then .next s
  else
    let val := progress s v
    let bad := decide (v.last + 1 < val) || decide (bits v.header 287 256 < val - v.p0)
    let s := if bad && !v.posErr then addCtr s (0x4700 + p) 5 1 else s
    let s := putPlace s p { v with last := val, posErr := v.posErr || bad }
    .next (evalEntries (takeGates s p) p)

/-- PREFETCH_LANDED (R242): the oldest issue of an entry that has not landed lands: its bytes are in the prefetch area
and its arrive_counter is signalled. It waits for source lines that cannot be read (R249, R251) and for lines of the landing store that cannot be
written (R251, R420). -/
def execPrefetchLanded (p : Fin 16) (i : Fin 65536) (s : State) : Host.Outcome State Fault Refusal :=
  let p := p.val
  let i := i.val
  let v := getPlace s p
  match v.issues.find? (fun x => x.entry == i && !x.landed) with
  | none => .next s
  | some x =>
    if !farReady s (pfOwner p i x.step) x.step then .next s
    else
      let e := v.entries.getD i 0
      let src := bits e 511 448
      let far := match placeOf src with | .window _ _ => true | _ => false
      let land := landAddr (bits e 7 6) (bits e 351 320)
      let s := wakeRun s land (bits e 383 352)
      if (linesOf land (bits e 383 352)).any (fun l => lineHeld s l true) then .next s
      else .next (onceRead s (if far then [] else [(src, bits e 383 352)]) (fun s =>
        let bs := (upFrom src (bits e 383 352)).map (farByte s (pfOwner p i x.step))
        let s := dropFar (writeBytes s land bs) (pfOwner p i x.step)
        let s := putPlace s p { v with issues := v.issues.map (fun y =>
          if y = x then { y with landed := true } else y) }
        sendSignal s { ctr := bits e 319 288, isMax := false, operand := 1
                       unit := unitId (tagOf s (unitNo 3 (bits e 7 6 * 16))) 3 0 (bits e 7 6 * 16), stream := 3
                       part := p, counted := some x.step }))

/-- PREFETCH_CREDITS_RETURNED (R245): the release counter has reached an entry's number of issues; its credits
return. -/
def execPrefetchCreditsReturned (p : Fin 16) (i : Fin 65536) (s : State) : Host.Outcome State Fault Refusal :=
  let p := p.val
  let v := getPlace s p
  let rel := getCounter s (bits (v.entries.getD i.val 0) 287 256)
  let back := fun (x : PfIssue) =>
    x.entry == i.val && x.landed && !x.released && decide ((x.nth + (if rel.owner = p then rel.bias else 0)) % 2 ^ 64 ≤ rel.value)
  if v.issues.any back then
    .next (evalEntries (putPlace s p { v with issues := v.issues.map (fun x =>
      if back x then { x with released := true } else x) }) p)
  else .next s

/-- The boundary of step t at the schedule (R244): entries of the step are classified, those not issued stay owed at the
issue points that their leads gave in the step (R246), P0 of the next step is taken. -/
def placeBoundary (s : State) (p : Nat) : State :=
  let v0 := getPlace s p
  if !v0.valid then s
  else
    let s := (upFrom 0 v0.entries.length).foldl (fun s i =>
      if (getPlace s p).classed.contains i then s else classifyEntry s p i) s
    let v := getPlace s p
    let t := (getPart s p).step
    let owed := ((upFrom 0 v.entries.length).filter (fun i => !v.issued.contains i)).map (fun i =>
      let e := v0.entries.getD i 0
      (t, i, v0.p0 + bits e 223 192 - bits e 159 144))
    let val := progress s v
    let few := decide (val - v.p0 < bits v.header 287 256)
    let s := if few && !v.posErr then addCtr s (0x4700 + p) 5 1 else s
    putPlace s p { v with
      p0 := val, last := val, posErr := false, issued := v.issuedNext, issuedNext := [], classed := []
      short := v.shortNext, shortNext := [], owed := v.owed ++ owed
      issues := v.issues.filter (fun x => !(x.released && decide (x.step ≤ t))) }

/-- The start of a job, or of a replay: P0 is the counter's value (R243). -/
def placeStart (s : State) (p : Nat) : State :=
  let v := getPlace s p
  if v.valid then putPlace s p { v with p0 := progress s v, last := progress s v } else s

/-- The window reads and delivered gate whistles of a partition's prefetch are gone. -/
def dropPrefetch (s : State) (p : Nat) : State :=
  let s := putLft s { s.lft with
    reads := s.lft.reads.filter (fun r => r.owner / 131072 != p)
    far := mdrop (fun k => k / 2 ^ 81 == p) s.lft.far }
  putSync s { s.sync with
    fired := s.sync.fired.filter (fun w => match w.1 with | .gate q _ => q != p | _ => true) }

/-- A hold abandons the entries that have not landed and returns their credits (R247, R393). -/
def placeAbandon (s : State) (p : Nat) : State :=
  let v := getPlace s p
  let lost := v.issues.filter (fun x => !x.landed)
  dropPrefetch (putPlace s p { v with
    issues := v.issues.filter PfIssue.landed
    count := lost.foldl (fun m x => mset 0 m x.entry (mget 0 m x.entry - 1)) v.count }) p

/-- A restart of step t abandons the entries not landed, discards those landed of the step and returns their credits; the
replay counts its issues afresh, those already released included, and takes its P0 as it starts (R243, R247, R398). -/
def placeRestart (s : State) (p : Nat) : State :=
  let v := getPlace s p
  let t := (getPart s p).step
  let gone := fun (x : PfIssue) => !x.landed || x.step == t
  let lost := v.issues.filter gone
  let stay := v.issues.filter (fun x => !gone x)
  let s := putPlace s p { v with
    issues := stay, count := lost.foldl (fun m x => mset 0 m x.entry (mget 0 m x.entry - 1)) v.count, issued := []
    issuedNext := (stay.filter (fun x => x.step == t + 1)).map PfIssue.entry
    classed := [], short := [], shortNext := [], gates := [], posErr := false
    owed := v.owed ++ (lost.filter (fun x => decide (x.step < t))).map (fun x => (x.step, x.entry, 0)) }
  dropPrefetch s p

/-- The end of a job at the schedule: nothing of it stays. -/
def placeStop (s : State) (p : Nat) : State :=
  let v := getPlace s p
  let s := putPlace s p { Placement.reset with
    valid := v.valid, header := v.header, objects := v.objects, entries := v.entries }
  dropPrefetch s p

end Sys2Proof.Machine
end

