-- ==== Sys2Proof/Machine/Matrix.lean ====
section
/-! DEFINITION. Machine/Matrix.lean: the accumulating instructions: product descriptors, operand reads, dense and
sparse products, the hand-over, gradient panels and sparse halves (03, 04 R75 to R78, 05 R92 to R99, 06 R129 and
R131, 10 R218 to R221, 14 R311 to R316). -/

namespace Sys2Proof.Machine

/-! ## The product descriptor (R312) -/

/-- The 64-byte descriptor at an offset of a tile's own store. -/
def ownDesc (s : State) (t off : Nat) : Nat := readNat s (tileAddr t off) 64

/-- Offset 0xFFFF_FFFF: none. -/
abbrev noOffset : Nat := 0xFFFFFFFF

/-- Block size of a block code (R312): 0 for none and for the reserved codes 5 to 7. -/
def blockOfCode (c : Nat) : Nat := if c = 0 || 4 < c then 0 else 16 * 2 ^ (c - 1)

/-- The block size an operand is read with: its own, or in a PER-BLOCK step the fallback block of a narrow operand
that names a scale offset (R129, R313). The step is the partition's; the spec does not say which snapshot an instruction
of the F stream takes that runs ahead into step s + 1 (R25, R128): the model's choice is that of step s (log 66, DESIGN
CHOICE). -/
def effBlock (s : State) (p : Nat) (f : Fmt) (code soff : Nat) : Nat :=
  if code ≠ 0 then blockOfCode code
  else if (getPart s p).perBlock && isNarrow f && soff != noOffset then
    16 * 2 ^ settingAt s (1 + p) 0x3800 3
  else 0

/-- One operand in the tile store: format, block size (0 none), row offset and stride, scale offset and stride,
stored with K as rows, extent of its other dimension and of K. -/
structure Opnd where
  fmt : Fmt
  blk : Nat
  off : Nat
  stride : Nat
  soff : Nat
  sstride : Nat
  kRows : Bool
  lead : Nat
  k : Nat
  deriving DecidableEq, Repr

/-- An element of bits `v` with the scale byte of row `i`, position `k` along K of an area of block scales; block size 0:
none (R313). -/
def scaledElem (s : State) (t blk soff sstride i k : Nat) (f : Fmt) (v : Nat) : Elem :=
  if blk = 0 then elemOf f v 0 else blockElem f v (readByte s (tileAddr t (soff + i * sstride + k / blk))).toNat

/-- Element (`i` of the other dimension, `k`) of an operand (R313). -/
def opndElem (s : State) (t : Nat) (o : Opnd) (i k : Nat) : Elem :=
  let r := if o.kRows then k else i
  let c := if o.kRows then i else k
  let w := fmtWidth o.fmt
  let v := (readNat s (tileAddr t (o.off + r * o.stride + c * w / 8)) 5 >>> (c * w % 8)) % 2 ^ w
  scaledElem s t o.blk o.soff o.sstride i k o.fmt v

/-- The K elements of row or column `i` of an operand. -/
def opndRow (s : State) (t : Nat) (o : Opnd) (i : Nat) : List Elem := (upFrom 0 o.k).map (opndElem s t o i)

/-- Formats the array pairs (R62). -/
def pairOk (a b : Fmt) : Bool :=
  is16 a || is16 b || (a == .int8 && b == .int8) || (a != .int8 && b != .int8)

/-- The faults of one operand's area: alignment, then the 24 MiB bound, its scales included (R313, R332). -/
def opndFault (o : Opnd) : Option IFault :=
  let rows := if o.kRows then o.k else o.lead
  let cols := if o.kRows then o.lead else o.k
  if o.off % 64 ≠ 0 || o.stride % 64 ≠ 0 || (o.blk ≠ 0 && (o.soff % 64 ≠ 0 || o.sstride % 64 ≠ 0)) then
    some ⟨6, 4, o.off⟩
  else if o.off + (rows - 1) * o.stride + packedBytes o.fmt cols > storeBytes ||
      (o.blk ≠ 0 && o.soff + (o.lead - 1) * o.sstride + o.k / o.blk > storeBytes) then some ⟨6, 0, o.off⟩
  else none

/-- The lowest-coded fault of a list of conditions (R332). -/
def lowestFault (l : List (Option IFault)) : Option IFault :=
  l.foldl (fun r f =>
    match r, f with
    | none, f => f
    | r, none => r
    | some a, some b => some (if b.kind < a.kind then b else a)) none

/-- A fault under a condition. -/
def faultIf (b : Bool) (kind detail addr : Nat) : Option IFault := if b then some ⟨kind, detail, addr⟩ else none

/-- M, N and K within R72. -/
def shapeOk (m n k : Nat) : Bool :=
  decide (1 ≤ m) && decide (m ≤ 128) && decide (1 ≤ n) && decide (n ≤ 128) && decide (16 ≤ k) &&
    decide (k ≤ 65536) && k % 16 == 0

/-- K against an operand's block size (R67, R72). -/
def blockShapeOk (k blk : Nat) : Bool := blk == 0 || (k % blk == 0 && decide (k / blk ≤ 64))

/-- Reserved bits and version of a product descriptor, and the block codes of the operands it describes: A, B or both
(R312, R314, R332 code 8). -/
def prodDescOk (d : Nat) (usesA usesB : Bool) : Bool :=
  bits d 3 0 == 1 && bits d 511 452 == 0 && bits d 63 36 == 0 && bits d 19 18 == 0 &&
    (!usesA || decide (bits d 14 12 ≤ 4)) && (!usesB || decide (bits d 17 15 ≤ 4))

/-- The operand A or B that a descriptor describes. -/
def descOpnd (s : State) (p d : Nat) (isA kRows : Bool) (f : Fmt) (lead k : Nat) : Opnd :=
  if isA then
    { fmt := f, blk := effBlock s p f (bits d 14 12) (bits d 191 160), off := bits d 127 96, stride := bits d 159 128
      soff := bits d 191 160, sstride := bits d 303 288, kRows := kRows, lead := lead, k := k }
  else
    { fmt := f, blk := effBlock s p f (bits d 17 15) (bits d 287 256), off := bits d 223 192, stride := bits d 255 224
      soff := bits d 287 256, sstride := bits d 319 304, kRows := kRows, lead := lead, k := k }

/-! ## Accumulation (R57, R68 to R71, R78, R131) -/

/-- Key of PE (i, j). -/
def peKey (i j : Nat) : Nat := i * 128 + j

/-- A row of elements converted to FP8 E4M3 with a scale per 32 values of K (R131): NaN or infinity makes the block
a NaN block (R120). -/
def stepDownRow : Nat → List Elem → List Elem
  | 0, _ => []
  | _, [] => []
  | n + 1, l =>
    let b := l.take 32
    let out :=
      if b.all (fun e => fpIsFin e.v) then
        let e := blockExp .e4m3 (maxMag (b.map Elem.v))
        b.map (fun x => blockElem .e4m3 (convertBlock .e4m3 .nearestEven e x.v) (toField 8 (e + 127)))
      else b.map (fun _ => ({ v := .nan, x := 0 } : Elem))
    out ++ stepDownRow n (l.drop 32)

/-- The chunk values of one PE from its row of A and column of B (R68 to R71). -/
def chunkValues (int8 : Bool) (as bs : List Elem) : List (BitVec 32) :=
  let n := as.length / 128 + 1
  List.zipWith (fun a b => if int8 then chunkInt8 a b else chunkValue a b) (chunks128 n as) (chunks128 n bs)

/-- The accumulator pairs after M x N PEs fold their chunk values; PEs outside are left unchanged (R57). -/
def accumulate (pairs : Map Pair) (m n : Nat) (f : Nat → Nat → List (BitVec 32)) : Map Pair :=
  (upFrom 0 m).foldl (fun mp i => (upFrom 0 n).foldl (fun mp j =>
    mset (0, 0) mp (peKey i j) (foldPairs (mget (0, 0) mp (peKey i j)) (f i j))) mp) pairs

/-- What Matrix answers to the first or next accumulating instruction of a tile (R76, R77, R96): the active set to
accumulate into, a fault, or not ready. -/
inductive Begun where
  | set (a : AccSet)
  | fault (f : IFault)
  | notReady
  deriving DecidableEq, Repr

/-- The fault of a beginning, to be weighed against the instruction's other faults (R332). -/
def Begun.faultOf : Begun → Option IFault
  | .fault f => some f
  | _ => none

/-- The start of an accumulating instruction at Matrix (R76, R77, R97). -/
def beginTile (v : Tile) (x : Stream) (m n product : Nat) : Begun :=
  match v.active.state with
  | .accumulating =>
    if v.active.m ≠ m || v.active.n ≠ n then .fault ⟨3, 0, 0⟩
    else if v.active.product ≠ product then .fault ⟨5, 0, 0⟩
    else .set v.active
  | _ =>
    match v.shadow.state with
    | .ended => if v.shadow.owner = x then .fault ⟨5, 0, 0⟩ else .notReady
    | _ => .set { AccSet.reset with state := .accumulating, m := m, n := n, owner := x, product := product }

/-- Products per PE and ARITH cycle of an operand's format (R58). -/
def fmtKpc (f : Fmt) : Nat := if is16 f then 1 else if f == .e2m1 then 4 else 2

/-- kpc of a pairing: the smaller of the two (R62); a stepped-down product keeps its BF16 time (R131). -/
def pairKpc (a b : Fmt) : Nat := min (fmtKpc a) (fmtKpc b)

/-- The transposing fill of a product's queue operand costs nothing (R65, R98): the latest accumulating instruction at
Matrix was of the stream, and transposed the same operand or was the other product of BWD2; and Fetch started in time,
which is timing, left out, and free (log 67, DESIGN CHOICE). -/
def fillHidden (s : State) (t : Nat) (q : QInstr) (l : LastAcc) : Bool :=
  match (getTile s t).lastAcc with
  | none => false
  | some o =>
    o.x == q.x && o.product != 3 && l.product != 3 &&
      ((l.aT && o.aT) || (l.bT && o.bT) || (o.product + l.product == 3 && o.product != 0)) &&
      !Config.fillLate s.ao t (streamNo q.x) q.seq

/-- The feeders are used by an accumulating instruction; a dense BWD2 whose transposing fill is exposed is counted in
bwd.fills_exposed (R98, R99, R111). -/
def useFeeders (s : State) (t : Nat) (q : QInstr) (l : LastAcc) : State :=
  let exposed := (l.product == 1 || l.product == 2) && (l.aT || l.bT) && !fillHidden s t q l
  let s := if exposed then tileCtr s t 0x26 1 else s
  putTile s t { getTile s t with lastAcc := some l }

/-- An accumulating instruction has made its last accumulation: matrix.busy grows by the ARITH cycles that it occupies the
array for (R52, R59, R219); it is complete, and matrix.macs grows (R61), or waits for the hand-over when it carries the
end-of-tile flag (R76). -/
def finishAccum (s : State) (t : Nat) (q : QInstr) (l : LastAcc) (a : AccSet) (macs busy : Nat) : Started :=
  let s := useFeeders s t q l
  let s := tileCtr (putTile s t { getTile s t with active := a }) t 0x09 busy
  if wEot q.w then .going s (.handOver macs) 0 else .done (tileCtr s t 0x21 macs)

/-- The hand-over (R76): when the shadow set is EMPTY the active set becomes the shadow set, ENDED, and the awaiting
instruction completes; a stepped-down tile is counted (R131); the tile is at its boundary (R56). -/
def handOver (s : State) (t : Nat) : State :=
  let v := getTile s t
  match v.inflight.find? isHandOver with
  | none => s
  | some i =>
    if v.shadow.state = .empty && !v.stopped then
      let s := if v.active.stepped then tileCtr s t 0x2A 1 else s
      let s := match i.why with | .handOver macs => tileCtr s t 0x21 macs | _ => s
      let v := { v with shadow := { v.active with state := .ended }, active := AccSet.reset
                        inflight := v.inflight.filter (fun j => !isHandOver j) }
      takeSettings (putTile s t (completeInstr v i.q)) (1 + t) [0x3110]
    else s

/-! ## Dense MMA and MMA.T (R57, R63, R311) -/

/-- MMA.T's orientation bits; MMA has both natural. -/
def orientT (w : BitVec 128) (bit : Nat) : Bool := wClass w == 0x09 && fld w bit bit == 1

/-- Operand A of a dense product. -/
def denseA (s : State) (p d : Nat) (w : BitVec 128) (f : Fmt) : Opnd :=
  descOpnd s p d true (orientT w 83) f (bits d 27 20) (bits d 95 64)

/-- Operand B of a dense product. -/
def denseB (s : State) (p d : Nat) (w : BitVec 128) (f : Fmt) : Opnd :=
  descOpnd s p d false (!orientT w 82) f (bits d 35 28) (bits d 95 64)

/-- The format of operand A that a descriptor names, BF16 standing for a reserved code. -/
def fmtA (d : Nat) : Fmt := (operandFmt (bits d 7 4)).getD .bf16
/-- The format of operand B. -/
def fmtB (d : Nat) : Fmt := (operandFmt (bits d 11 8)).getD .bf16

/-- What an accumulating instruction of a dense product finds at Matrix. -/
def denseBegun (s : State) (t d : Nat) (q : QInstr) : Begun := beginTile (getTile s t) q.x (bits d 27 20) (bits d 35 28) 0

/-- The conditions of a dense product that its Fetch part checks (R62, R67, R72, R311 to R313, R332). -/
def denseFault (s : State) (p d : Nat) (q : QInstr) : Option IFault :=
  let m := bits d 27 20; let n := bits d 35 28; let k := bits d 95 64
  let fa := fmtA d; let fb := fmtB d
  let okA := (operandFmt (bits d 7 4)).isSome; let okB := (operandFmt (bits d 11 8)).isSome
  let a := denseA s p d q.w fa; let b := denseB s p d q.w fb
  let da := wDesc q.w
  lowestFault [
    faultIf (!(shapeOk m n k && blockShapeOk k a.blk && blockShapeOk k b.blk)) 3 0 da,
    faultIf (!okA || !okB || !pairOk fa fb || (is16 fa && bits d 14 12 != 0) || (is16 fb && bits d 17 15 != 0)) 4 0 da,
    if okA then opndFault a else none, if okB then opndFault b else none, faultIf (!prodDescOk d true true) 8 0 da]

/-- A stepped-down F product converts its BF16 operands first (R131). -/
def isSteppedDown (s : State) (p : Nat) (q : QInstr) (fa fb : Fmt) : Bool :=
  q.x == .f && fa == .bf16 && fb == .bf16 && fld q.w 84 84 == 1 && (getPart s p).steppedDown

/-- The pairs after a dense product (R57, R68 to R71, R78). -/
def densePairs (s : State) (p t d : Nat) (q : QInstr) (fa fb : Fmt) (old : Map Pair) : Map Pair :=
  let m := bits d 27 20; let n := bits d 35 28
  let a := denseA s p d q.w fa; let b := denseB s p d q.w fb
  let prep := fun (l : List Elem) => if isSteppedDown s p q fa fb then stepDownRow (l.length / 32 + 1) l else l
  let as := (upFrom 0 m).map (fun i => prep (opndRow s t a i))
  let bs := (upFrom 0 n).map (fun j => prep (opndRow s t b j))
  let int8 := fa == .int8 && fb == .int8 && a.blk == 0 && b.blk == 0
  accumulate old m n (fun i j => chunkValues int8 (as.getD i []) (bs.getD j []))

/-- The feeders that a dense product uses: transposed A and B (R63). -/
def denseFeeders (q : QInstr) : LastAcc :=
  { x := q.x, product := 0, aT := orientT q.w 83, bT := orientT q.w 82 }

/-- The dense product of MMA and MMA.T; its operands are read from `so`, the state or what the operand queues hold. -/
def runDense (s so : State) (p t d : Nat) (q : QInstr) : Started :=
  match lowestFault [denseFault s p d q, (denseBegun s t d q).faultOf] with
  | some f => .fault f
  | none =>
    match denseBegun s t d q with
    | .set acc =>
      let m := bits d 27 20; let n := bits d 35 28; let k := bits d 95 64
      finishAccum s t q (denseFeeders q)
        { acc with stepped := acc.stepped || isSteppedDown s p q (fmtA d) (fmtB d)
                   pairs := densePairs so p t d q (fmtA d) (fmtB d) acc.pairs }
        (m * n * k) (ceilDiv k (pairKpc (fmtA d) (fmtB d)))
    | _ => .notReady

/-! ## Panels and halves (R93, R94, R218) -/

/-- Element (r, c) of a panel. -/
def panelElem (b : Panel) (r c : Nat) : Elem := elemOf b.fmt (mget 0 b.elems (r * b.cols + c)) 0

/-- A buffer or half holds a panel, or is loading one, whose shape and format stand from the start of its load. -/
def Panel.present (b : Panel) : Bool := b.full || b.loading

/-- The panel that a load reads from the tile store (R94, R312). -/
def readPanel (s : State) (t d : Nat) (f : Fmt) : Panel :=
  let rows := bits d 399 384; let cols := bits d 415 400
  let off := bits d 351 320; let stride := bits d 383 352
  let w := fmtWidth f
  { full := true, loading := false, rows := rows, cols := cols, fmt := f
    elems := (upFrom 0 rows).foldl (fun mp r => (upFrom 0 cols).foldl (fun mp c =>
      mset 0 mp (r * cols + c) ((readNat s (tileAddr t (off + r * stride + c * w / 8)) 5 >>> (c * w % 8)) % 2 ^ w))
      mp) [] }

/-- The instruction loads its buffer or half (R94, R316). -/
def loadsPanel (w : BitVec 128) : Bool :=
  if wClass w == 0x0A then fld w 82 82 == 1 else isSparse w && fld w 80 80 == 1

/-- The buffer or half number the instruction names (R311). -/
def panelNo (w : BitVec 128) : Nat := if wClass w == 0x0A then fld w 83 83 else fld w 81 81

/-- The named buffer or half. -/
def panelOf (v : Tile) (w : BitVec 128) (n : Nat) : Panel :=
  mget Panel.reset (if isSparse w then v.halves else v.panels) n

/-- The tile with a buffer or half replaced. -/
def putPanel (v : Tile) (w : BitVec 128) (n : Nat) (b : Panel) : Tile :=
  if isSparse w then { v with halves := mset Panel.reset v.halves n b }
  else { v with panels := mset Panel.reset v.panels n b }

/-- The instruction reads the buffer or half. -/
def readsPanel (w : BitVec 128) (sparse : Bool) (n : Nat) : Bool :=
  isSparse w == sparse &&
    (if wClass w == 0x0A then (if sparse && fld w 84 84 == 1 then true else fld w 83 83 == n)
     else sparse && fld w 81 81 == n)

/-- A gradient panel's shape (R93). -/
def panelShapeOk (r c : Nat) : Bool :=
  r % 16 == 0 && c % 16 == 0 && decide (16 ≤ r) && decide (r ≤ 256) && decide (16 ≤ c) && decide (c ≤ 8192) &&
    decide (r * c ≤ 131072)

/-- A sparse half's panel (R218): 1 to 128 rows within 512 KiB. -/
def halfShapeOk (r c : Nat) (f : Fmt) : Bool :=
  decide (1 ≤ r) && decide (r ≤ 128) && decide (1 ≤ c) && decide (r * packedBytes f c ≤ 524288)

/-- Formats a sparse half holds (R218). -/
def halfFmtOk (f : Fmt) : Bool := is16 f || f == .e4m3 || f == .e5m2 || f == .int8

/-- A buffer or half while a load described by `d` runs: the shape and format to come, no elements (R94, R312). -/
def panelToBe (d : Nat) : Panel :=
  { full := false, loading := true, rows := bits d 399 384, cols := bits d 415 400
    fmt := (operandFmt (bits d 419 416)).getD .bf16, elems := [] }

/-- The conditions of a panel load's descriptor fields (R93, R94, R97, R218, R221, R314). -/
def panelFault (w : BitVec 128) (da d : Nat) : Option IFault :=
  let b := panelToBe d
  let ok := (operandFmt (bits d 419 416)).isSome
  let off := bits d 351 320; let stride := bits d 383 352
  lowestFault [
    faultIf (!(if isSparse w then
        (if ok then halfShapeOk b.rows b.cols b.fmt else decide (1 ≤ b.rows) && decide (b.rows ≤ 128) && decide (1 ≤ b.cols))
      else panelShapeOk b.rows b.cols)) 3 0 da,
    faultIf (!ok || !(if isSparse w then halfFmtOk b.fmt else is16 b.fmt)) 4 0 da,
    faultIf (off % 64 != 0 || stride % 64 != 0) 6 4 off,
    faultIf (ok && decide (off + (b.rows - 1) * stride + packedBytes b.fmt b.cols > storeBytes)) 6 0 off]

/-! ## Dense BWD2 (R92, R96, R97, R314) -/

/-- A BWD2 forms DW; otherwise DX (R96). -/
def isDw (w : BitVec 128) : Bool := fld w 84 84 == 1

/-- The operand in the tile store of a dense BWD2, with the panel's extent as K (R96, R314). -/
def bwd2Opnd (s : State) (p d : Nat) (w : BitVec 128) (b : Panel) (f : Fmt) : Opnd :=
  let nat := fld w 81 81 == 1
  if isDw w then descOpnd s p d true (!nat) f (bits d 27 20) b.rows
  else descOpnd s p d false nat f (bits d 35 28) b.cols

/-- Format of a dense BWD2's operand. -/
def bwd2Fmt (d : Nat) (w : BitVec 128) : Option Fmt := operandFmt (if isDw w then bits d 7 4 else bits d 11 8)

/-- The conditions of a dense BWD2 against its panel (R93, R97, R314, R332): an empty buffer has no shape and no format
to hold the others against. -/
def bwd2Fault (s : State) (p d : Nat) (q : QInstr) (b : Panel) : Option IFault :=
  let da := wDesc q.w
  let m := bits d 27 20; let n := bits d 35 28
  let k := if isDw q.w then b.rows else b.cols
  let f := (bwd2Fmt d q.w).getD .bf16
  let o := bwd2Opnd s p d q.w b f
  lowestFault [
    faultIf (!(if b.present then
        shapeOk m n k && blockShapeOk k o.blk &&
          decide (fld q.w 80 68 + (if isDw q.w then n else m) ≤ (if isDw q.w then b.cols else b.rows))
      else shapeOk m n 16)) 3 0 da,
    faultIf ((bwd2Fmt d q.w).isNone || (b.present && !pairOk f b.fmt) ||
      (is16 f && (if isDw q.w then bits d 14 12 else bits d 17 15) != 0)) 4 0 da,
    faultIf (!b.present) 5 0 da,
    if b.present && (bwd2Fmt d q.w).isSome then opndFault o else none,
    faultIf (!prodDescOk d (isDw q.w) (!isDw q.w)) 8 0 da]

/-- The pairs after a dense BWD2 product: DX takes rows of the panel against the operand, DW the operand against columns
of the panel, from the panel base on (R92, R96). -/
def bwd2Pairs (s : State) (p t d : Nat) (q : QInstr) (b : Panel) (f : Fmt) (old : Map Pair) : Map Pair :=
  let m := bits d 27 20; let n := bits d 35 28
  let base := fld q.w 80 68
  let o := bwd2Opnd s p d q.w b f
  let as := (upFrom 0 m).map (fun i =>
    if isDw q.w then opndRow s t o i else (upFrom 0 b.cols).map (fun c => panelElem b (base + i) c))
  let bs := (upFrom 0 n).map (fun j =>
    if isDw q.w then (upFrom 0 b.rows).map (fun r => panelElem b r (base + j)) else opndRow s t o j)
  accumulate old m n (fun i j => chunkValues false (as.getD i []) (bs.getD j []))

/-- What a dense BWD2 finds at Matrix. -/
def bwd2Begun (s : State) (t d : Nat) (q : QInstr) : Begun :=
  beginTile (getTile s t) q.x (bits d 27 20) (bits d 35 28) (if isDw q.w then 2 else 1)

/-- The feeder that a dense BWD2 uses: its queue operand's, unless that is natural (R92, R96). -/
def bwd2Feeders (q : QInstr) : LastAcc :=
  let tr := fld q.w 81 81 == 0
  { x := q.x, product := if isDw q.w then 2 else 1, aT := isDw q.w && tr, bT := !isDw q.w && tr }

/-- The dense BWD2 product: it waits while its buffer is loading (R94). -/
def runBwd2 (s so : State) (p t d : Nat) (q : QInstr) : Started :=
  let b := panelOf (getTile s t) q.w (panelNo q.w)
  if b.loading then .notReady
  else
    match lowestFault [bwd2Fault s p d q b, (bwd2Begun s t d q).faultOf] with
    | some f => .fault f
    | none =>
      match bwd2Begun s t d q with
      | .set acc =>
        let k := if isDw q.w then b.rows else b.cols
        finishAccum s t q (bwd2Feeders q)
          { acc with pairs := bwd2Pairs so p t d q b ((bwd2Fmt d q.w).getD .bf16) acc.pairs }
          (bits d 27 20 * bits d 35 28 * k) k
      | _ => .notReady

/-! ## Sparse products (R215 to R221, R315, R316) -/

/-- The three plans: 0 F, 1 T, 2 G (R315). -/
def planKind (w : BitVec 128) : Nat := if wClass w == 0x0A then (if fld w 84 84 == 1 then 2 else 1) else 0

/-- The plan tile index an instruction names (R311). -/
def planTile (w : BitVec 128) : Nat := if wClass w == 0x0A then fld w 55 32 else fld w 79 56

/-- Lane entry `l` of an F or T record (R217). -/
def laneEntry (rcd l : Nat) : Nat := (rcd >>> (64 * l)) % 2 ^ 64

/-- Bytes of a plan record (R216). -/
def recordBytes (kind : Nat) : Nat := if kind = 2 then 256 else 64

/-- The record of a plan tile, as copied to the store (R216, R315). -/
def planRecord (s : State) (t d kind i : Nat) : Nat :=
  readNat s (tileAddr t (bits d 127 96 + i * recordBytes kind)) (recordBytes kind)

/-- The plan of the partition that the module built with this header and this record, the latest (R216; log 82, DEDUCED). -/
def builtPlan (s : State) (p kind hdr pt rcd : Nat) : Option BuiltPlan :=
  s.plans.find? (fun b => b.part == p && b.header == hdr && (b.recs.getD kind [])[pt]? == some rcd)

/-- The block size of a plan: what the module built it with; of a plan that it did not build, 16 where a lane beyond the
fourth is used, else free (R216, R219; log 16, DESIGN CHOICE). -/
def planBlock (s : State) (p kind hdr pt rcd : Nat) : Nat :=
  match builtPlan s p kind hdr pt rcd with
  | some b => b.block
  | none =>
    let used := if kind = 2 then bits rcd 2047 1024 ≠ 2 ^ 1024 - 1 else bits rcd 511 256 ≠ 0
    if used then 16 else if Config.planIs32 hdr then 32 else 16

/-- The block-row of block `q` by `rowptr` (R211). -/
def rowOfBlock (rowptr : List Nat) (q : Nat) : Nat := ((rowptr.drop 1).filter (fun e => decide (e ≤ q))).length

/-- The block-row that a block of a G record names: by the plan's `rowptr`; of a plan that the module did not build, free
(R217; log 16, DESIGN CHOICE). -/
def planRow (s : State) (p hdr pt rcd q : Nat) : Nat :=
  match builtPlan s p 2 hdr pt rcd with
  | some b => rowOfBlock b.rowptr q
  | none => Config.planBlockRow hdr q

/-- Whether a record's first lane continues in the next plan tile (R217). -/
def chainNext (kind rcd : Nat) : Bool := kind != 2 && bitSet rcd 62

/-- A run of an F plan whose mask lost entries: `len` list positions from `i` on, those dropped passed over, which name
a block-column outside the layer's `cols` (R212, R214; log 82, DEDUCED). -/
def walkKept (s : State) (t x cols : Nat) : Nat → Nat → Nat → List (Nat × Nat)
  | 0, _, _ => []
  | _, 0, _ => []
  | fuel + 1, len + 1, i =>
    let c := readNat s (tileAddr t (x + 4 * i)) 4
    if c < cols then (i, c) :: walkKept s t x cols fuel len (i + 1) else walkKept s t x cols fuel (len + 1) (i + 1)

/-- The blocks that a lane walks: (block number, column block of the half) (R219); `cols` block-columns of the half,
`dropped` entries that the mask lost. -/
def laneBlocks (s : State) (t d kind cols dropped e : Nat) : List (Nat × Nat) :=
  let start := bits e 31 0; let len := bits e 43 32
  let x := bits d 451 420
  if kind = 0 && dropped ≠ 0 then walkKept s t x cols (len + dropped) len start
  else (upFrom start len).map (fun i =>
    if kind = 1 then
      let ent := readNat s (tileAddr t (x + 8 * i)) 8
      (bits ent 31 0, bits ent 47 32)
    else (i, readNat s (tileAddr t (x + 4 * i)) 4))

/-- The G cell of a lane: its block number, none for an empty cell (R217). -/
def gCell (rcd lanes l c : Nat) : Option Nat :=
  let v := (rcd >>> (256 * l + 32 * c)) % 2 ^ 32
  if v = 0xFFFFFFFF || l ≥ lanes then none else some v

/-- The active set at the start of a sparse plan tile, with the turn of a chain checked (R220, R221). -/
def beginSparse (v : Tile) (x : Stream) (m n kind tile : Nat) (chain cont : Bool) (out : SparseOut) : Begun :=
  match beginTile v x m n (10 + kind) with
  | .set a =>
    match a.sparse with
    | some o =>
      if o.chain && o.nextTile = tile && cont then
        .set { a with sparse := some { o with chain := chain, nextTile := tile + 1 } }
      else .fault ⟨5, 0, 0⟩
    | none => if cont then .fault ⟨5, 0, 0⟩ else .set { a with sparse := some out }
  | r => r

/-- A cell of a G tile: lane, cell of the lane, block number, block-row and block-column. -/
structure GCell where
  lane : Nat
  cell : Nat
  blk : Nat
  row : Nat
  col : Nat
  deriving DecidableEq, Repr

/-- What a sparse product reads: descriptor, plan, plan tile, header and record as copied, block size, the half with the
panel of an F or T product or dY of a DW, the half with X of a DW, the blocks of each lane, the cells of a G tile, the block
sizes with which A and B are read in a PER-BLOCK step, 0 for none (R129, R219, R315, R316). -/
structure Sparse where
  d : Nat
  kind : Nat
  pt : Nat
  hdr : Nat
  rcd : Nat
  b : Nat
  h : Panel
  x : Panel
  runs : List (List (Nat × Nat))
  cells : List GCell
  blkA : Nat
  blkB : Nat
  deriving DecidableEq, Repr

/-- The cells of a G record, with the block-row of their lane's first cell (R217). -/
def gCells (s so : State) (p t d hdr pt rcd b : Nat) : List GCell :=
  let lanes := 128 / b
  (upFrom 0 lanes).flatMap (fun l =>
    let row := planRow s p hdr pt rcd ((gCell rcd lanes l 0).getD 0)
    (upFrom 0 lanes).filterMap (fun c => (gCell rcd lanes l c).map (fun q =>
      ⟨l, c, q, row, readNat so (tileAddr t (bits d 451 420 + 4 * q)) 4⟩)))

/-- What the sparse product of an instruction reads, its bytes from `so`. -/
def sparseView (s so : State) (p t d : Nat) (q : QInstr) : Sparse :=
  let v := getTile s t
  let kind := planKind q.w; let pt := planTile q.w
  let hdr := readNat so (tileAddr t (bits d 127 96 - 64)) 64
  let rcd := planRecord so t d kind pt
  let b := planBlock s p kind hdr pt rcd
  let h := mget Panel.reset v.halves (if kind = 2 then 0 else panelNo q.w)
  let x := mget Panel.reset v.halves 1
  { d := d, kind := kind, pt := pt, hdr := hdr, rcd := rcd, b := b, h := h, x := x
    runs := if kind = 2 then [] else (upFrom 0 (128 / b)).map (fun l =>
      laneBlocks so t d kind (h.cols / b) (bits hdr 255 224) (laneEntry rcd l))
    cells := if kind = 2 then gCells s so p t d hdr pt rcd b else []
    blkA := effBlock s p (if kind = 2 then x.fmt else h.fmt) 0 (bits d 191 160)
    blkB := effBlock s p (if kind = 2 then h.fmt else fmtB d) 0 (bits d 287 256) }

/-- The halves that the product reads hold a panel or load one. -/
def Sparse.present (v : Sparse) : Bool := v.h.present && (v.kind != 2 || v.x.present)

/-- A half that the product reads is loading (R94, R218). -/
def Sparse.loading (v : Sparse) : Bool := v.h.loading || (v.kind == 2 && v.x.loading)

/-- Formats of the product's operands A and B (R62, R219). -/
def Sparse.fmts (v : Sparse) : Fmt × Fmt := if v.kind = 2 then (v.x.fmt, v.h.fmt) else (v.h.fmt, fmtB v.d)

/-- The plan tiles that the header counts (R216). -/
def Sparse.tiles (v : Sparse) : Nat :=
  if v.kind = 0 then bits v.hdr 159 128 else if v.kind = 1 then bits v.hdr 191 160 else bits v.hdr 223 192

/-- The product's panels and the blocks it names fit its halves, its runs are whole, and K keeps within a PER-BLOCK step's
scales (R67, R218, R221; log 81, DEDUCED). -/
def Sparse.fits (v : Sparse) (m : Nat) : Bool :=
  if v.kind = 2 then
    v.h.rows == v.x.rows && blockShapeOk v.h.rows v.blkA && blockShapeOk v.h.rows v.blkB &&
      v.cells.all (fun c => decide ((c.col + 1) * v.b ≤ v.x.cols) && decide ((c.row + 1) * v.b ≤ v.h.cols))
  else
    decide (m ≤ v.h.rows) &&
      (v.runs.zip (upFrom 0 v.runs.length)).all (fun l =>
        l.1.length == bits (laneEntry v.rcd l.2) 43 32 && l.1.all (fun e => decide ((e.2 + 1) * v.b ≤ v.h.cols)) &&
          blockShapeOk (l.1.length * v.b) v.blkA && blockShapeOk (l.1.length * v.b) v.blkB)

/-- Ends of the areas of the tile store that the product reads: value blocks, list or T index, block scales (R315). -/
def Sparse.ends (v : Sparse) (m : Nat) : List Nat :=
  let fb := fmtB v.d
  let top := fun (l : List Nat) => maxOf (l.map (· + 1))
  let scale := fun (blk off stride n k : Nat) => if blk = 0 || n = 0 then 0 else off + (n - 1) * stride + ceilDiv k blk
  if v.kind = 2 then
    [bits v.d 451 420 + 4 * top (v.cells.map GCell.blk),
     scale v.blkA (bits v.d 191 160) (bits v.d 303 288) v.x.cols v.x.rows,
     scale v.blkB (bits v.d 287 256) (bits v.d 319 304) v.h.cols v.h.rows]
  else
    let blocks := (v.runs.flatten).map Prod.fst
    let lists := (upFrom 0 v.runs.length).map (fun l =>
      if bits (laneEntry v.rcd l) 43 32 = 0 then 0 else bits (laneEntry v.rcd l) 31 0 + bits (laneEntry v.rcd l) 43 32)
    [bits v.d 451 420 + (if v.kind = 1 then 8 else 4) * (if v.kind = 1 then maxOf lists else max (maxOf lists) (top blocks)),
     bits v.d 223 192 + packedBytes fb (top blocks * v.b * v.b),
     scale v.blkA (bits v.d 191 160) (bits v.d 303 288) m v.h.cols,
     scale v.blkB (bits v.d 287 256) (bits v.d 319 304) 128 (maxOf (v.runs.map List.length) * v.b)]

/-- The value blocks that an F or T product reads, in the order of its lanes' walks: they pass operand queue B (R219). -/
def Sparse.values (v : Sparse) : List (Nat × Nat) :=
  let packed := fun (q : Nat) => packedBytes (fmtB v.d) (q * v.b * v.b)
  (v.runs.flatten).map (fun e => (bits v.d 223 192 + packed e.1, packed 1))

/-- The areas of the tile store that the product reads (R315, R316). -/
def Sparse.areas (v : Sparse) (m : Nat) : List (Nat × Nat) :=
  let at0 := bits v.d 127 96; let x := bits v.d 451 420
  let scale := fun (blk off stride n k : Nat) => if blk = 0 || n = 0 then [] else [(off, (n - 1) * stride + ceilDiv k blk)]
  [(at0 - 64, 64), (at0 + v.pt * recordBytes v.kind, recordBytes v.kind)] ++
    (if v.pt = 0 then [] else [(at0 + (v.pt - 1) * recordBytes v.kind, recordBytes v.kind)]) ++
    (if v.kind = 2 then
      v.cells.map (fun c => (x + 4 * c.blk, 4)) ++
        scale v.blkA (bits v.d 191 160) (bits v.d 303 288) v.x.cols v.x.rows ++
        scale v.blkB (bits v.d 287 256) (bits v.d 319 304) v.h.cols v.h.rows
     else
      (upFrom 0 v.runs.length).map (fun l =>
        let e := laneEntry v.rcd l; let w := if v.kind = 1 then 8 else 4
        (x + w * bits e 31 0, w * bits e 43 32)) ++
        v.values ++
        scale v.blkA (bits v.d 191 160) (bits v.d 303 288) m v.h.cols ++
        scale v.blkB (bits v.d 287 256) (bits v.d 319 304) 128 (maxOf (v.runs.map List.length) * v.b))

/-- The conditions of a sparse product (R62, R218 to R221, R315, R316, R332): a plan that is not ready has no tile count,
and an empty half no panel, to hold the others against. K, the length of a lane's reduction, meets no limit of R72: whether
its 16 to 65,536 holds for a sparse product the spec does not say (R218, R219; log 88, DESIGN CHOICE). -/
def sparseFault (q : QInstr) (v : Sparse) : Option IFault :=
  let da := wDesc q.w
  let m := bits v.d 27 20
  let ready := bits v.hdr 7 4 == 1
  let codes := (operandFmt (bits v.d 7 4)).isSome && (operandFmt (bits v.d 11 8)).isSome
  let at0 := bits v.d 127 96
  lowestFault [
    faultIf (!(decide (1 ≤ m) && decide (m ≤ 128) && bits v.d 35 28 == 128 && (!ready || decide (v.pt < v.tiles)) &&
      (!ready || !v.present || v.fits m))) 3 0 da,
    faultIf (!codes || (v.kind != 2 && !halfFmtOk (fmtB v.d)) || bits v.d 17 12 != 0 ||
      (v.present && !pairOk v.fmts.1 v.fmts.2)) 4 0 da,
    faultIf (!ready || !v.present) 5 0 da,
    faultIf (at0 % 64 != 0 || bits v.d 223 192 % 64 != 0 || bits v.d 451 420 % 64 != 0 ||
      (v.blkA != 0 && (bits v.d 191 160 % 64 != 0 || bits v.d 303 288 % 64 != 0)) ||
      (v.blkB != 0 && (bits v.d 287 256 % 64 != 0 || bits v.d 319 304 % 64 != 0))) 6 4 at0,
    faultIf (decide (at0 < 64) || decide (at0 + (v.pt + 1) * recordBytes v.kind > storeBytes) ||
      (ready && v.present && (v.ends m).any (fun e => decide (storeBytes < e)))) 6 0 at0,
    faultIf (!prodDescOk v.d false false) 8 0 da]

/-- What a sparse product finds at Matrix (R220, R221). -/
def sparseBegun (s so : State) (t : Nat) (q : QInstr) (v : Sparse) : Begun :=
  let lanes := 128 / v.b
  let cont := decide (0 < v.pt) && chainNext v.kind (planRecord so t v.d v.kind (v.pt - 1))
  beginSparse (getTile s t) q.x (bits v.d 27 20) (bits v.d 35 28) v.kind v.pt (chainNext v.kind v.rcd) cont
    { plan := v.kind, block := v.b
      rows := (upFrom 0 lanes).map (fun l =>
        if l ≠ 0 && laneEntry v.rcd l = 0 then none else some (bits (laneEntry v.rcd l) 59 44))
      cells := (upFrom 0 lanes).flatMap (fun l => (upFrom 0 lanes).map (gCell v.rcd lanes l))
      chain := chainNext v.kind v.rcd, nextTile := v.pt + 1 }

/-- Element (r, c) of a half, with the scale of row `i`, position `k` in a PER-BLOCK step (R129; log 81, DEDUCED). -/
def halfElem (so : State) (t blk soff sstride : Nat) (h : Panel) (r c i k : Nat) : Elem :=
  scaledElem so t blk soff sstride i k h.fmt (mget 0 h.elems (r * h.cols + c))

/-- Value element (n, k) of block `q`, position n * b + k, with the scale of column `j`, position `pos` of the lane's walk
in a PER-BLOCK step (R211, R219; log 81, DEDUCED). -/
def valueElem (so : State) (t : Nat) (v : Sparse) (q n k j pos : Nat) : Elem :=
  let f := fmtB v.d
  let w := fmtWidth f
  let at0 := (q * v.b * v.b + n * v.b + k) * w
  scaledElem so t v.blkB (bits v.d 287 256) (bits v.d 319 304) j pos f
    ((readNat so (tileAddr t (bits v.d 223 192 + at0 / 8)) 5 >>> (at0 % 8)) % 2 ^ w)

/-- The elements of A, row `i` of the panel, and of B, array column `j`, along the walk of the column's lane (R219). -/
def laneOperands (so : State) (t : Nat) (v : Sparse) (i j : Nat) : List Elem × List Elem :=
  let walk := (v.runs.getD (j / v.b) []).flatMap (fun e => (upFrom 0 v.b).map (fun k => (e, k)))
  (walk.map (fun e =>
      halfElem so t v.blkA (bits v.d 191 160) (bits v.d 303 288) v.h i (e.1.2 * v.b + e.2) i (e.1.2 * v.b + e.2)),
   (walk.zip (upFrom 0 walk.length)).map (fun e =>
      if v.kind = 1 then valueElem so t v e.1.1.1 e.1.2 (j % v.b) j e.2
      else valueElem so t v e.1.1.1 (j % v.b) e.1.2 j e.2))

/-- The elements of X and dY that PE (i, j) of a DW product multiplies, none outside the record's cells (R219). -/
def cellOperands (so : State) (t : Nat) (v : Sparse) (i j : Nat) : List Elem × List Elem :=
  match v.cells.find? (fun c => c.lane == j / v.b && c.cell == i / v.b) with
  | none => ([], [])
  | some c =>
    let a := c.col * v.b + i % v.b; let b := c.row * v.b + j % v.b
    ((upFrom 0 v.x.rows).map (fun r => halfElem so t v.blkA (bits v.d 191 160) (bits v.d 303 288) v.x r a a r),
     (upFrom 0 v.h.rows).map (fun r => halfElem so t v.blkB (bits v.d 287 256) (bits v.d 319 304) v.h r b b r))

/-- The pairs after a sparse product: PEs of the M rows alone (R57, R219). In a stepped-down product the blocks of 32 run
along the walk of a lane for both operands (R131; log 90, DESIGN CHOICE). -/
def sparsePairs (so : State) (t : Nat) (v : Sparse) (down : Bool) (old : Map Pair) : Map Pair :=
  let int8 := v.fmts.1 == .int8 && v.fmts.2 == .int8 && v.blkA == 0 && v.blkB == 0
  let prep := fun (l : List Elem) => if down then stepDownRow (l.length / 32 + 1) l else l
  accumulate old (bits v.d 27 20) 128 (fun i j =>
    let o := if v.kind = 2 then cellOperands so t v i j else laneOperands so t v i j
    if o.1.isEmpty then [] else chunkValues int8 (prep o.1) (prep o.2))

/-- Products and ARITH cycles of a sparse product (R92, R219). -/
def sparseWork (v : Sparse) (m : Nat) : Nat × Nat :=
  if v.kind = 2 then (v.h.rows * v.b * v.b * v.cells.length, v.h.rows)
  else (m * v.b * v.b * (v.runs.map List.length).sum,
    ceilDiv (maxOf (v.runs.map List.length) * v.b) (if v.kind = 1 then 1 else pairKpc v.fmts.1 v.fmts.2))

/-- The Matrix part of a sparse MMA or BWD2 (R219 to R221): it waits while a half of its is loading (R94, R218). -/
def runSparse (s so : State) (p t d : Nat) (q : QInstr) : Started :=
  let v := sparseView s so p t d q
  if v.loading then .notReady
  else
    match lowestFault [sparseFault q v, (sparseBegun s so t q v).faultOf] with
    | some f => .fault f
    | none =>
      match sparseBegun s so t q v with
      | .set acc =>
        let down := isSteppedDown s p q v.fmts.1 v.fmts.2
        let w := sparseWork v (bits d 27 20)
        finishAccum s t q { x := q.x, product := 3, aT := false, bT := false }
          { acc with stepped := acc.stepped || down, pairs := sparsePairs so t v down acc.pairs } w.1 w.2
      | _ => .notReady

/-! ## The accumulating instructions (R33, R36, R94, R109, R312) -/

/-- A skipped DW: tokens and any panel load apply, nothing accumulates (R109). -/
def skipDw (s : State) (t : Nat) (q : QInstr) : Started :=
  .done (if wEot q.w then tileCtr s t 0x27 1 else s)

/-- The conditions of an accumulating instruction that its Fetch part checks. -/
def accumFault (s : State) (p t d : Nat) (q : QInstr) : Option IFault :=
  if isSparse q.w then sparseFault q (sparseView s s p t d q)
  else if wClass q.w == 0x0A then bwd2Fault s p d q (panelOf (getTile s t) q.w (panelNo q.w))
  else denseFault s p d q

/-- The Matrix part of an accumulating instruction, its bytes of the tile store read from `so`. -/
def runAccum (s so : State) (p t d : Nat) (q : QInstr) : Started :=
  if isSparse q.w then runSparse s so p t d q
  else if wClass q.w == 0x0A then runBwd2 s so p t d q
  else runDense s so p t d q

/-- The rows of an operand as they lie in the tile store: offset and bytes. -/
def opndRows (o : Opnd) : List (Nat × Nat) :=
  (upFrom 0 (if o.kRows then o.k else o.lead)).map (fun r =>
    (o.off + r * o.stride, packedBytes o.fmt (if o.kRows then o.lead else o.k)))

/-- The scales of an operand: offset and bytes. -/
def opndScales (o : Opnd) : List (Nat × Nat) :=
  if o.blk = 0 then [] else [(o.soff, (o.lead - 1) * o.sstride + o.k / o.blk)]

/-- Operands that a dense accumulating instruction streams through queues A and B, `b` being its panel buffer. -/
def streamedOpnds (s : State) (p d : Nat) (w : BitVec 128) (b : Panel) : Option Opnd × Option Opnd :=
  if wClass w = 0x0A then
    let o := bwd2Opnd s p d w b ((bwd2Fmt d w).getD .bf16)
    if isDw w then (some o, none) else (none, some o)
  else (some (denseA s p d w (fmtA d)), some (denseB s p d w (fmtB d)))

/-- The area of the panel that a load reads (R94, R316). -/
def panelRun (d : Nat) : Nat × Nat :=
  (bits d 351 320, (bits d 399 384 - 1) * bits d 383 352 +
    packedBytes ((operandFmt (bits d 419 416)).getD .bf16) (bits d 415 400))

/-- The tile's state with the buffer or half that an instruction loads as its load will leave it. -/
def panelSoon (s : State) (t d : Nat) (w : BitVec 128) : State :=
  if loadsPanel w then putTile s t (putPanel (getTile s t) w (panelNo w) (panelToBe d)) else s

/-- The areas that an accumulating instruction, with the panel load of its own, reads from the tile store (R312 to R316). -/
def accumRuns (s : State) (p t d : Nat) (q : QInstr) : List (Nat × Nat) :=
  let s := panelSoon s t d q.w
  (wDesc q.w, 64) :: (if loadsPanel q.w then [panelRun d] else []) ++
    (if q.skip then []
     else if isSparse q.w then (sparseView s s p t d q).areas (bits d 27 20)
     else
      let o := streamedOpnds s p d q.w (panelOf (getTile s t) q.w (panelNo q.w))
      (o.1.toList ++ o.2.toList).flatMap (fun o => opndRows o ++ opndScales o))

/-- What an accumulating instruction streams through operand queues A and B, as areas of the tile store in the order of
their entries, its plan read from `so`; the entries follow the rows, or value blocks, as they are stored (R36; log 87,
DESIGN CHOICE). -/
def queueRuns (s so : State) (p t d : Nat) (q : QInstr) : List (Nat × Nat) × List (Nat × Nat) :=
  if isSparse q.w then ([], (sparseView s so p t d q).values)
  else
    let o := streamedOpnds s p d q.w (panelOf (getTile s t) q.w (panelNo q.w))
    (o.1.toList.flatMap opndRows, o.2.toList.flatMap opndRows)

/-- What it reads beside them as its operands begin to stream: scales, plan, lists. -/
def besideRuns (s : State) (p t d : Nat) (q : QInstr) : List (Nat × Nat) :=
  if isSparse q.w then
    let v := sparseView s s p t d q
    (v.areas (bits d 27 20)).filter (fun r => !v.values.contains r)
  else
    let o := streamedOpnds s p d q.w (panelOf (getTile s t) q.w (panelNo q.w))
    (o.1.toList ++ o.2.toList).flatMap opndScales

/-- Bytes of an entry of the operand and drain queues (R36). -/
abbrev entryBytes : Nat := 512

/-- Entries that areas fill, one after another (R36). -/
def entriesOf (l : List (Nat × Nat)) : Nat := ceilDiv (sumOf (l.map Prod.snd)) entryBytes

/-- The parts of areas, laid end to end, from one position to another. -/
def clipRuns : List (Nat × Nat) → Nat → Nat → List (Nat × Nat)
  | [], _, _ => []
  | (a, n) :: l, lo, hi =>
    (if lo < min n hi then [(a + lo, min n hi - lo)] else []) ++ clipRuns l (lo - n) (hi - n)

/-- The parts of areas that entries from number i up to number j carry. -/
def entryRuns (l : List (Nat × Nat)) (i j : Nat) : List (Nat × Nat) := clipRuns l (i * entryBytes) (j * entryBytes)

/-- The bytes of areas of a tile's store, by device address. -/
def capture (s : State) (t : Nat) (l : List (Nat × Nat)) : Map (BitVec 8) :=
  s.mem.filter (fun e => decide (tileAddr t 0 ≤ e.1) && decide (e.1 < tileAddr t storeBytes) &&
    l.any (fun r => decide (tileAddr t r.1 ≤ e.1) && decide (e.1 < tileAddr t (r.1 + r.2))))

/-- Bytes read later laid over bytes read before. -/
def overlay (m n : Map (BitVec 8)) : Map (BitVec 8) := n.foldl (fun m e => mput m e.1 e.2) m

/-- The areas that the entries still to be written carry, up to entries m of A and n of B. -/
def restRuns (s : State) (p t : Nat) (i : Inflight) (m n : Nat) : List (Nat × Nat) :=
  match i.why with
  | .operands a b _ _ data =>
    let r := queueRuns s { s with mem := data } p t i.desc i.q
    entryRuns r.1 a m ++ entryRuns r.2 b n
  | _ => []

/-- The operands of an accumulating instruction whose load, if any, is done: Matrix accumulates at once when it is free
for it; else the operands are checked, and what else it reads is read, before they stream into the operand queues (R33,
R35, R36, R41). -/
def takeAccum (s : State) (p t d : Nat) (q : QInstr) : Started :=
  let v := getTile s t
  let now := if matrixClear v q v.inflight then runAccum s s p t d q else .notReady
  match now with
  | .notReady =>
    match accumFault s p t d q with
    | some f => .fault f
    | none =>
      let r := queueRuns s s p t d q
      .going s (.operands 0 0 (entriesOf r.1) (entriesOf r.2) (capture s t (besideRuns s p t d q))) d
  | r => r

/-- A panel load starts (R94, R97, R312, R332): the descriptor is read and checked once, the product's fields with it; it
waits for earlier readers of the buffer of its stream; then the buffer is loading. -/
def startPanelLoad (s : State) (p t d : Nat) (q : QInstr) : Started :=
  let v := getTile s t
  let s' := putTile s t (putPanel v q.w (panelNo q.w) (panelToBe d))
  let product := if q.skip then faultIf (!prodDescOk d false false) 8 0 (wDesc q.w) else accumFault s' p t d q
  match lowestFault [panelFault q.w (wDesc q.w) d, product] with
  | some f => .fault f
  | none =>
    if v.inflight.any (fun i => i.q.x == q.x && isAccum i.q.w && readsPanel i.q.w (isSparse q.w) (panelNo q.w) &&
        (match i.why with | .post _ => false | _ => true)) then .notReady
    else .going s' .panel d

/-- The start of an accumulating instruction at Fetch: its descriptor is read once (R312), a named load comes first (R94,
R316), then its operands; a skipped DW accumulates nothing (R109). -/
def startAccum (s : State) (p t : Nat) (q : QInstr) : Started :=
  let d := ownDesc s t (wDesc q.w)
  ownStarted t q.w
    (if loadsPanel q.w then startPanelLoad s p t d q
     else if q.skip then skipDw s t q
     else takeAccum s p t d q)

end Sys2Proof.Machine
end

