-- ==== Sys2Proof/Machine/Drain.lean ====
section
/-! DEFINITION. Machine/Drain.lean: the drain unit: the epilogue descriptor, the side operand, scale, saturation and
re-drain, block scales, reductions (04 R79 to R91, 06 R118 to R120, R127, R129, 10 R220). -/

namespace Sys2Proof.Machine

/-! ## The epilogue descriptor (R88, R89, R90) -/

/-- Format of a narrow output (R86). -/
def narrowOut (o : Nat) : Bool := decide (3 ≤ o) && decide (o ≤ 8)

/-- Format of a side operand code. -/
def sideFmt (c : Nat) : Option Fmt :=
  match c with
  | 0 => some .fp32 | 1 => some .bf16 | 2 => some .fp16
  | _ => none

/-- What a drain does, resolved against its descriptor, the tile's shape and the step's numerics mode. -/
structure DrainPlan where
  d : Nat
  blocks : Bool
  switched : Bool
  bs : Nat
  srs : Nat
  deriving DecidableEq, Repr

/-- Per-block path of a DRAIN (R86, R129). -/
def drainPlan (s : State) (p d n : Nat) : DrainPlan :=
  if bits d 9 8 = 1 then
    { d := d, blocks := true, switched := false, bs := 16 * 2 ^ bits d 11 10, srs := bits d 239 224 }
  else if (getPart s p).perBlock && narrowOut (bits d 7 4) && bits d 223 192 != noOffset then
    let bs := 16 * 2 ^ settingAt s (1 + p) 0x3800 3
    { d := d, blocks := true, switched := true, bs := bs
      srs := if bits d 239 224 = 0 then ceilDiv n bs else bits d 239 224 }
  else { d := d, blocks := false, switched := false, bs := 16, srs := 0 }

/-- An element to drain: its row and column in the output, its PE, its pair. -/
structure DrainEl where
  r : Nat
  c : Nat
  pi : Nat
  pj : Nat
  s : W32
  e : W32
  deriving DecidableEq, Repr

/-- The lanes of each block-row of a sparse F or T tile, in lane order: (block-row, lanes). -/
def laneGroups (rows : List (Option Nat)) : List (Nat × List Nat) :=
  let l := (rows.zip (upFrom 0 rows.length)).filterMap (fun e => e.1.map (fun r => (r, e.2)))
  (l.map Prod.fst).dedup.map (fun r => (r, (l.filter (fun e => e.1 == r)).map Prod.snd))

/-- The elements of the shadow set: dense; a sparse tile's lanes folded per block-row at their dense columns; a DW
tile's cells at their value positions, within the M rows (R79, R220). The row and column that seed the random bits of an
element are its PE's; the spec says row and column of the tile and not which a sparse element has: the model takes the PE of
the first lane of a folded block-row, and of a DW cell its own (R119; log 75, DESIGN CHOICE). -/
def drainElems (a : AccSet) : List DrainEl :=
  let pe := fun i j => mget (0, 0) a.pairs (peKey i j)
  match a.sparse with
  | none => (upFrom 0 a.m).flatMap (fun i => (upFrom 0 a.n).map (fun j =>
      { r := i, c := j, pi := i, pj := j, s := (pe i j).1, e := (pe i j).2 }))
  | some o =>
    let b := o.block
    if o.plan = 2 then
      let lanes := 128 / b
      ((o.cells.zip (upFrom 0 o.cells.length)).flatMap (fun cell =>
        match cell.1 with
        | none => []
        | some q => (upFrom 0 b).flatMap (fun n => (upFrom 0 b).map (fun k =>
            let i := (cell.2 % lanes) * b + k
            let j := (cell.2 / lanes) * b + n
            { r := 0, c := q * b * b + n * b + k, pi := i, pj := j, s := (pe i j).1, e := (pe i j).2 })))).filter
        (fun e => decide (e.pi < a.m))
    else
      (upFrom 0 a.m).flatMap (fun i => (laneGroups o.rows).flatMap (fun g => (upFrom 0 b).map (fun n =>
        let first := g.2.headD 0
        let p := (g.2.drop 1).foldl (fun acc l => foldPairs acc [(pe i (l * b + n)).1, (pe i (l * b + n)).2])
          (pe i (first * b + n))
        { r := i, c := b * g.1 + n, pi := i, pj := first * b + n, s := p.1, e := p.2 })))

/-- Columns that the output spans. -/
def drainCols (els : List DrainEl) : Nat := maxOf (els.map (fun e => e.c + 1))

/-- Rows that the output spans. -/
def drainRows (els : List DrainEl) : Nat := maxOf (els.map (fun e => e.r + 1))

/-- Bits of an output element; 64 for a pair, none for no output. -/
def outBits (o : Nat) : Option Nat := if o = 9 then some 64 else (outFmt o).map fmtWidth

/-- An area of the own store that a DRAIN reaches keeps its alignment and the 24 MiB (R90). -/
def areaOk (off stride rows bytes align : Nat) : Bool :=
  off % align == 0 && stride % align == 0 && decide (off + (rows - 1) * stride + bytes ≤ storeBytes)

/-- A combine valid for the reduction (R88). -/
def combineOk (op c : Nat) : Bool :=
  match c with
  | 0 => true
  | 3 => op == 2 || op == 3 || op == 5 || op == 6
  | _ => op == 1 || op == 4

/-- Bytes of a reduction entry (R88). -/
def redEntry (op c : Nat) : Nat := if (op == 1 || op == 4) && c != 2 then 4 else 8

/-- The reduction runs over columns (one result per column). -/
def redCols (op : Nat) : Bool := decide (4 ≤ op)

/-- The descriptor checks of R90. R220 asks software for `red_op` 0 in the DRAIN of a sparse DW tile and R90 lists no fault
for another: the model's choice is a descriptor fault (log 71, DESIGN CHOICE). -/
def drainOk (pl : DrainPlan) (a : AccSet) (els : List DrainEl) : Bool :=
  let d := pl.d
  let rows := drainRows els; let cols := drainCols els
  let op := bits d 34 32
  bits d 3 0 == 1 && bits d 511 352 == 0 && bits d 63 37 == 0 && bits d 31 30 == 0 &&
    decide (bits d 7 4 ≤ 10) && decide (bits d 9 8 ≤ 1) && decide (bits d 13 12 ≤ 2) && decide (bits d 25 24 ≤ 2) &&
    decide (bits d 27 26 ≤ 2) && decide (bits d 29 28 ≤ 2) && decide (op ≤ 6) &&
    (bits d 9 8 == 0 || narrowOut (bits d 7 4)) && combineOk op (bits d 36 35) &&
    (match outBits (bits d 7 4) with
     | none => true
     | some w => areaOk (bits d 95 64) (bits d 111 96) rows (ceilDiv (cols * w) 8) 64) &&
    (bits d 25 24 == 0 ||
      (let w := if bits d 29 28 = 0 then 4 else 2
       match bits d 27 26 with
       | 0 => areaOk (bits d 159 128) (bits d 127 112) rows (cols * w) 64
       | 1 => areaOk (bits d 159 128) 0 1 (cols * w) 64
       | _ => areaOk (bits d 159 128) 0 1 (rows * w) 64)) &&
    (op == 0 || areaOk (bits d 191 160) 0 1 ((if redCols op then cols else rows) * redEntry op (bits d 36 35)) 64) &&
    (!(pl.blocks && bits d 223 192 != noOffset) ||
      areaOk (bits d 223 192) pl.srs rows (ceilDiv cols pl.bs) 1) &&
    (bits d 15 15 == 0 || pl.blocks || areaOk (bits d 287 256) 0 1 1 1) &&
    (bits d 319 288 == noOffset || areaOk (bits d 319 288) 0 1 64 64) &&
    (match a.sparse with
     | some o => o.plan != 2 || op == 0
     | none => true)

/-! ## The side operand (R82) -/

/-- Key of a side element. -/
def sideKey (d r c : Nat) : Nat :=
  match bits d 27 26 with
  | 0 => r * 2 ^ 32 + c
  | 1 => c
  | _ => r * 2 ^ 32

/-- Reads the side operand of the elements, widened exactly. -/
def readSide (s : State) (t d : Nat) (els : List DrainEl) : Map (BitVec 32) :=
  match sideFmt (bits d 29 28) with
  | none => []
  | some f =>
    let w := fmtWidth f / 8
    els.foldl (fun mp e =>
      let off := match bits d 27 26 with
        | 0 => e.r * bits d 127 112 + e.c * w
        | 1 => e.c * w
        | _ => e.r * w
      mset 0 mp (sideKey d e.r e.c) (f32of (fmtDecode f (readNat s (tileAddr t (bits d 159 128 + off)) w)))) []

/-! ## One pass (R79, R83, R84, R86, R120, R127) -/

/-- The value at the reduction tap (R79). -/
def tapValue (d : Nat) (side : Map (BitVec 32)) (e : DrainEl) : W32 :=
  let v := f32add e.s e.e
  let x := mget 0 side (sideKey d e.r e.c)
  match bits d 25 24 with
  | 1 => f32add v x
  | 2 => f32mul v x
  | _ => v

/-- A pass's result: output words by element, and the counts of clamped and NaN values, and whether any value
saturated. -/
structure Pass where
  words : List Nat
  clamped : Nat
  nans : Nat
  sat : Bool
  deriving DecidableEq, Repr

/-- A tensor-scaled pass at scale exponent `k` (R79, R83, R84, R120). -/
def tensorPass (f : Fmt) (k : Int) (mode : DrainEl → RoundMode) (l : List (DrainEl × W32)) : Pass :=
  let cs := l.map (fun e => convert f (mode e.1) (fpScale k (f32val e.2)))
  { words := cs.map Conv.w
    clamped := (cs.filter Conv.clamped).length
    nans := (cs.filter Conv.nanZeroed).length
    sat := l.any (fun e => fpIsFin (f32val e.2) && saturates f (fpScale k (f32val e.2))) }

/-- The largest finite magnitude at the tap, `a` (R83). Of a tile with no finite value there the spec states none: the model
takes +0 and still merges it into the amax record (log 70, DESIGN CHOICE). -/
def tapMax (vs : List W32) : Fp := maxMag ((vs.map f32val).filter fpIsFin)

/-- The scale exponent of a re-drain (R84): d is the smallest integer of at least 1 that fits. -/
def redrainExp (f : Fmt) (a : Fp) (k : Int) : Int :=
  match a with
  | .fin _ m e =>
    if m = 0 then max (k - 1) (-128)
    else max (k - max 1 (fitExp m (e + k) (maxFinite f).1 (maxFinite f).2)) (-128)
  | _ => max (k - 1) (-128)

/-- The blocks of a per-block drain: for each (row, block of columns) its E8M0 byte, and none of the elements' words
are scaled when a value of the block is not finite (R120, R127). -/
def blockScale (f : Fmt) (bs : Nat) (l : List (DrainEl × W32)) (r blk : Nat) : Option Int :=
  let vs := (l.filter (fun e => e.1.r == r && e.1.c / bs == blk)).map (fun e => f32val e.2)
  if vs.all fpIsFin then some (blockExp f (maxMag vs)) else none

/-- A per-block pass: element words and scale bytes by (row, block). -/
def blockPass (f : Fmt) (bs : Nat) (mode : DrainEl → RoundMode) (l : List (DrainEl × W32)) :
    List Nat × List (Nat × Nat × Nat) :=
  let keys := (l.map (fun e => (e.1.r, e.1.c / bs))).dedup
  let sc := keys.map (fun k => (k.1, k.2, blockScale f bs l k.1 k.2))
  let find := fun r b => ((sc.find? (fun x => x.1 == r && x.2.1 == b)).map (fun x => x.2.2)).getD none
  (l.map (fun e =>
      match find e.1.r (e.1.c / bs) with
      | some x => convertBlock f (mode e.1) x (f32val e.2)
      | none => 0),
   sc.map (fun x => (x.1, x.2.1, match x.2.2 with | some e => toField 8 (e + 127) | none => 0xFF)))

/-! ## Writing -/

/-- Writes an element of `w` bits at bit position `pos` of a row at `a`; other bits are unchanged. -/
def writeElem (s : State) (a pos w v : Nat) : State :=
  let b := a + pos / 8
  let sh := pos % 8
  let n := ceilDiv (sh + w) 8
  let old := readNat s b n
  let keep := old - ((old >>> sh) % 2 ^ w) * 2 ^ sh
  writeNat s b n (keep + (v % 2 ^ w) * 2 ^ sh)

/-- Writes the main output (R79, R89). -/
def writeOut (s : State) (t d w : Nat) (l : List (DrainEl × Nat)) : State :=
  l.foldl (fun s e => writeElem s (tileAddr t (bits d 95 64 + e.1.r * bits d 111 96)) (e.1.c * w) w e.2) s

/-! ## Reductions (R87, R88) -/

/-- The result of a reduction over one row or column: sum, or winning value and index. -/
def redValue (op base : Nat) (l : List (W32 × Nat)) : W32 × Nat :=
  match op with
  | 1 | 4 => (alignedTotal (l.map Prod.fst), 0)
  | 2 | 5 => let r := pickWinner true l; (r.1, (base + r.2) % 2 ^ 32)
  | _ => let r := pickWinner false l; (r.1, (base + r.2) % 2 ^ 32)

/-- One reduction entry written plain or combined (R88). -/
def writeRed (s : State) (a op comb : Nat) (r : W32 × Nat) : State :=
  let isSum := op = 1 ∨ op = 4
  let bs := toBytes 4 r.1.toNat
  match comb with
  | 0 => writeBytes s a (if isSum then bs else bs ++ toBytes 4 r.2)
  | 1 => bankCombine s a 1 bs
  | 2 => bankCombine s a 3 bs
  | _ => bankCombine s a (if op = 2 ∨ op = 5 then 4 else 5) (bs ++ toBytes 4 r.2)

/-- The reduction of a DRAIN (R87, R88). -/
def writeReds (s : State) (t d : Nat) (l : List (DrainEl × W32)) : State :=
  let op := bits d 34 32
  if op = 0 then s
  else
    let key := fun (e : DrainEl) => if redCols op then e.c else e.r
    let idx := fun (e : DrainEl) => if redCols op then e.r else e.c
    ((l.map (fun e => key e.1)).dedup).foldl (fun s k =>
      let r := redValue op (bits d 351 320) ((l.filter (fun e => key e.1 == k)).map (fun e => (e.2, idx e.1)))
      writeRed s (tileAddr t (bits d 191 160 + k * redEntry op (bits d 36 35))) op (bits d 36 35) r) s

/-! ## The drain (R79 to R86) -/

/-- Main output, block scales and tag of a DRAIN: the tensor path with its re-drain, or the per-block path. -/
def drainMain (s : State) (t : Nat) (pl : DrainPlan) (mode : DrainEl → RoundMode) (l : List (DrainEl × W32)) : State :=
  let d := pl.d
  let tagOut := fun (s : State) (k : Int) =>
    if bits d 15 15 = 1 then writeBytes s (tileAddr t (bits d 287 256)) [BitVec.ofNat 8 (toField 8 k)] else s
  let k := asSigned 8 (bits d 23 16)
  if bits d 7 4 = 9 then
    tagOut (writeOut s t d 64 (l.map (fun e => (e.1, e.1.s.toNat + e.1.e.toNat * 2 ^ 32)))) k
  else
    match outFmt (bits d 7 4) with
    | none => tagOut s k
    | some f =>
      if pl.blocks then
        let r := blockPass f pl.bs mode l
        let s := writeOut s t d (fmtWidth f) ((l.map Prod.fst).zip r.1)
        let s := if pl.switched then tileCtr s t 0x2B 1 else s
        if bits d 223 192 = noOffset then s
        else r.2.foldl (fun s x =>
          writeBytes s (tileAddr t (bits d 223 192 + x.1 * pl.srs + x.2.1)) [BitVec.ofNat 8 x.2.2]) s
      else
        let p1 := tensorPass f k mode l
        let again := p1.sat && bits d 14 14 == 1
        let k2 := if again then redrainExp f (tapMax (l.map Prod.snd)) k else k
        let p2 := if again then tensorPass f k2 mode l else p1
        let s := if again then tileCtr s t 0x23 1 else s
        let s := tileCtr (tileCtr s t 0x24 p2.clamped) t 0x29 p2.nans
        tagOut (writeOut s t d (fmtWidth f) ((l.map Prod.fst).zip p2.words)) k2

/-- The whole DRAIN from the shadow set: outputs, reduction, amax record, counters; the shadow set is then EMPTY
(R79 to R86, R91). -/
def drainTile (s : State) (p t : Nat) (pl : DrainPlan) (els : List DrainEl) (side : Map (BitVec 32)) : State :=
  let d := pl.d
  let v := getTile s t
  let mode := fun (e : DrainEl) => roundOf (bits d 13 12) (getPart s p).srSeed t v.srCount e.pi e.pj
  let l := els.map (fun e => (e, tapValue d side e))
  let s := drainMain s t pl mode l
  let s := writeReds s t d l
  let s := if bits d 319 288 = noOffset then s
    else bankCombine s (tileAddr t (bits d 319 288)) 4
      (toBytes 4 (f32of (tapMax (l.map Prod.snd))).toNat ++ toBytes 4 (bits d 255 240))
  let s := tileCtr s t 0x22 1
  let v := getTile s t
  putTile s t { v with shadow := AccSet.reset, srCount := if bits d 13 12 = 2 then v.srCount + 1 else v.srCount }

/-- The output tile that a stream's next DRAIN drains: the ENDED shadow set, or the active set whose end waits for the
hand-over (R77, R82). -/
def drainSet (v : Tile) (x : Stream) : Option AccSet :=
  if v.shadow.state = .ended && v.shadow.owner = x then some v.shadow
  else if v.inflight.any (fun i => isHandOver i && i.q.x == x) then some v.active
  else none

/-- Bytes from the first to the last line of an area of `rows` rows. -/
def areaRun (off stride rows bytes : Nat) : Nat × Nat := (off, (rows - 1) * stride + bytes)

/-- The area of a DRAIN's main output (R89). -/
def drainDest (d : Nat) (els : List DrainEl) : List (Nat × Nat) :=
  match outBits (bits d 7 4) with
  | none => []
  | some w => [areaRun (bits d 95 64) (bits d 111 96) (drainRows els) (ceilDiv (drainCols els * w) 8)]

/-- The area of a DRAIN's side operand (R82). -/
def sideRun (d : Nat) (els : List DrainEl) : Nat × Nat :=
  let w := if bits d 29 28 = 0 then 4 else 2
  match bits d 27 26 with
  | 0 => areaRun (bits d 159 128) (bits d 127 112) (drainRows els) (drainCols els * w)
  | 1 => areaRun (bits d 159 128) 0 1 (drainCols els * w)
  | _ => areaRun (bits d 159 128) 0 1 (drainRows els * w)

/-- A DRAIN holds a half of the side buffer: from its load to its completion (R82). -/
def holdsSide (i : Inflight) : Bool :=
  wClass i.q.w == 0x0B && bits i.desc 25 24 != 0 &&
    (match i.why with | .side | .matrix | .store _ _ => true | _ => false)

/-- Depth of the drain queue, in entries of 512 bytes (R36). -/
abbrev drainDepth : Nat := 128

/-- Entries that the drain of a set writes into the drain queue: one for each row that it reads, and those of a reduction
(R80). While the queue is full, the drain pauses. -/
def drainEntries (d : Nat) (a : AccSet) : Nat :=
  let op := bits d 34 32
  (if bits d 7 4 = 9 then 2 * a.m else a.m) +
    (if op = 0 then 0
     else if redCols op then 2
     else match outBits (bits d 7 4) with
      | some w => if 32 ≤ w then 2 else 0
      | none => 0)

/-- The drain proper, once any side operand is loaded. It waits for the hand-over of its stream's tile and while Matrix
holds another stream's tile (R35), and faults without an ENDED tile (R77). When Store is free for it the whole of it is
done; else the shadow set is DRAINING and the results wait for Store (R33, R36, R75). -/
def runDrain (s : State) (p t : Nat) (q : QInstr) (d : Nat) (side : Map (BitVec 32)) : Started :=
  let v := getTile s t
  if v.active.state = .accumulating && v.active.owner ≠ q.x then .notReady
  else if v.shadow.state = .ended && v.shadow.owner = q.x then
    if partClear v q .store then
      .done (drainTile s p t (drainPlan s p d v.shadow.n) (drainElems v.shadow) side)
    else .going (putTile s t { v with shadow := { v.shadow with state := .draining } })
      (.store (min drainDepth (drainEntries d v.shadow)) side) d
  else if v.inflight.any (fun i => isHandOver i && i.q.x == q.x) then .notReady
  else .fault ⟨5, 0, 0⟩

/-- The Store part of a DRAIN whose set is DRAINING: the results are written (R33, R81). -/
def storeDrain (s : State) (p t : Nat) (d : Nat) (side : Map (BitVec 32)) : Started :=
  let v := getTile s t
  .done (drainTile s p t (drainPlan s p d v.shadow.n) (drainElems v.shadow) side)

/-- The start of a DRAIN: the descriptor is read and checked once; a side operand is loaded first, when a half of the
side buffer is free (R77, R82, R90). One that the sequencer completes as skipped does nothing, and the spec does not say
whether it counts in drain.tiles: in the model it does not (R91, R109; log 71, DESIGN CHOICE). -/
def startDrain (s : State) (p t : Nat) (q : QInstr) : Started :=
  let v := getTile s t
  ownStarted t q.w
    (if q.skip then .done s
     else match drainSet v q.x with
      | none => .fault ⟨5, 0, 0⟩
      | some a =>
        let d := ownDesc s t (wDesc q.w)
        let els := drainElems a
        if !drainOk (drainPlan s p d a.n) a els then .fault ⟨8, 0, 0⟩
        else if bits d 25 24 = 0 then runDrain s p t q d []
        else if 2 ≤ (v.inflight.filter holdsSide).length then .notReady
        else .going s .side d)

/-- An earlier DRAIN of the stream has still to write lines of a side operand (R82). -/
def sideBlocked (v : Tile) (i : Inflight) (els : List DrainEl) : Bool :=
  (v.inflight.takeWhile (· != i)).any (fun j => j.q.x == i.q.x && (match j.why with | .store _ _ => true | _ => false) &&
    (drainDest j.desc (drainElems v.shadow)).any (runsMeet (sideRun i.desc els)))

/-- SIDE_OPERAND_LOADED (R82): the DRAIN's side operand is wholly in the side buffer, so its drain may start. -/
def sideLoaded (s : State) (t : Nat) (x : Stream) (seq : Nat) : State :=
  let v := getTile s t
  putTile s t { v with inflight := v.inflight.map (fun i =>
    if i.q.x = x && i.q.seq = seq && i.why = .side then
      match drainSet v x with
      | some a =>
        if sideBlocked v i (drainElems a) then i
        else { i with why := .matrix, side := readSide s t i.desc (drainElems a) }
      | none => { i with why := .matrix }
    else i) }

end Sys2Proof.Machine
end

