-- ==== Sys2Proof/Machine/Move.lean ====
section
/-! DEFINITION. Machine/Move.lean: the memory instructions LOAD, LOADT and STORE (14 R318 to R321), and the interlock
of a tile's Fetch engine (02 R40). -/

namespace Sys2Proof.Machine

/-! ## Copies (R318 to R320) -/

/-- A copy: far address, stride and bytes per far row; near offset, stride and rows; bytes per near row of a LOAD or
STORE; peer; element bytes of a transpose (0: none); bank operation. -/
structure Copy where
  far : Nat
  farStride : Nat
  farLen : Nat
  near : Nat
  nearStride : Nat
  nearLen : Nat
  rows : Nat
  nearRows : Nat
  peer : Nat
  elem : Nat
  op : Nat
  deriving DecidableEq, Repr

/-- Bytes of a LOADT element format (R319); 0 for one that LOADT does not take. -/
def loadtBytes (f : Nat) : Nat :=
  match f with
  | 0 => 4 | 1 => 2 | 2 => 2 | 3 => 1 | 4 => 1 | 8 => 1
  | _ => 0

/-- The instruction names a copy descriptor. -/
def hasCopyDesc (w : BitVec 128) : Bool := wForm w == 1

/-- The copy of a form-0 instruction. -/
def plainCopy (w : BitVec 128) : Copy :=
  if wClass w = 0x12 then
    let n := fld w 27 9
    { far := fld w 84 28, farStride := 0, farLen := 64 * n, near := wDesc w, nearStride := 0
      nearLen := bankSrcBytes (fld w 8 6) * n, rows := 1, nearRows := 1, peer := 0xFFFF, elem := 0, op := fld w 8 6 }
  else
    let n := fld w 27 9
    { far := fld w 103 47, farStride := 0, farLen := 64 * n, near := fld w 46 28 * 64, nearStride := 0
      nearLen := 64 * n, rows := 1, nearRows := 1, peer := 0xFFFF, elem := 0, op := 0 }

/-- The copy that a descriptor describes. -/
def descCopy (cls d : Nat) : Copy :=
  let rows := bits d 351 320
  let len := bits d 319 288
  let op := bits d 11 9
  let b := if cls = 0x11 then loadtBytes (bits d 15 12) else 0
  { far := bits d 511 448, farStride := bits d 447 416, farLen := if cls = 0x11 then len * b else len
    near := bits d 415 384, nearStride := bits d 383 352
    nearLen := if cls = 0x11 then rows * b else if cls = 0x12 && op == 3 then len / 2 else len
    rows := rows, nearRows := if cls = 0x11 then len else rows, peer := bits d 287 272, elem := b, op := op }

/-- The copy of an instruction, its descriptor read at its start. -/
def copyOf (w : BitVec 128) (d : Nat) : Copy := if hasCopyDesc w then descCopy (wClass w) d else plainCopy w

/-- The checks of a copy descriptor that give a format or descriptor fault (R319, R332). -/
def copyDescFault (cls d : Nat) : Option IFault :=
  lowestFault [
    faultIf (cls == 0x11 && loadtBytes (bits d 15 12) == 0) 4 0 0,
    faultIf (bits d 3 0 != 1 || bits d 8 4 != 0 || bits d 271 16 != 0 || bits d 351 320 == 0 ||
      decide (65536 < bits d 351 320) || (cls != 0x12 && (bits d 11 9 != 0 || bits d 287 272 != 0xFFFF)) ||
      (cls == 0x12 && decide (5 < bits d 11 9)) || (cls != 0x11 && bits d 15 12 != 0) ||
      (cls == 0x11 && (bits d 319 288 % 16 != 0 ||
        decide (bits d 383 352 < bits d 351 320 * loadtBytes (bits d 15 12))))) 8 0 0]

/-- End of the near area of a copy in the tile store. -/
def nearEnd (c : Copy) : Nat := if c.nearRows = 0 then c.near else c.near + (c.nearRows - 1) * c.nearStride + c.nearLen

/-- The address faults of the near side and of alignment, with a device address (R318 to R320, R332). -/
def copyNearFault (t : Nat) (cls : Nat) (c : Copy) : Option IFault :=
  if c.far % 64 ≠ 0 then some ⟨6, 4, c.far⟩
  else if c.farStride % 64 ≠ 0 then some ⟨6, 4, c.far⟩
  else if c.near % 64 ≠ 0 || c.nearStride % 64 ≠ 0 then some ⟨6, 4, tileAddr t c.near⟩
  else if cls ≠ 0x11 && c.farLen % 64 ≠ 0 then some ⟨6, 4, c.far⟩
  else if storeBytes < nearEnd c then some ⟨6, 0, tileAddr t c.near⟩
  else none

/-- The first far line that the partition may not reach. -/
def copyFarFault (s : State) (p : Nat) (c : Copy) (write : Bool) : Option IFault :=
  ((upFrom 0 c.rows).findSome? (fun r => accessLines s p (c.far + r * c.farStride) (ceilDiv c.farLen 64) write)).map
    (fun x => ⟨6, x.2, x.1⟩)

/-- The fault of a copy: descriptor and format checks, then the areas, and of a remote one its peer; the lowest code
(R332, R364). -/
def copyFault (s : State) (p t : Nat) (w : BitVec 128) (d : Nat) (write local_ : Bool) : Option IFault :=
  let c := copyOf w d
  lowestFault [
    if hasCopyDesc w then (copyDescFault (wClass w) d).map (fun f => { f with addr := tileAddr t (wDesc w) }) else none,
    (copyNearFault t (wClass w) c).orElse fun _ => if local_ then copyFarFault s p c write else none,
    faultIf (!local_ && !remoteOk s p c.peer) 6 2 c.far]

/-! ## The interlock of Fetch (R40) -/

/-- The runs of the tile store that a LOAD writes. -/
def loadRuns (c : Copy) : List (Nat × Nat) := (upFrom 0 c.nearRows).map (fun r => (c.near + r * c.nearStride, c.nearLen))

/-- The runs of its own store that a LOAD reads. -/
def loadReads (t : Nat) (c : Copy) : List (Nat × Nat) :=
  if c.far < tileAddr t 0 || tileAddr (t + 1) 0 ≤ c.far then []
  else (upFrom 0 c.rows).map (fun r => (c.far - tileAddr t 0 + r * c.farStride, c.farLen))

/-- The areas of its own store that an instruction at Fetch accesses, all it reads and writes before it completes there. -/
def fetchRuns (s : State) (p t : Nat) (q : QInstr) : List (Nat × Nat) :=
  if isAccum q.w then (if q.skip && !loadsPanel q.w then [] else accumRuns s p t (ownDesc s t (wDesc q.w)) q)
  else if wClass q.w = 0x10 || wClass q.w = 0x11 then
    let c := copyOf q.w (ownDesc s t (wDesc q.w))
    (if hasCopyDesc q.w then [(wDesc q.w, 64)] else []) ++ loadRuns c ++ loadReads t c
  else if wClass q.w = 0x13 then [(wDesc q.w, 128)]
  else []

/-- The areas of its own store that a LOAD writes; none of another instruction (R40). -/
def fetchWrites (s : State) (t : Nat) (w : BitVec 128) : List (Nat × Nat) :=
  if wClass w = 0x10 || wClass w = 0x11 then loadRuns (copyOf w (ownDesc s t (wDesc w))) else []

/-- Some runs of two lists overlap. -/
def anyMeet (l m : List (Nat × Nat)) : Bool := l.any (fun a => m.any (runsMeet a))

/-- An incomplete LOAD of the stream covers an area that the instruction accesses, or reads one of its own store that the
instruction, a LOAD itself, writes (R40, R318). -/
def interlocked (s : State) (p t : Nat) (q : QInstr) : Bool :=
  (getTile s t).inflight.any (fun i => i.q.x == q.x && i.why == .load &&
    (anyMeet (fetchRuns s p t q) (loadRuns (copyOf i.q.w i.desc)) ||
     anyMeet (fetchWrites s t q.w) (loadReads t (copyOf i.q.w i.desc))))

/-! ## LOAD and LOADT (R318, R319) -/

/-- The reader of a LOAD's window reads. -/
def loadOwner (t : Nat) (x : Stream) (seq : Nat) : Nat := 2 ^ 24 + streamKey t x * 2 ^ 32 + seq

/-- The start of a LOAD or LOADT: its checks, then its reads reach memory (R417) and its window reads go out; it lands at LOAD_COMPLETE (log 7, DEDUCED). -/
def startLoad (s : State) (p t : Nat) (q : QInstr) : Started :=
  let d := if hasCopyDesc q.w then ownDesc s t (wDesc q.w) else 0
  match copyFault s p t q.w d false true with
  | some f => .fault f
  | none =>
    let c := copyOf q.w d
    .going ((upFrom 0 c.rows).foldl (fun s r =>
      readFar (wakeRun s (c.far + r * c.farStride) c.farLen) p (c.far + r * c.farStride) c.farLen (loadOwner t q.x q.seq) 0)
      s) .load d

/-- The far row `r` of a copy as bytes. -/
def farRow (s : State) (owner : Nat) (c : Copy) (r : Nat) : List Byte :=
  (upFrom (c.far + r * c.farStride) c.farLen).map (farByte s owner)

/-- The near rows of a copy from its far rows: the same, or transposed (R319). -/
def nearRowsOf (c : Copy) (far : List (List Byte)) : List (List Byte) :=
  if c.elem = 0 then far
  else (upFrom 0 c.nearRows).map (fun col => far.flatMap (fun row => (row.drop (col * c.elem)).take c.elem))

/-- Writes near rows into the tile store. -/
def writeNear (s : State) (t : Nat) (c : Copy) (rows : List (List Byte)) : State :=
  (rows.zip (upFrom 0 rows.length)).foldl (fun s x => writeBytes s (tileAddr t (c.near + x.2 * c.nearStride)) x.1) s

/-- The last line of a LOAD lands (R40): the near rows are written and the instruction completes, unless a window read
is unanswered or a source line waits or cannot be read (R249, R251). -/
def loadComplete (s : State) (t : Nat) (x : Stream) (seq : Nat) : State :=
  match (getTile s t).inflight.find? (fun i => i.q.x == x && i.q.seq == seq && i.why == .load) with
  | none => s
  | some i =>
    let c := copyOf i.q.w i.desc
    let o := loadOwner t x seq
    if !farReady s o 0 then s
    else
      onceRead s ((upFrom 0 c.rows).map (fun r => (c.far + r * c.farStride, c.farLen))) (fun s =>
        let s := dropFar (writeNear s t c (nearRowsOf c ((upFrom 0 c.rows).map (farRow s o c)))) o
        let v := getTile s t
        finishInstr s t { v with inflight := v.inflight.filter (· != i) } i.q)

/-- LOAD_COMPLETE (R40): the last line of an in-flight LOAD or LOADT is written. -/
def execLoadComplete (t : Fin 64) (x : Stream) (seq : BitVec 32) (s : State) : Host.Outcome State Fault Refusal :=
  .next (loadComplete s t.val x seq.toNat)

/-! ## STORE (R320, R321) -/

/-- Source bytes of near row `r`. -/
def nearRow (s : State) (t : Nat) (c : Copy) (r : Nat) : List Byte :=
  readBytes s (tileAddr t (c.near + r * c.nearStride)) c.nearLen

/-- The far lines of a row with their 64 payload bytes for an LFT write: with `bank_op` 3, 8 operands and 32 zero
bytes each (R320). -/
def remoteLines : Nat → Nat → Nat → List Byte → List (Nat × List Byte)
  | 0, _, _, _ => []
  | n + 1, a, op, bs =>
    (a, bs.take (bankSrcBytes op) ++ toBytes (64 - bankSrcBytes op) 0) ::
      remoteLines n (a + 64) op (bs.drop (bankSrcBytes op))

/-- A STORE to an enqueue port: one whole line, no bank operation (R289, R320). -/
def portStore (w : BitVec 128) (c : Copy) : Option Nat :=
  if wForm w = 0 && c.farLen == 64 && c.op == 0 then enqueuePort c.far else none

/-- A local STORE writes its lines and completes with them (R321). -/
def localStore (s : State) (t : Nat) (c : Copy) : State :=
  (upFrom 0 c.rows).foldl (fun s r =>
    bankWriteLines (c.farLen / 64) s (c.far + r * c.farStride) c.op (nearRow s t c r)) s

/-- The start of a STORE. -/
def startStore (s : State) (p t : Nat) (q : QInstr) : Started :=
  let d := if hasCopyDesc q.w then ownDesc s t (wDesc q.w) else 0
  let c := copyOf q.w d
  match portStore q.w c with
  | some die =>
    let r := enqueue s die p (.tile t q.x q.seq) true (BitVec.ofNat 512 (readNat s (tileAddr t c.near) 64))
    if r.2 then .going r.1 .enqueue 0 else .done r.1
  | none =>
    match copyFault s p t q.w d true (c.peer == 0xFFFF) with
    | some f => .fault f
    | none =>
      if c.peer = 0xFFFF then .done (localStore s t c)
      else
        remoteStore s p t q c.peer c.op c.far
          ((upFrom 0 c.rows).flatMap (fun r =>
            remoteLines (c.farLen / 64) (c.far + r * c.farStride) c.op (nearRow s t c r)))

end Sys2Proof.Machine
end

