-- ==== Sys2Proof/Machine/Approx.lean ====
section
/-! DEFINITION. Machine/Approx.lean: the exponential, logarithm, reciprocal and reciprocal square root of R326: every
result within the stated bound, the choice among them free (log 13, DESIGN CHOICE). -/

namespace Sys2Proof.Machine

/-- Fraction bits of the fixed-point evaluation. -/
abbrev fixBits : Nat := 110

/-- ln 2 in fixed point, rounded down. -/
abbrev fixLn2 : Int := 899756482030919243385101862961404

/-- A fixed-point product. -/
def fixMul (a b : Int) : Int := a * b / (2 ^ fixBits : Nat)

/-- Terms `i` up of the exponential series from term value `t`. -/
def expSeries : Nat → Int → Int → Int → Int
  | 0, _, _, acc => acc
  | n + 1, r, t, acc =>
    let i : Int := 40 - (n : Int)
    let t' := fixMul t r / i
    expSeries n r t' (acc + t')

/-- Terms of the series of the inverse hyperbolic tangent: power `p` of z, odd divisor `d`. -/
def athSeries : Nat → Int → Int → Int → Int → Int
  | 0, _, _, _, acc => acc
  | n + 1, z2, p, d, acc => athSeries n z2 (fixMul p z2) (d + 2) (acc + p / d)

/-- A finite value in fixed point. -/
def toFix (neg : Bool) (m : Nat) (e : Int) : Int :=
  let v : Int := shiftTo m (e + fixBits) 0
  if neg then -v else v

/-- e^x for a finite x within the range of FP32's results, as a magnitude; beyond that range, far above or below. -/
def expMag (neg : Bool) (m : Nat) (e : Int) : Nat × Int :=
  if m ≠ 0 && decide (7 ≤ magLog m e) then (if neg then (1, -400) else (1, 400))
  else
    let x := toFix neg m e
    let k := (2 * x + fixLn2) / (2 * fixLn2)
    let r := x - k * fixLn2
    let one : Int := (2 ^ fixBits : Nat)
    ((expSeries 40 r one one).toNat, k - fixBits)

/-- ln of a nonzero magnitude, in fixed point. -/
def lnFix (m : Nat) (e : Int) : Int :=
  let l := magLog m e
  let one : Int := (2 ^ fixBits : Nat)
  let y : Int := shiftTo m (e - l + fixBits) 0
  let z := (y - one) * one / (y + one)
  l * fixLn2 + 2 * athSeries 40 (fixMul z z) z 1 0

/-- The result within 2 ulp of an approximation that `pick` names, else the nearest (R326). -/
def withinTwo (pick : Nat) (neg : Bool) (m : Nat) (e : Int) : W32 :=
  let u := unitOf 23 (-126) m e
  let n : Int := roundUnits .nearestEven m e u
  let c := n + ((pick % 5 : Nat) : Int) - 2
  let w := min u e
  let dist := ((shiftTo c.natAbs u w : Nat) : Int) * (if c < 0 then -1 else 1) - (shiftTo m e w : Nat)
  let slack := 2 * shiftTo 1 u w + shiftTo m e w / 2 ^ 60
  let r := if dist.natAbs ≤ slack then c else n
  f32of (.fin (neg != decide (r < 0)) r.natAbs u)

/-- A truncated magnitude with a flag for what was dropped, rounded faithfully: one of its two neighbours. -/
def faithful (up : Bool) (neg : Bool) (m : Nat) (e : Int) (exact : Bool) : W32 :=
  let u := unitOf 23 (-126) m e
  let q := roundUnits .towardZero m e u
  let whole := exact && (shiftTo q u (min u e) == shiftTo m e (min u e))
  let n := if whole || !up then q else q + 1
  if magLe q u (maxFinite .fp32).1 (maxFinite .fp32).2 then f32of (.fin neg n u)
  else if up then f32of (.inf neg) else BitVec.ofNat 32 (maxBits .fp32 neg)

/-- VEXP of one FP32 value (R326). -/
def vexpOf (w : W32) : W32 :=
  match f32val w with
  | .nan => 0x7FC00000
  | .inf n => if n then 0 else 0x7F800000
  | .fin n m e => let r := expMag n m e; withinTwo (Config.expPick w) false r.1 r.2

/-- VLOG of one FP32 value (R326). -/
def vlogOf (w : W32) : W32 :=
  match f32val w with
  | .nan => 0x7FC00000
  | .inf n => if n then 0x7FC00000 else Config.fnOpen 1 w
  | .fin n m e =>
    if m = 0 then 0xFF800000
    else if n then 0x7FC00000
    else let r := lnFix m e; withinTwo (Config.logPick w) (decide (r < 0)) r.natAbs (-fixBits)

/-- VRCP of one FP32 value (R326). -/
def vrcpOf (w : W32) : W32 :=
  match f32val w with
  | .nan => 0x7FC00000
  | .inf _ => Config.fnOpen 2 w
  | .fin n m e =>
    if m = 0 then BitVec.ofNat 32 (infBits .fp32 n)
    else
      let q := 2 ^ 80 / m
      faithful (Config.rcpPick w) n q (-80 - e) (q * m == 2 ^ 80)

/-- VRSQ of one FP32 value (R326). -/
def vrsqOf (w : W32) : W32 :=
  match f32val w with
  | .nan => 0x7FC00000
  | .inf n => if n then 0x7FC00000 else Config.fnOpen 3 w
  | .fin n m e =>
    if m = 0 then (if n then Config.fnOpen 3 w else 0x7F800000)
    else if n then 0x7FC00000
    else
      let m2 := if e % 2 = 0 then m else 2 * m
      let e2 := if e % 2 = 0 then e else e - 1
      let q := 2 ^ 120 / m2
      let r := isqrt q
      faithful (Config.rsqPick w) false r (-60 - e2 / 2) (r * r == q && q * m2 == 2 ^ 120)

end Sys2Proof.Machine
end

