-- ==== Sys2Proof/Machine/Reduce.lean ====
section
/-! DEFINITION. Machine/Reduce.lean: REDUCE in its slot-sum, select and audit forms, NORMRC and SMAXRC (05 R103 to
R108, 10 R222 to R225, 14 R327). -/

namespace Sys2Proof.Machine

/-! ## Reading the tile store -/

/-- FP32 words at an offset of a tile's own store. -/
def ownWords (s : State) (t off n : Nat) : List W32 := wordsOf (readBytes s (tileAddr t off) (4 * n))

/-- Elements of a 16- or 32-bit format at an offset of a tile's own store, widened exactly to FP32. -/
def ownElems (s : State) (t off n : Nat) (f : Fmt) : List W32 :=
  if f == .fp32 then ownWords s t off n
  else (halvesOf (readBytes s (tileAddr t off) (2 * n))).map (fun h => f32of (fmtDecode f h.toNat))

/-- An area of the own store: misaligned, outside the 24 MiB, or neither. -/
def areaFault (off bytes : Nat) : Option IFault :=
  if off % 64 ≠ 0 then some ⟨6, 4, off⟩ else if storeBytes < off + bytes then some ⟨6, 0, off⟩ else none

/-! ## Slot sums (R107, R108, R327) -/

/-- Offset of slot i. -/
def slotOff (d i : Nat) : Nat := bits d (192 + 32 * i + 31) (192 + 32 * i)

/-- Bytes of a slot. -/
def slotBytes (d : Nat) : Nat := bits d 191 160 * (if bits d 15 14 = 1 then 8 else 4)

/-- The slot-sum descriptor keeps its own rules. -/
def slotDescOk (d : Nat) : Bool :=
  bits d 3 0 == 1 && bits d 63 24 == 0 && bits d 7 4 == 0 && decide (bits d 15 14 ≤ 1) &&
    (bits d 13 12 == 1 || bits d 13 12 == 2) && decide (1 ≤ bits d 11 8) && decide (bits d 11 8 ≤ 8) &&
    bits d 191 160 % 16 == 0 && decide (16 ≤ bits d 191 160) && decide (bits d 191 160 ≤ 4194304)

/-- Gradient format of a slot sum. -/
def slotOut (d : Nat) : Fmt := if bits d 13 12 = 2 then .fp16 else .bf16

/-- The contributions of slot i to element e, in fold order: its value, or its pair's sum and then its compensation, two
contributions; how a pair enters the fold the spec does not say (R108; log 73, DESIGN CHOICE). -/
def slotTerms (s : State) (t d i e : Nat) : List W32 :=
  if bits d 15 14 = 1 then ownWords s t (slotOff d i + 8 * e) 2 else ownWords s t (slotOff d i + 4 * e) 1

/-- Element e of the sum, converted to the gradient format (R78, R108, R120, R121). -/
def slotElem (s : State) (t d e : Nat) : Conv :=
  let p := foldPairs (0, 0) ((upFrom 0 (bits d 11 8)).flatMap (fun i => slotTerms s t d i e))
  convert (slotOut d) .nearestEven (fpScale (asSigned 8 (bits d 23 16)) (fpAdd (f32val p.1) (f32val p.2)))

/-- Clamped values of a tile's conversions are counted (R84, R120, R132). -/
def countClamped (s : State) (t : Nat) (l : List Conv) : State := tileCtr s t 0x24 (l.filter Conv.clamped).length

/-- The slot sum is formed and written. -/
def runSlotSum (s : State) (t d : Nat) : State :=
  let l := (upFrom 0 (bits d 191 160)).map (slotElem s t d)
  countClamped (writeBytes s (bits d 511 448) (l.flatMap (fun c => toBytes 2 c.w))) t l

/-- The first fault of the destination lines. -/
def outFault (s : State) (p d : Nat) : Option IFault :=
  if bits d 511 448 % 64 ≠ 0 then some ⟨6, 4, bits d 511 448⟩
  else (accessLines s p (bits d 511 448) (ceilDiv (2 * bits d 191 160) 64) true).map (fun x => ⟨6, x.2, x.1⟩)

/-- A fault whose own-store address becomes a device address. -/
def atTile (t : Nat) (f : Option IFault) : Option IFault :=
  f.map (fun f => { f with addr := tileAddr t f.addr })

/-- A slot sum waits on its tie counter. -/
def slotWaits (d : Nat) : Bool := bits d 159 128 != 0xFFFFFFFF

/-- The fault of a slot-sum REDUCE (R108, R327, R330, R332). -/
def slotSumFault (s : State) (p t : Nat) (q : QInstr) (d : Nat) : Option IFault :=
  let n := bits d 159 128
  lowestFault [
    faultIf (slotWaits d && !q.marked) 5 0 0,
    faultIf (slotWaits d && !(ownsCounter s p n || mayWatch s p n)) 6 2 (counterAddr n),
    lowestFault ((upFrom 0 (min 8 (bits d 11 8))).map (fun i => atTile t (areaFault (slotOff d i) (slotBytes d)))),
    outFault s p d, faultIf (!slotDescOk d) 8 0 (tileAddr t (wDesc q.w))]

/-- The target of a slot sum's wait, relative to the stream's first step (R327, R330). -/
def slotTarget (s : State) (t : Nat) (q : QInstr) (d : Nat) : Nat :=
  (bits d 127 80 + bits d 79 64 * (q.step - (getCtl (getTile s t) q.x).firstStep)) % 2 ^ 64

/-- The start of a slot-sum REDUCE: checks, then the wait on its tie counter, if any (R108, R327, R330). -/
def startSlotSum (s : State) (p t : Nat) (q : QInstr) : Started :=
  let d := ownDesc s t (wDesc q.w)
  match slotSumFault s p t q d with
  | some f => .fault f
  | none =>
    if slotWaits d then
      .going (requestWatch s (bits d 159 128) (slotTarget s t q d) (.tie t) p (tagOf s t) 0) .tie d
    else .done (runSlotSum s t d)

/-! ## Selection (R222 to R224) -/

/-- The selection descriptor keeps its own rules. -/
def selDescOk (d : Nat) : Bool :=
  bits d 3 0 == 1 && bits d 127 6 == 0 && decide (64 ≤ bits d 191 160) && decide (bits d 191 160 ≤ 65536) &&
    decide (1 ≤ bits d 223 192) && decide (bits d 223 192 ≤ bits d 191 160 / 4) && decide (1 ≤ bits d 287 256) &&
    decide (bits d 287 256 ≤ 1048576)

/-- Score of neuron j. -/
def selScore (s : State) (t d j : Nat) : Fp :=
  fmtDecode .fp32 (readNat s (tileAddr t (bits d 351 320 + 8 * j)) 4)

/-- The active and the cut neurons, each ascending, and the number above the threshold (R223). -/
def selSets (s : State) (t d : Nat) : List Nat × List Nat × Nat :=
  let th := fmtDecode .fp32 (bits d 255 224)
  let cap := bits d 223 192
  let a := ((upFrom 0 (bits d 191 160)).map (fun j => (j, selScore s t d j))).filter (fun e => fpLt th e.2)
  if a.length ≤ cap then (a.map Prod.fst, [], a.length)
  else
    let best := (sortBy (fun (x y : Nat × Fp) => fpLt y.2 x.2) a).take cap |>.map Prod.fst
    (sortBy (fun x y => decide (x < y)) best, (a.map Prod.fst).filter (fun j => !best.contains j), a.length)

/-- Row i of the batch is audited (R224). -/
def isAudited (s : State) (p d i : Nat) : Bool :=
  let per := if bits d 143 128 = 0 then settingAt s (1 + p) 0x3900 2 else bits d 143 128
  let q := getPart s p
  let r := genWords q.auditSeed (bits d 319 288 + i) q.step (bits d 159 144) 0x02000000
  decide (r.1 < 0xFFFFFFFF / max 1 per + (if per = 1 then 1 else 0))

/-- The audited rows. -/
def auditRows (s : State) (p d : Nat) : List Nat :=
  if bits d 5 5 = 1 then (upFrom 0 (min 1048576 (bits d 287 256))).filter (isAudited s p d) else []

/-- U32 numbers as bytes. -/
def u32s (l : List Nat) : List Byte := l.flatMap (toBytes 4)

/-- A partition's sparsity counter. -/
def sparseCtr (s : State) (p sub n : Nat) : State := addCtr s (0x4600 + p) sub n

/-- The fault of a select-form REDUCE (R106, R223, R332). A selection of scores outside the store has no lists, and of a bad
descriptor's batch at most the 1,048,576 rows that it may name are audited. -/
def selectFault (s : State) (p t d : Nat) : Option IFault :=
  let scores := areaFault (bits d 351 320) (8 * bits d 191 160)
  let r := if scores.isNone then selSets s t d else ([], [], 0)
  lowestFault [scores,
    areaFault (bits d 383 352) (4 * (r.1.length + r.2.1.length)), areaFault (bits d 415 384) 16,
    if bits d 5 5 = 1 then areaFault (bits d 447 416) (4 * (auditRows s p d).length) else none,
    faultIf (!selDescOk d) 8 0 0]

/-- The lists, counts and audit rows of a selection, and its counters (R223, R226). -/
def writeSelection (s : State) (p t d : Nat) : State :=
  let r := selSets s t d
  let au := auditRows s p d
  let act := r.1; let cut := r.2.1
  let below := bits d 191 160 - r.2.2
  let s := writeBytes s (tileAddr t (bits d 383 352)) (u32s (act ++ cut))
  let s := writeBytes s (tileAddr t (bits d 415 384)) (u32s [act.length, cut.length, below, au.length])
  let s := if bits d 5 5 = 1 then writeBytes s (tileAddr t (bits d 447 416)) (u32s au) else s
  let s := sparseCtr (sparseCtr (sparseCtr s p 6 1) p 7 act.length) p 8 cut.length
  sparseCtr (if bits d 4 4 = 1 then sparseCtr s p 9 cut.length else s) p 0x0A below

/-- The start of a select-form REDUCE, which completes with its lists written. -/
def startSelect (s : State) (p t : Nat) (q : QInstr) : Started :=
  let d := ownDesc s t (wDesc q.w)
  ownStarted t q.w
    (match selectFault s p t d with
     | some f => .fault f
     | none => .done (writeSelection s p t d))

/-! ## Audit (R225) -/

/-- U32 numbers at an offset of a tile's own store. -/
def ownU32s (s : State) (t off n : Nat) : List Nat := (upFrom 0 n).map (fun i => readNat s (tileAddr t (off + 4 * i)) 4)

/-- An audit record under construction: rows, missed, largest and summed `lost`. -/
structure AuditRec where
  rows : Nat
  missed : Nat
  lostMax : W32
  lostSum : W32
  deriving DecidableEq, Repr

/-- `lost` and `missed` of one row of outputs (R225). -/
def auditRow (inList : Nat → Bool) (ys : List W32) : W32 × Nat :=
  let mags := ys.map (fun y => f32of (fpAbs (f32val y)))
  let out := (mags.zip (upFrom 0 mags.length)).filter (fun e => !inList e.2)
  let den := alignedTotal mags
  (if fpIsZero (f32val den) then 0 else f32div (alignedTotal (out.map Prod.fst)) den,
   (out.filter (fun e => !fpIsZero (f32val e.1))).length)

/-- A U32 sum; a free value where it leaves the format. -/
def addU32 (s : State) (a b : Nat) : Nat × State :=
  if a + b < 2 ^ 32 then (a + b, s) else let r := freshFree s; (r.1 % 2 ^ 32, r.2)

/-- The counts line of a selection: active, cut, below, audited rows. -/
def selCounts (s : State) (t d : Nat) : List Nat := ownU32s s t (bits d 415 384) 4

/-- Entries of the list that an audit compares with: the active neurons, and the cut ones when they are recomputed. -/
def auditLen (s : State) (t d : Nat) : Nat :=
  (selCounts s t d).getD 0 0 + (if bits d 4 4 = 1 then (selCounts s t d).getD 1 0 else 0)

/-- Bytes from one audited row of outputs to the next. -/
def auditPitch (d : Nat) : Nat := ceilDiv (4 * bits d 191 160) 64 * 64

/-- The fault of an audit-form REDUCE (R225, R332). -/
def auditFault (s : State) (t d : Nat) : Option IFault :=
  let au := (selCounts s t d).getD 3 0
  lowestFault [areaFault (bits d 415 384) 16, areaFault (bits d 383 352) (4 * auditLen s t d),
    areaFault (bits d 447 416) (4 * au), areaFault (bits d 479 448) (auditPitch d * au), areaFault (bits d 511 480) 16,
    faultIf (!selDescOk d) 8 0 0]

/-- The lost mass and the missed neurons of each audited row (R225). -/
def auditResults (s : State) (t d : Nat) : List (W32 × Nat) :=
  let list := ownU32s s t (bits d 383 352) (auditLen s t d)
  (upFrom 0 ((selCounts s t d).getD 3 0)).map (fun k =>
    auditRow (fun j => list.contains j) (ownWords s t (bits d 479 448 + auditPitch d * k) (bits d 191 160)))

/-- The audit record, the counters and the events of an audit (R225, R226). -/
def writeAudit (s : State) (p t d : Nat) : State :=
  let au := (selCounts s t d).getD 3 0
  let rows := ownU32s s t (bits d 447 416) au
  let res := auditResults s t d
  let a := tileAddr t (bits d 511 480)
  let r0 := addU32 s (readNat s a 4) au
  let miss := sumOf (res.map Prod.snd)
  let r1 := addU32 r0.2 (readNat s (a + 4) 4) miss
  let s := r1.2
  let mx := res.foldl (fun m e => if fpLt (f32val m) (f32val e.1) then e.1 else m) (BitVec.ofNat 32 (readNat s (a + 8) 4))
  let sm := res.foldl (fun m e => f32add m e.1) (BitVec.ofNat 32 (readNat s (a + 12) 4))
  let s := writeBytes s a (u32s [r0.1, r1.1, mx.toNat, sm.toNat])
  let s := sparseCtr (sparseCtr s p 0x0B au) p 0x0C miss
  let lim := fmtDecode .fp32 (settingAt s (1 + p) 0x3900 4)
  (res.zip rows).foldl (fun s e =>
    if fpLt lim (f32val e.1.1) then raise s 0x0604 p (tileUnit s t .vector) [bits d 159 144, e.2, e.1.1.toNat]
    else s) s

/-- The start of an audit-form REDUCE, which completes with the audit record written. -/
def startAudit (s : State) (p t : Nat) (q : QInstr) : Started :=
  let d := ownDesc s t (wDesc q.w)
  ownStarted t q.w
    (match auditFault s t d with
     | some f => .fault f
     | none => .done (writeAudit s p t d))

/-! ## Recomputation (R103 to R106) -/

/-- Format of `x_format`. -/
def rcX (d : Nat) : Fmt := if bits d 9 8 = 0 then .fp32 else if bits d 9 8 = 1 then .bf16 else .fp16
/-- Format of `dy_format`. -/
def rcDy (d : Nat) : Fmt := if bits d 11 10 = 0 then .bf16 else .fp16
/-- Format of `dx_format`. -/
def rcDx (d : Nat) : Fmt := if bits d 15 14 = 0 then .bf16 else if bits d 15 14 = 1 then .fp16 else .fp32

/-- Bytes of a row of n elements. -/
def rowBytes (f : Fmt) (n : Nat) : Nat := n * (fmtWidth f / 8)

/-- The areas of a recompute descriptor: offset, stride, rows, bytes per row. -/
def rcAreas (isNorm : Bool) (d : Nat) : List (Nat × Nat × Nat × Nat) :=
  let n := bits d 95 64; let rows := bits d 111 96
  let opt : Nat → Nat → List (Nat × Nat × Nat × Nat) := fun o bytes => if o = noOffset then [] else [(o, 0, 1, bytes)]
  [(bits d 191 160, bits d 287 256, rows, rowBytes (rcX d) n), (bits d 223 192, bits d 319 288, rows, rowBytes (rcDy d) n),
    (bits d 255 224, bits d 351 320, rows, rowBytes (rcDx d) n)] ++
    (if isNorm then (bits d 447 416, 0, 1, 4 * n) :: (opt (bits d 479 448) (8 * n) ++ opt (bits d 511 480) (8 * n))
     else if bits d 415 384 = noOffset then [] else [(bits d 415 384, bits d 383 352, rows, 4 * n)])

/-- The checks of R106 on the descriptor. Beside them a `kind` that is not its instruction's, or `rows` or `n` out of range,
which R106 does not list, is a descriptor fault too (log 72, DESIGN CHOICE). -/
def rcDescOk (isNorm : Bool) (d : Nat) : Bool :=
  let n := bits d 95 64; let rows := bits d 111 96; let kind := bits d 7 4
  bits d 3 0 == 1 && bits d 63 16 == 0 && bits d 12 12 == 0 && decide (bits d 15 14 ≤ 2) && decide (bits d 11 10 ≤ 1) &&
    decide (bits d 9 8 ≤ 2) && (if isNorm then decide (kind ≤ 1) else kind == 2) && decide (1 ≤ rows) &&
    decide (rows ≤ 1024) && decide (16 ≤ n) && decide (n ≤ 65536) && n % 16 == 0 &&
    !(kind == 1 && bits d 511 480 != noOffset) &&
    (rcAreas isNorm d).all (fun a => decide (a.1 + (a.2.2.1 - 1) * a.2.1 + a.2.2.2 ≤ storeBytes))

/-- The fault of a recompute descriptor: misalignment, then its own checks. -/
def rcFault (isNorm : Bool) (d : Nat) : Option IFault :=
  match (rcAreas isNorm d).find? (fun a => a.1 % 64 != 0 || a.2.1 % 64 != 0) with
  | some a => some ⟨6, 4, a.1⟩
  | none => faultIf (!rcDescOk isNorm d) 8 0 0

/-- Writes an output row, its old content added when the descriptor asks for it (R103, R120). -/
def writeDx (s : State) (t d i : Nat) (l : List W32) : State :=
  let f := rcDx d
  let off := bits d 255 224 + i * bits d 351 320
  let l := if bits d 13 13 = 1 then addWords l (ownElems s t off l.length f) else l
  let cs := l.map (fun x => convert f .nearestEven (f32val x))
  countClamped (writeBytes s (tileAddr t off) (cs.flatMap (fun c => toBytes (fmtWidth f / 8) c.w))) t cs

/-- Row length as FP32. -/
def lenF32 (n : Nat) : W32 := f32of (.fin false n 0)

/-- One row of NORMRC (R104): dx, and the addends of dγ and dβ. -/
def normRow (layer : Bool) (eps : W32) (xs dys gammas : List W32) : List W32 × List W32 :=
  let n := lenF32 xs.length
  let x0 : W32 := if layer then xs.headD 0 else 0
  let g := List.zipWith f32mul dys gammas
  let dev := xs.map (fun x => f32sub x x0)
  let s1 := alignedTotal dev
  let s2 := alignedTotal (dev.map (fun x => f32mul x x))
  let gs := alignedTotal g
  let h := alignedTotal (List.zipWith f32mul g dev)
  let d := if layer then f32div s1 n else 0
  let mu := if layer then f32add x0 d else 0
  let v0 := f32sub (f32div s2 n) (f32mul d d)
  let var := if layer then (if fpLt (f32val v0) (.fin false 0 0) then 0 else v0) else f32div s2 n
  let mg := if layer then f32div gs n else 0
  let r := vrsqOf (f32add var eps)
  let mgx := f32mul r (f32sub (f32div h n) (f32mul d mg))
  let xh := xs.map (fun x => f32mul (f32sub x mu) r)
  (List.zipWith (fun gj x => f32mul r (f32sub (f32sub gj mg) (f32mul x mgx))) g xh, List.zipWith f32mul dys xh)

/-- NORMRC's rows in order. -/
def runNorm (s : State) (t d : Nat) : State :=
  let n := bits d 95 64
  (upFrom 0 (bits d 111 96)).foldl (fun s i =>
    let xs := ownElems s t (bits d 191 160 + i * bits d 287 256) n (rcX d)
    let dys := ownElems s t (bits d 223 192 + i * bits d 319 288) n (rcDy d)
    let r := normRow (bits d 7 4 = 0) (BitVec.ofNat 32 (bits d 159 128)) xs dys (ownWords s t (bits d 447 416) n)
    let s := writeDx s t d i r.1
    let s := if bits d 479 448 = noOffset then s
      else bankCombine s (tileAddr t (bits d 479 448)) 3 (bytesOfWords r.2)
    if bits d 511 480 = noOffset then s else bankCombine s (tileAddr t (bits d 511 480)) 3 (bytesOfWords dys)) s

/-- The running sums of SMAXRC's first sweep: m, s, t (R105). -/
structure SoftSums where
  m : W32
  s : W32
  t : W32
  deriving DecidableEq, Repr

/-- Minus infinity. -/
abbrev negInf : W32 := 0xFF800000

/-- One chunk of SMAXRC's first sweep: logits with their incoming gradients. The chunk's two sums are formed by the aligned
method that R104 states for NORMRC, each with one FP32 add into its running sum (R105; log 73, DESIGN CHOICE). -/
def softChunk (a : SoftSums) (l : List (W32 × W32)) : SoftSums :=
  let mc := l.foldl (fun m e => if fpLt (f32val m) (f32val e.1) then e.1 else m) negInf
  let a := if fpLt (f32val a.m) (f32val mc) then
      let k := vexpOf (f32sub a.m mc)
      { m := mc, s := f32mul a.s k, t := f32mul a.t k }
    else a
  if l.isEmpty then a
  else
    let e := l.map (fun x => (vexpOf (f32sub x.1 a.m), x.2))
    { a with s := f32add a.s (alignedTotal (e.map Prod.fst))
             t := f32add a.t (alignedTotal (e.map (fun x => f32mul x.2 x.1))) }

/-- One row of SMAXRC (R105): dz by column; `none` in the list marks an excluded column. -/
def softRow (tau : W32) (l : List (Option (W32 × W32))) : List W32 :=
  let inc := l.filterMap id
  if inc.any (fun e => fpIsNan (f32val e.1) || fpIsNan (f32val e.2)) then l.map (fun _ => 0x7FC00000)
  else
    let a := (chunks128 (l.length / 128 + 1) l).foldl (fun a c => softChunk a (c.filterMap id)) ⟨negInf, 0, 0⟩
    if a.m = negInf then l.map (fun _ => 0)
    else
      let c := f32div a.t a.s
      l.map (fun e =>
        match e with
        | none => 0
        | some x => f32mul (f32mul tau (f32div (vexpOf (f32sub x.1 a.m)) a.s)) (f32sub x.2 c))

/-- The logits of a row with their incoming gradients; excluded columns are none. τ·z is rounded to FP32 and then its sum
with the mask: whether once or twice the spec does not say (R105; log 73, DESIGN CHOICE). -/
def softInputs (s : State) (t d i : Nat) : List (Option (W32 × W32)) :=
  let n := bits d 95 64
  let tau := BitVec.ofNat 32 (bits d 159 128)
  let zs := (ownElems s t (bits d 191 160 + i * bits d 287 256) n (rcX d)).map (f32mul tau)
  let zs := if bits d 415 384 = noOffset then zs
    else addWords zs (ownWords s t (bits d 415 384 + i * bits d 383 352) n)
  let dps := ownElems s t (bits d 223 192 + i * bits d 319 288) n (rcDy d)
  let base := bits d 127 112
  ((zs.zip dps).zip (upFrom 0 n)).map (fun e => if base ≠ 0xFFFF && decide (base + i < e.2) then none else some e.1)

/-- SMAXRC's rows in order. -/
def runSoft (s : State) (t d : Nat) : State :=
  (upFrom 0 (bits d 111 96)).foldl (fun s i =>
    writeDx s t d i (softRow (BitVec.ofNat 32 (bits d 159 128)) (softInputs s t d i))) s

/-- The start of NORMRC or SMAXRC, which completes with its rows written (R103, R106). -/
def startRecompute (s : State) (t : Nat) (q : QInstr) : Started :=
  let norm := wClass q.w == 0x1A
  let d := ownDesc s t (wDesc q.w)
  ownStarted t q.w
    (match rcFault norm d with
     | some f => .fault f
     | none => .done (tileCtr (if norm then runNorm s t d else runSoft s t d) t 0x28 (bits d 111 96)))

end Sys2Proof.Machine
end

