-- ==== Sys2Proof/Machine/Retr.lean ====
section
/-! DEFINITION. Machine/Retr.lean: Retriever and the merge units: requests, embedding tables, touched-row sets, merge
adds, deferrals, hot rows, table versions (09). -/

namespace Sys2Proof.Machine

/-- Replaces Retriever's record. -/
def putRetr (s : State) (v : Retr) : State := { s with retr := v }

/-- A partition's Retriever counter (R210). -/
def retrCtr (s : State) (p sub n : Nat) : State := addCtr s (0x4500 + p) sub n

/-! ## The request descriptor (R182) -/

/-- Field of a request descriptor. -/
def rFld (d : BitVec 1024) (hi lo : Nat) : Nat := bits d.toNat hi lo

/-- `via_table`. -/
def rVia (d : BitVec 1024) : Bool := rFld d 21 21 == 1
/-- `add_op`. -/
def rOp (d : BitVec 1024) : Nat := rFld d 10 8
/-- `mode`: 0 NODE, 1 SLOT, 2 LIST. -/
def rMode (d : BitVec 1024) : Nat := rFld d 7 4
/-- `count`. -/
def rCount (d : BitVec 1024) : Nat := rFld d 671 640
/-- `first`. -/
def rFirst (d : BitVec 1024) : Nat := rFld d 703 672
/-- `hop`. -/
def rHop (d : BitVec 1024) : Nat := rFld d 15 13
/-- `step`. -/
def rStep (d : BitVec 1024) : Nat := rFld d 767 704
/-- `table`. -/
def rTable (d : BitVec 1024) : Nat := rFld d 31 24
/-- `touch`. -/
def rTouch (d : BitVec 1024) : Bool := rFld d 22 22 == 1
/-- `index_addr`. -/
def rIndex (d : BitVec 1024) : Nat := rFld d 959 896

/-! ## Trails as Retriever reads them (R172 to R174) -/

/-- The header of the trail at an address. -/
def trailHead (s : State) (a : Nat) : Nat := readNat s a 128

/-- Nodes of a trail at its node count of hop h. -/
def nodesEnd (h hop : Nat) : Nat := bits h (864 + 32 * hop + 31) (864 + 32 * hop)

/-- Nodes of a complete trail. -/
def trailNodes (h : Nat) : Nat := nodesEnd h (bits h 14 12)

/-- Nodes that a SLOT request may name: all of a complete trail's, or, while a trail is built, those that its hops have
so far (R173, R189). -/
def slotNodes (s : State) (a : Nat) : Nat :=
  let h := trailHead s a
  if bits h 11 8 = 0 then
    match s.trails.find? (fun t => t.running && bits t.desc.toNat 831 768 == a) with
    | some t => t.nodes.length
    | none => trailNodes h
  else trailNodes h

/-- Offset of the edge array of hop h. -/
def edgeOff (h hop : Nat) : Nat := bits h (416 + 32 * (hop - 1) + 31) (416 + 32 * (hop - 1))

/-- Slots of hop h, from the offsets that follow one another (R172). -/
def hopSlots (h hop : Nat) : Nat :=
  if hop = 0 then bits h 63 32
  else ((if hop < bits h 14 12 then edgeOff h (hop + 1) else bits h 607 576) - edgeOff h hop) / 32

/-- Fanout of hop h. -/
def hopFanout (h hop : Nat) : Nat := hopSlots h hop / hopSlots h (hop - 1)

/-- Edge entry x of a hop. -/
def edgeEntry (s : State) (a h hop x : Nat) : Nat := readNat s (a + edgeOff h hop + 32 * x) 32

/-- Non-empty slots among the parent's slots that hold slot x. -/
def filledSlots (s : State) (a h hop x : Nat) : Nat :=
  let f := hopFanout h hop
  ((upFrom (x / f * f) f).filter (fun y => bits (edgeEntry s a h hop y) 31 0 != 0xFFFFFFFF)).length

/-! ## Tables (R190, R192) -/

/-- Bytes of an element of a table. -/
def tElemBytes (d : Nat) : Nat := if bits d 11 8 = 4 then 4 else 2

/-- Format of a table's elements. -/
def tFmt (d : Nat) : Fmt := if bits d 11 8 = 1 then .bf16 else if bits d 11 8 = 2 then .fp16 else .fp32

/-- Elements of a row. -/
def tElems (d : Nat) : Nat := bits d 399 384

/-- Bytes of a row. -/
def tRowBytes (d : Nat) : Nat := tElems d * tElemBytes d

/-- First row of slice i. -/
def sliceFirst (d i : Nat) : Nat := bits d (608 + 40 * i + 39) (608 + 40 * i)

/-- Base of slice i; 0 for an empty one. -/
def sliceBase (d i : Nat) : Nat := bits d (768 + 64 * i + 63) (768 + 64 * i)

/-- Dies with a slice. -/
def sliceDies (d : Nat) : List Nat := (upFrom 0 4).filter (fun i => sliceBase d i != 0)

/-- The slice of a row: its die and the row's address in T1. -/
def sliceOf (d row : Nat) : Option (Nat × Nat) :=
  (((sliceDies d).filter (fun i => decide (sliceFirst d i ≤ row))).getLast?).map
    (fun i => (i, sliceBase d i + (row - sliceFirst d i) * bits d 383 352))

/-- Row of an index of a direct or hashed table. -/
def tableRow (d i : Nat) : Option Nat :=
  if bits d 5 4 = 0 then (if i < bits d 607 568 then some i else none)
  else some ((bits d 527 464 * i + bits d 463 400) % 2 ^ 64 / 2 ^ (64 - bits d 17 12))

/-- Rows of a direct or hashed table. -/
def tableRows (d : Nat) : Nat := if bits d 5 4 = 0 then bits d 607 568 else 2 ^ bits d 17 12

/-- Bytes of slice i of a direct or hashed table, from its base: its rows end where the next slice begins (R190). -/
def sliceBytes (d i : Nat) : Nat :=
  let n := (((sliceDies d).filter (fun j => decide (i < j))).map (sliceFirst d)).headD (tableRows d) - sliceFirst d i
  if n = 0 then 0 else (n - 1) * bits d 383 352 + tRowBytes d

/-- The slices of a direct or hashed table lie in GDDR7 that the partition holds (R190, R231, R233). -/
def slicesOk (s : State) (p d : Nat) : Bool :=
  bits d 5 4 == 2 || (sliceDies d).all (fun i => t1Run s p (sliceBase d i) (sliceBytes d i))

/-- The descriptor of a table keeps its rules. -/
def baseDescOk (d : Nat) : Bool :=
  bits d 3 0 == 1 && decide (bits d 5 4 ≤ 2) && bits d 335 34 == 0 && bits d 7 6 != 3 && (bits d 11 8 == 1 || bits d 11 8 == 2 || bits d 11 8 == 4) &&
    decide (16 ≤ tElems d) && decide (tElems d ≤ 4096) && decide (1 ≤ bits d 33 26) && sliceFirst d 0 == 0 &&
    (bits d 5 4 == 2 || (bits d 383 352 % 16 == 0 && decide (tRowBytes d ≤ bits d 383 352))) &&
    (bits d 5 4 != 1 || (decide (1 ≤ bits d 17 12) && decide (bits d 17 12 ≤ 40) && bits d 527 464 % 2 == 1)) &&
    (bits d 5 4 != 2 || decide (1 ≤ bits d 567 528))

/-- Address of a registry entry. -/
def regEntryAddr (s : State) (p t : Nat) : Nat := mget 0 s.retr.regAddr p + 64 * t

/-- The registry entry of a table: as read before, or from memory (R190). -/
def regEntry (s : State) (p t : Nat) : Nat :=
  match s.retr.regs.find? (fun r => r.part == p && r.table == t) with
  | some r => r.entry.toNat
  | none => readNat s (regEntryAddr s p t) 64

/-- Bytes of a row in a hot slot. -/
def hotPad (d : Nat) : Nat := ceilDiv (tRowBytes d) 64 * 64

/-- Bytes of the merge area of an entry's table on a die. -/
def mergeBytes (e d : Nat) : Nat := 64 * bits e 255 224 + bits e 255 224 * tElems d * (if bits e 7 7 = 1 then 8 else 4)

/-- Bytes of the hot area of an entry's table on a die. -/
def hotBytes (e d : Nat) : Nat := bits e 191 160 * (64 + hotPad d)

/-- A run of landing-store offsets lies in the partition's share. -/
def shareHolds (q : Part) (off n : Nat) : Bool := inShare q off && inShare q (off + n - 1)

/-- Hot bytes on a die of the other tables that Retriever has read, of every partition. -/
def otherHot (s : State) (p t die : Nat) : Nat :=
  sumOf ((s.retr.regs.filter (fun r => !(r.part == p && r.table == t))).map (fun r =>
    let d := readNat s (bits r.entry.toNat 511 448) 128
    if (sliceDies d).contains die then hotBytes r.entry.toNat d else 0))

/-- A registry entry with the descriptor it names is valid (R192). -/
def regOk (s : State) (p t e d : Nat) : Bool :=
  let q := getPart s p
  let m := bits e 287 256; let h := bits e 223 192
  bits e 3 0 == 1 && bits e 6 4 == 0 && bits e 143 8 == 0 && bits e 511 448 % 64 == 0 && t1Run s p (bits e 511 448) 128 &&
    baseDescOk d && slicesOk s p d &&
    (bits e 255 224 == 0 || (m % 65536 == 0 && shareHolds q m (mergeBytes e d))) &&
    (bits e 191 160 == 0 || (h % 65536 == 0 && shareHolds q h (hotBytes e d))) &&
    (bits e 255 224 == 0 || bits e 191 160 == 0 || !runsMeet' (m, mergeBytes e d) (h, hotBytes e d)) &&
    (sliceDies d).all (fun die => decide (otherHot s p t die + hotBytes e d ≤ 100663296))
where
  /-- Two runs overlap. -/
  runsMeet' (a b : Nat × Nat) : Bool := decide (a.1 < b.1 + b.2) && decide (b.1 < a.1 + a.2)

/-- The descriptor that a batch uses for a table: pinned, or the current one (R205). -/
def batchDesc (s : State) (p t b : Nat) : Nat :=
  match s.retr.pins.find? (fun r => r.part == p && r.table == t && r.step == b) with
  | some r => r.desc.toNat
  | none => readNat s (bits (regEntry s p t) 511 448) 128

/-- The tables whose rows a table's keys name: itself, or Q and R. -/
def subTables (d t : Nat) : List Nat := if bits d 5 4 = 2 then [bits d 351 344, bits d 343 336] else [t]

/-- A table is valid for a request: its entry and descriptor, and those of Q and R (R190, R192). -/
def tableOk (s : State) (p t b : Nat) : Bool :=
  let e := regEntry s p t
  let d := batchDesc s p t b
  regOk s p t e d && (bits d 5 4 != 2 ||
    (let q := bits d 351 344; let r := bits d 343 336
     let dq := batchDesc s p q b; let dr := batchDesc s p r b
     regOk s p q (regEntry s p q) dq && regOk s p r (regEntry s p r) dr && bits dq 5 4 != 2 && bits dr 5 4 != 2 &&
       bits dq 11 8 == bits d 11 8 && bits dr 11 8 == bits d 11 8 &&
       (if bits d 7 6 = 0 then tElems d == tElems dq + tElems dr
        else tElems dq == tElems d && tElems dr == tElems d)))

/-- Writes a field of a registry entry, in memory and as Retriever holds the entry; fields that software writes stay. -/
def putReg (s : State) (p t hi lo v : Nat) : State :=
  let e := withBits (BitVec.ofNat 512 (regEntry s p t)) hi lo v
  let s := writeNat s (regEntryAddr s p t + lo / 8) ((hi + 1 - lo) / 8) v
  putRetr s { s.retr with
    regs := (s.retr.regs.filter (fun r => !(r.part == p && r.table == t))) ++ [⟨p, t, e⟩] }

/-- A batch pins a table's current descriptor at its first request (R205). -/
def pinTable (b p : Nat) (s : State) (t : Nat) : State :=
  if s.retr.pins.any (fun r => r.part == p && r.table == t && r.step == b) then s
  else
    let e := regEntry s p t
    let a := bits e 511 448
    let s := putReg s p t 159 144 (bits e 159 144 + 1)
    putRetr s { s.retr with pins := s.retr.pins ++ [⟨p, t, b, a, BitVec.ofNat 1024 (readNat s a 128)⟩] }

/-! ## Directories (R194, R199) -/

/-- Address of the merge directory of a step's set (R194). -/
def mergeDir (e die b : Nat) : Nat := landAddr die (bits e 287 256 + b % 2 * (32 * bits e 255 224))

/-- Bytes of an entry of a merge directory (R194). -/
def touchBytes (e : TouchEntry) : List Byte :=
  toBytes 8 e.row ++ toBytes 4 e.idx ++ toBytes 2 e.count ++
    toBytes 2 ((if e.written then 1 else 0) + (if e.updated then 2 else 0))

/-- Empties a merge directory: the row of every entry is all ones (R194, R197). -/
def clearDir (s : State) (p t die b : Nat) : State :=
  let e := regEntry s p t
  (upFrom 0 (2 * bits e 255 224)).foldl (fun s k => writeNat s (mergeDir e die b + 16 * k) 8 (2 ^ 64 - 1)) s

/-- The entries of a set that changed stand in its directory. -/
def mirrorSet (s : State) (v : TouchSet) (old : List TouchEntry) : State :=
  let e := regEntry s v.part v.table
  let pl := dirPlaces (2 * bits e 255 224) (v.entries.map TouchEntry.row)
  (v.entries.filter (fun x => !old.contains x)).foldl (fun s x =>
    match pl.find? (fun y => y.1 == x.row) with
    | some y => writeBytes s (mergeDir e v.die v.step + 16 * y.2) (touchBytes x)
    | none => s) s

/-- Address of the hot directory of a table on a die (R199). -/
def hotDir (e die : Nat) : Nat := landAddr die (bits e 223 192)

/-- Bytes of an entry of a hot directory (R199). -/
def hotEntryBytes (h : HotEntry) : List Byte :=
  toBytes 8 h.row ++ toBytes 4 h.slot ++ toBytes 4 h.last ++ toBytes 4 h.epoch ++ toBytes 12 h.st

/-- A hot directory after a change: entries that went are empty, the others stand where probing puts them. -/
def mirrorHot (s : State) (p t die : Nat) (old new : List HotEntry) : State :=
  let e := regEntry s p t
  let n := 2 * bits e 191 160
  let was := dirPlaces n (old.map HotEntry.row)
  let now := dirPlaces n (new.map HotEntry.row)
  let s := (was.filter (fun x => !now.any (fun y => y.2 == x.2))).foldl (fun s x =>
    writeNat s (hotDir e die + 32 * x.2) 8 (2 ^ 64 - 1)) s
  (new.filter (fun h => !(old.contains h && (was.filter (fun x => x.1 == h.row)) == now.filter (fun x => x.1 == h.row)))).foldl
    (fun s h =>
      match now.find? (fun x => x.1 == h.row) with
      | some x => writeBytes s (hotDir e die + 32 * x.2) (hotEntryBytes h)
      | none => s) s

/-- The hot entries change, with the directories that hold them. -/
def putHot (s : State) (hot : List HotEntry) : State :=
  let old := s.retr.hot
  let keys := ((old ++ hot).map (fun h => (h.part, h.table, h.die))).dedup
  let s := putRetr s { s.retr with hot := hot }
  keys.foldl (fun s k =>
    let mine := fun (h : HotEntry) => h.part == k.1 && h.table == k.2.1 && h.die == k.2.2
    if old.filter mine = hot.filter mine then s else mirrorHot s k.1 k.2.1 k.2.2 (old.filter mine) (hot.filter mine)) s

/-! ## Touched-row sets and hot rows (R193, R194, R199 to R202) -/

/-- The set of a table on a die for a step. -/
def findSet (s : State) (p t die b : Nat) : Option TouchSet :=
  s.retr.sets.find? (fun r => r.part == p && r.table == t && r.die == die && r.step == b && !r.clearing)

/-- A row's entry in a set. -/
def findTouch (s : State) (p t die b row : Nat) : Option TouchEntry :=
  (findSet s p t die b).bind (fun r => r.entries.find? (fun e => e.row == row))

/-- Replaces a set, with its directory; a new set's directory starts empty (log 34, DEDUCED). -/
def putSet (s : State) (v : TouchSet) : State :=
  let same := fun (r : TouchSet) => r.part == v.part && r.table == v.table && r.die == v.die && r.step == v.step && !r.clearing
  let was := s.retr.sets.find? same
  let s := putRetr s { s.retr with sets := (s.retr.sets.filter (fun r => !same r)) ++ [v] }
  match was with
  | some w => mirrorSet s v w.entries
  | none => mirrorSet (clearDir s v.part v.table v.die v.step) v []

/-- Updates the entry of a row in a set. -/
def mapTouch (s : State) (p t die b row : Nat) (f : TouchEntry → TouchEntry) : State :=
  match findSet s p t die b with
  | none => s
  | some v => putSet s { v with entries := v.entries.map (fun e => if e.row = row then f e else e) }

/-- The hot entry of a row. -/
def hotOf (s : State) (p t die row : Nat) : Option HotEntry :=
  s.retr.hot.find? (fun h => h.part == p && h.table == t && h.die == die && h.row == row)

/-- Device address of a hot slot. -/
def hotSlot (e d die slot : Nat) : Nat := landAddr die (bits e 223 192 + 64 * bits e 191 160 + slot * hotPad d)

/-- A row's home: the hot slot of a HOT or DEMOTING row, else T1 (R199, R201); whether it is a hot slot. -/
def rowHome (s : State) (p t d row : Nat) : Option (Nat × Bool) :=
  (sliceOf d row).map (fun x =>
    match hotOf s p t x.1 row with
    | some h => if h.st = 1 then (x.2, false) else (hotSlot (regEntry s p t) d x.1 h.slot, true)
    | none => (x.2, false))

/-- Free hot slots of a table on a die, lowest first. -/
def freeSlots (s : State) (p t die n : Nat) : List Nat :=
  (upFrom 0 n).filter (fun k => !s.retr.hot.any (fun h => h.part == p && h.table == t && h.die == die && h.slot == k))

/-- One more lookup of a row of a set (R193). -/
def countTouch (v : TouchSet) (row : Nat) : TouchSet :=
  { v with entries := v.entries.map (fun e => if e.row = row then { e with count := min 65535 (e.count + 1) } else e) }

/-- Sealing a set on a die starts promotions and demotions (R200). -/
def sealDie (p t b d : Nat) (s : State) (die : Nat) : State :=
  let v := (findSet s p t die b).getD ⟨p, t, die, b, false, false, []⟩
  if v.sealed then s
  else
    let s := putSet s { v with sealed := true }
    let n := bits (regEntry s p t) 191 160
    if n = 0 then s
    else
      let mine := fun (h : HotEntry) => h.part == p && h.table == t && h.die == die
      let hot := s.retr.hot.map (fun h =>
        if !mine h then h
        else
          let h := if v.entries.any (fun e => e.row == h.row) then { h with last := b } else h
          if h.st = 2 && decide (h.last + bits d 33 26 ≤ b) then { h with st := 3 } else h)
      let cand := if bits d 25 18 = 0 then [] else
        v.entries.filter (fun e => decide (bits d 25 18 ≤ e.count) && !hot.any (fun h => mine h && h.row == e.row))
      let new := (cand.zip (freeSlots s p t die n)).map (fun x =>
        ({ part := p, table := t, die := die, row := x.1.row, slot := x.2, last := b, epoch := 0, st := 1
           held := none } : HotEntry))
      putHot s (hot ++ new)

/-- Seals the sets of a table for a step. -/
def sealTable (p b : Nat) (s : State) (t : Nat) : State :=
  if bits (regEntry s p t) 255 224 = 0 then s
  else let d := batchDesc s p t b; (sliceDies d).foldl (sealDie p t b d) s

/-! ## Acceptance (R182, R188) -/

/-- Destination bytes per row of a gather. -/
def gatherBytes (s : State) (p : Nat) (d : BitVec 1024) : Nat :=
  if rVia d then tRowBytes (batchDesc s p (rTable d) (rStep d)) else rFld d 575 544

/-- An address range of a destination may be written by the partition. -/
def destOk (s : State) (p a n : Nat) : Bool :=
  (accessDetail s p a true).isNone && (accessDetail s p (a + n - 1) true).isNone

/-- A run of bytes may be read by the partition. -/
def sourceOk (s : State) (p a n : Nat) : Bool :=
  (accessDetail s p a false).isNone && (accessDetail s p (a + n - 1) false).isNone

/-- An address of the far tier (R239). -/
def isFar (a : Nat) : Bool := match placeOf a with | .window _ _ => true | _ => false

/-- Source bytes of a scatter-add's row. -/
def scatterBytes (s : State) (p : Nat) (d : BitVec 1024) : Nat :=
  let n := match rOp d with
    | 1 => rFld d 575 544 / 4 | 2 => rFld d 575 544 / 8 | 3 => rFld d 575 544 / 2
    | _ => tElems (batchDesc s p (rTable d) (rStep d))
  (if rFld d 12 11 = 0 then 4 else 2) * n

/-- Bytes of an entry of an index list. -/
def listWidth (d : BitVec 1024) : Nat := if rFld d 16 16 = 1 then 8 else 4

/-- The runs of memory that a request names whatever its keys are: the index list or the trail's header, the coefficients
and, of a scatter-add, the first and the last source row. -/
def namedRuns (s : State) (p : Nat) (scatter : Bool) (d : BitVec 1024) : List (Nat × Nat) :=
  let src := rFld d 1023 960
  let n := max 1 (scatterBytes s p d)
  (if rMode d = 2 then [(rIndex d + listWidth d * rFirst d, listWidth d * rCount d)] else [(rIndex d, 128)]) ++
    (if scatter && rMode d == 1 && rFld d 18 17 == 2 then [(rFld d 831 768 + 4 * rFirst d, 4 * rCount d)] else []) ++
    (if scatter then (src, n) :: (if rFld d 19 19 = 1 then [] else [(src + (rCount d - 1) * rFld d 639 608, n)]) else [])

/-- The first address that a request names and its partition may not read, with its detail. -/
def namedFault (s : State) (p : Nat) (scatter : Bool) (d : BitVec 1024) : Option (Nat × Nat) :=
  (namedRuns s p scatter d).findSome? (fun r => readFault s p r.1 r.2)

/-- The request names no reserved range and nothing outside device memory (R231), no trail in a window, and a coefficient
address where one is used alone; what it names outside its partition faults it instead (R233, R240). -/
def readsOk (s : State) (p : Nat) (scatter : Bool) (d : BitVec 1024) : Bool :=
  (namedFault s p scatter d).all (fun x => decide (2 ≤ x.2)) && (rMode d == 2 || !isFar (rIndex d)) &&
    ((scatter && rMode d == 1 && rFld d 18 17 == 2) || (!scatter && rMode d == 1 && rFld d 20 20 == 1) ||
      rFld d 831 768 == 0) &&
    (scatter || rVia d || accessDetail s p (rFld d 1023 960) false != some 1)

/-- The request keeps the rules of R182, R185 and R188. -/
def reqOk (s : State) (p : Nat) (scatter : Bool) (d : BitVec 1024) : Bool :=
  let h := trailHead s (rIndex d)
  let f := hopFanout h (rHop d)
  let via := rVia d
  let cur := (getPart s p).step
  rFld d 3 0 == 1 && rFld d 511 32 == 0 && decide (rMode d ≤ 2) && decide (rOp d ≤ 4) && rFld d 18 17 != 3 &&
    rFld d 12 11 != 3 && decide (1 ≤ rCount d) && decide (rCount d ≤ 1048576) && counterOk (rFld d 543 512) &&
    (scatter == (rOp d != 0)) && (!scatter || rFld d 1023 960 != 0) &&
    (rMode d != 1 || (decide (1 ≤ rHop d) && decide (rHop d ≤ 4))) &&
    (if via then rMode d != 1 else rOp d != 4) && (!(rTouch d || rFld d 23 23 == 1) || (!scatter && via)) &&
    (via || (if scatter then rFld d 575 544 % 64 == 0 && rFld d 575 544 != 0 && rFld d 895 832 % 64 == 0 &&
               rFld d 607 576 % 64 == 0
             else rFld d 575 544 % 16 == 0 && decide (16 ≤ rFld d 575 544) && decide (rFld d 575 544 ≤ 16384))) &&
    (!(rMode d == 1 && ((scatter && rFld d 18 17 == 1) || (!scatter && rFld d 20 20 == 1))) ||
      (f != 0 && rFirst d % f == 0 && rCount d % f == 0)) &&
    (!via || ((rStep d == cur || rStep d == cur + 1) && tableOk s p (rTable d) (rStep d))) &&
    readsOk s p scatter d &&
    (if scatter then rOp d == 4 || destOk s p (rFld d 895 832) (rFld d 575 544)
     else (upFrom 0 (rCount d)).all (fun i =>
       destOk s p (rFld d 895 832 + i * rFld d 607 576) (max 1 (gatherBytes s p d)))) &&
    (rMode d != 1 || scatter || rFld d 20 20 == 0 ||
      destOk s p (rFld d 831 768) (2 * (rCount d / max 1 f)))

/-! ## Keys and rows (R183 to R185, R189, R190) -/

/-- The reader of a request's window reads. -/
def retrOwner (id : Nat) : Nat := 2 ^ 60 + id

/-- Key of row i for a reader: none for a row without a key (an empty slot), else the key and whether it is one of the
trail's (R183, R189). -/
def rowKey (s : State) (owner : Nat) (d : BitVec 1024) (i : Nat) : Option (Nat × Bool) :=
  let a := rIndex d
  match rMode d with
  | 0 =>
    let h := trailHead s a
    let k := rFirst d + i
    if k < trailNodes h then some (readNat s (a + bits h 607 576 + 8 * k) 8 % 2 ^ 40, true) else some (k, false)
  | 1 =>
    let h := trailHead s a
    let n := bits (edgeEntry s a h (rHop d) (rFirst d + i)) 31 0
    if n = 0xFFFFFFFF then none else some (n, decide (n < slotNodes s a))
  | _ =>
    some (farNat s owner (a + listWidth d * (rFirst d + i)) (listWidth d), true)

/-- The base-table rows that an index of a table names: (table, descriptor, row) each; none when out of range. -/
def indexRows (s : State) (p t b i : Nat) : Option (List (Nat × Nat × Nat)) :=
  let d := batchDesc s p t b
  if bits d 5 4 = 2 then
    let tq := bits d 351 344; let tr := bits d 343 336
    let dq := batchDesc s p tq b; let dr := batchDesc s p tr b
    let m := bits d 567 528
    match tableRow dq (i / m), tableRow dr (i % m) with
    | some x, some y => some [(tq, dq, x), (tr, dr, y)]
    | _, _ => none
  else (tableRow d i).map (fun r => [(t, d, r)])

/-- The bytes of a base row, and whether a hot slot served it. -/
def rowBytesOf (s : State) (p : Nat) (x : Nat × Nat × Nat) : List Byte × Bool :=
  match rowHome s p x.1 x.2.1 x.2.2 with
  | some h => (readBytes s h.1 (tRowBytes x.2.1), h.2)
  | none => ([], false)

/-- Elements of a run of bytes in a table's format, as FP32. -/
def rowF32 (d : Nat) (bs : List Byte) : List W32 :=
  if bits d 11 8 = 4 then wordsOf bs else (halvesOf bs).map (fun h => f32of (fmtDecode (tFmt d) h.toNat))

/-- FP32 values as bytes in a table's format, rounded to nearest even. -/
def rowOfF32 (d : Nat) (l : List W32) : List Byte :=
  l.flatMap (fun x => toBytes (tElemBytes d) (convert (tFmt d) .nearestEven (f32val x)).w)

/-- The value of a table index, from its base rows (R190). -/
def indexValue (s : State) (p t b : Nat) (rows : List (Nat × Nat × Nat)) : List Byte :=
  let d := batchDesc s p t b
  let vs := rows.map (fun x => (rowBytesOf s p x).1)
  match vs with
  | [q, r] =>
    match bits d 7 6 with
    | 0 => q ++ r
    | 1 => rowOfF32 d (List.zipWith f32add (rowF32 d q) (rowF32 d r))
    | _ => rowOfF32 d (List.zipWith f32mul (rowF32 d q) (rowF32 d r))
  | [v] => v
  | _ => []

/-- Some base row of the index is in the set of step b and not updated, or its new bytes are not yet visible (R27, R196,
R253): its die. -/
def blockedOn (s : State) (p b : Nat) (rows : List (Nat × Nat × Nat)) : Option Nat :=
  rows.findSome? (fun x =>
    match sliceOf x.2.1 x.2.2 with
    | none => none
    | some sl =>
      match findTouch s p x.1 sl.1 b x.2.2 with
      | some e => if e.updated && settled s p then none else some sl.1
      | none => none)

/-! ## Running a request -/

/-- Replaces a request. -/
def putReq (s : State) (r : RetrReq) : State :=
  putRetr s { s.retr with reqs := s.retr.reqs.map (fun x => if x.id = r.id then r else x) }

/-- The request of a number. -/
def getReq (s : State) (id : Nat) : Option RetrReq := s.retr.reqs.find? (fun r => r.id == id)

/-- Identity of the Retriever engine that reports for a partition: which of its engines does is not stated; the model
takes engine 0 of the lowest die that serves it (log 68, DESIGN CHOICE). -/
def retrUnit (s : State) (p : Nat) : Nat :=
  let i := 16 * (serveDies s p).headD 0
  unitId (tagOf s (unitNo 3 i)) 3 0 i

/-- A bad key of a request: counted, raised once (R189). -/
def badKey (s : State) (id key : Nat) : State :=
  match getReq s id with
  | none => s
  | some r =>
    let s := retrCtr s r.part 3 1
    if r.badRaised then s
    else raise (putReq s { r with badRaised := true }) 0x0804 r.part (retrUnit s r.part)
      [key, if rVia r.desc then rTable r.desc else 0xFF]

/-- A lookup of a base row: its count in the set of the step rises, and a touching lookup inserts it (R193); `false` when
the set is full (R197). -/
def touchRow (touch : Bool) (p b : Nat) (x : Nat × Nat × Nat) (s : State) : State × Bool :=
  match sliceOf x.2.1 x.2.2 with
  | none => (s, true)
  | some sl =>
    let cap := bits (regEntry s p x.1) 255 224
    let v := (findSet s p x.1 sl.1 b).getD ⟨p, x.1, sl.1, b, false, false, []⟩
    if cap = 0 then (s, true)
    else if v.entries.any (fun e => e.row == x.2.2) then (putSet s (countTouch v x.2.2), true)
    else if !touch || v.sealed then (s, true)
    else if cap ≤ v.entries.length then
      (addHold (raise s 0x0806 p (unitId (tagOf s (unitNo 5 sl.1)) 5 0 sl.1) [x.1, sl.1]) p 0x0806, false)
    else (putSet s { v with entries := v.entries ++ [⟨x.2.2, v.entries.length, 1, false, false⟩] }, true)

/-- Looks the base rows of an index up. -/
def touchRows (touch : Bool) (p b : Nat) : List (Nat × Nat × Nat) → State → State × Bool
  | [], s => (s, true)
  | x :: r, s => let a := touchRow touch p b x s; if a.2 then touchRows touch p b r a.1 else a

/-- Writes a gathered row. -/
def deliverRow (s : State) (p : Nat) (d : BitVec 1024) (i : Nat) (bs : List Byte) : State :=
  retrCtr (writeBytes s (rFld d 895 832 + i * rFld d 607 576) bs) p 1 1

/-- Delivers a table row, counting its hot hits. -/
def deliverIndex (s : State) (p : Nat) (d : BitVec 1024) (i : Nat) (rows : List (Nat × Nat × Nat)) : State :=
  let v := indexValue s p (rTable d) (rStep d) rows
  let hits := (rows.filter (fun x => (rowBytesOf s p x).2)).length
  deliverRow (retrCtr s p 6 hits) p d i v

/-- A row's progress: done, waiting for room in a deferral list, or stopped by a full set. -/
inductive RowStep where
  | done (s : State)
  | wait
  | stop (s : State)
  deriving DecidableEq, Repr

/-- One more row of a request is outstanding. -/
def moreLeft (s : State) (id n : Nat) : State :=
  match getReq s id with
  | some r => putReq s { r with left := r.left + n }
  | none => s

/-- Row i of a gather through a table (R190, R193, R196). -/
def gatherTable (s : State) (r : RetrReq) (i key : Nat) : RowStep :=
  let p := r.part; let d := r.desc; let b := rStep d
  match indexRows s p (rTable d) b key with
  | none => .done (deliverRow (badKey s r.id key) p d i (toBytes (gatherBytes s p d) 0))
  | some rows =>
    let blocked := if b = (getPart s p).step + 1 then blockedOn s p (b - 1) rows else none
    if blocked.any (fun die => decide (4096 ≤ (s.retr.deferred.filter (fun x => x.die == die)).length)) then .wait
    else
      let t := touchRows (rTouch d) p b rows s
      if !t.2 then .stop t.1
      else
        match blocked with
        | some die =>
          let s := retrCtr t.1 p 5 1
          .done (moreLeft (putRetr s { s.retr with deferred := s.retr.deferred ++ [⟨r.id, i, die⟩] }) r.id 1)
        | none => .done (deliverIndex t.1 p d i rows)

/-- The source run of row i of a request with a key: a gathered row, or a scatter-add's source row (R183). -/
def rowSource (s : State) (r : RetrReq) (i key : Nat) : Nat × Nat :=
  let d := r.desc
  if rOp d = 0 then (rFld d 1023 960 + key * rFld d 639 608, rFld d 575 544)
  else
    let src := if rMode d = 1 && rFld d 19 19 = 1 then
        bits (edgeEntry s (rIndex d) (trailHead s (rIndex d)) (rHop d) (rFirst d + i)) 63 32 else i
    (rFld d 1023 960 + src * rFld d 639 608, scatterBytes s r.part d)

/-- A row that a request's key names and its partition may not read or write faults the instruction that issued it, and the
request goes no further (R233, R240, R332). -/
def faultReq (s : State) (r : RetrReq) (a detail : Nat) : State :=
  let s := putRetr s { s.retr with reqs := s.retr.reqs.filter (fun x => x.id != r.id) }
  tileFault s r.tile r.x (engNo (if rOp r.desc = 0 then .fetch else .store)) r.pc r.seq ⟨6, detail, a⟩

/-- Elements of a scatter-add's source row as exact FP32 values. -/
def sourceF32 (d : BitVec 1024) (bs : List Byte) : List W32 :=
  if rFld d 12 11 = 0 then wordsOf bs
  else (halvesOf bs).map (fun h => f32of (fmtDecode (if rFld d 12 11 = 1 then .bf16 else .fp16) h.toNat))

/-- The coefficient of a slot (R185); none where none applies. -/
def slotCoef (s : State) (owner : Nat) (d : BitVec 1024) (i : Nat) : Option W32 :=
  if rMode d ≠ 1 || rFld d 18 17 = 0 then none
  else if rFld d 18 17 = 1 then
    let h := trailHead s (rIndex d)
    some (f32div 0x3F800000 (f32of (.fin false (filledSlots s (rIndex d) h (rHop d) (rFirst d + i)) 0)))
  else some (BitVec.ofNat 32 (farNat s owner (rFld d 831 768 + 4 * (rFirst d + i)) 4))

/-- Adds a row of FP32 values to a target row of lines by the bank operation of `add_op` (R49, R185). -/
def addRow (s : State) (a op n : Nat) (xs : List W32) : State :=
  bankCombine s a (match op with | 1 => 1 | 2 => 3 | _ => 6)
    (bytesOfWords (xs.take (match op with | 1 => n / 4 | 2 => n / 8 | _ => n / 2)))

/-- The merge-adds of one gradient row of a table index (R191). -/
def mergeParts (s : State) (p t b : Nat) (rows : List (Nat × Nat × Nat)) (g : List W32) :
    List (Nat × Nat × List W32) :=
  let d := batchDesc s p t b
  match rows with
  | [q, r] =>
    match bits d 7 6 with
    | 0 => [(q.1, q.2.2, g.take (tElems q.2.1)), (r.1, r.2.2, g.drop (tElems q.2.1))]
    | 1 => [(q.1, q.2.2, g), (r.1, r.2.2, g)]
    | _ => [(q.1, q.2.2, List.zipWith f32mul g (rowF32 r.2.1 (rowBytesOf s p r).1)),
            (r.1, r.2.2, List.zipWith f32mul g (rowF32 q.2.1 (rowBytesOf s p q).1))]
  | l => l.map (fun x => (x.1, x.2.2, g))

/-- The source row of row i is there: a gather writes it, a scatter-add adds it to its target, a merge sends its
merge-adds (R183, R185, R191). -/
def applyRow (s : State) (r : RetrReq) (i key : Nat) (bs : List Byte) : State :=
  let p := r.part; let d := r.desc
  if rOp d = 0 then deliverRow s p d i bs
  else
    let xs := sourceF32 d bs
    if rOp d = 4 then
      match indexRows s p (rTable d) (rStep d) key with
      | none => s
      | some rows =>
        let ps := mergeParts s p (rTable d) (rStep d) rows xs
        moreLeft (putRetr s { s.retr with
          adds := s.retr.adds ++ ps.map (fun x => ⟨r.id, p, x.1, x.2.1, rStep d, x.2.2⟩) }) r.id ps.length
    else
      let xs := match slotCoef s (retrOwner r.id) d i with | some c => xs.map (fun x => f32mul x c) | none => xs
      retrCtr (addRow s (rFld d 895 832 + key * rFld d 607 576) (rOp d) (rFld d 575 544) xs) p 2 1

/-- The first address of a target run that the partition may not write, with its detail. -/
def targetFault (s : State) (p a n : Nat) : Option (Nat × Nat) :=
  [a, a + n - 1].findSome? (fun b => (accessDetail s p b true).map (fun d => (b, d)))

/-- The runs that a row with a key reads and writes beside table rows: the first of its addresses that the partition may not
access, with its detail. -/
def rowFault (s : State) (r : RetrReq) (key : Nat) (src : Nat × Nat) : Option (Nat × Nat) :=
  let d := r.desc
  (if rOp d = 0 || rOp d = 4 then none
    else targetFault s r.part (rFld d 895 832 + key * rFld d 607 576) (rFld d 575 544)).orElse fun _ =>
    readFault s r.part src.1 src.2

/-- The key names a row of the table to which a merge goes (R189). -/
def mergeKeyOk (s : State) (r : RetrReq) (key : Nat) : Bool :=
  rOp r.desc != 4 || (indexRows s r.part (rTable r.desc) (rStep r.desc) key).isSome

/-- A key that names no row: counted; a gather writes a zero row (R189). -/
def skipRow (s : State) (r : RetrReq) (i key : Nat) : State :=
  let s := badKey s r.id key
  if rOp r.desc = 0 then deliverRow s r.part r.desc i (toBytes (gatherBytes s r.part r.desc) 0) else s

/-- The counts that a SLOT gather writes with the first slot of each parent (R184). -/
def writeCounts (s : State) (d : BitVec 1024) (i : Nat) : State :=
  let h := trailHead s (rIndex d)
  let f := hopFanout h (rHop d)
  if rMode d = 1 && rOp d = 0 && rFld d 20 20 = 1 && i % f = 0 then
    writeNat s (rFld d 831 768 + 2 * (i / f)) 2 (filledSlots s (rIndex d) h (rHop d) (rFirst d + i))
  else s

/-- The homes of the table rows that a key names. -/
def tableReads (s : State) (r : RetrReq) (key : Nat) : List (Nat × Nat) :=
  ((indexRows s r.part (rTable r.desc) (rStep r.desc) key).getD []).filterMap (fun x =>
    (rowHome s r.part x.1 x.2.1 x.2.2).map (fun h => (h.1, tRowBytes x.2.1)))

/-- The runs of memory that row i with a key reads: its source row, or the homes of its table rows; a merge into a
multiplied table reads both (R191). -/
def rowReads (s : State) (r : RetrReq) (i key : Nat) : List (Nat × Nat) :=
  let d := r.desc
  if rOp d = 0 && rVia d then tableReads s r key
  else
    let x := rowSource s r i key
    (if isFar x.1 then [] else [x]) ++ (if rOp d = 4 then tableReads s r key else [])

/-- The runs of a trail that row i of a request reads for its key, count and coefficient: its node entry, or the edge entries
of the parent whose slot it is; its own coefficient or index entry where no window holds it. -/
def keyRuns (s : State) (d : BitVec 1024) (i : Nat) : List (Nat × Nat) :=
  let h := trailHead s (rIndex d)
  let near := fun (a n : Nat) => if isFar a then [] else [(a, n)]
  match rMode d with
  | 0 => if rFirst d + i < trailNodes h then [(rIndex d + bits h 607 576 + 8 * (rFirst d + i), 8)] else []
  | 1 =>
    let f := max 1 (hopFanout h (rHop d))
    (rIndex d + edgeOff h (rHop d) + 32 * ((rFirst d + i) / f * f), 32 * f) ::
      (if rFld d 18 17 = 2 then near (rFld d 831 768 + 4 * (rFirst d + i)) 4 else [])
  | _ => near (rIndex d + listWidth d * (rFirst d + i)) (listWidth d)

/-- The levels of runs that row i of a request reads: the trail's header, its key, its row. -/
def rowLevels (s : State) (r : RetrReq) (i : Nat) : List (List (Nat × Nat)) :=
  [if rMode r.desc = 2 then [] else [(rIndex r.desc, 128)], keyRuns s r.desc i,
   match rowKey s (retrOwner r.id) r.desc i with
   | some (key, true) => rowReads s r i key
   | _ => []]

/-- Row i of a request, read (R183 to R185, R189 to R191). A key whose row lies outside device memory names none in an index
list (R189); any other row that the partition may not access faults the request. -/
def takeRow (s : State) (r : RetrReq) (i : Nat) : RowStep :=
  let d := r.desc
  match rowKey s (retrOwner r.id) d i with
  | none =>
    if rOp d = 0 then .done (deliverRow (writeCounts s d i) r.part d i (toBytes (gatherBytes s r.part d) 0)) else .done s
  | some (key, false) => .done (skipRow (writeCounts s d i) r i key)
  | some (key, true) =>
    let s := writeCounts s d i
    if rOp d = 0 && rVia d then gatherTable s r i key
    else if !mergeKeyOk s r key then .done (skipRow s r i key)
    else
      let x := rowSource s r i key
      match rowFault s r key x with
      | some f => if f.2 = 0 && rMode d = 2 then .done (skipRow s r i key) else .stop (faultReq s r f.1 f.2)
      | none =>
        if isFar x.1 then
          let s := readFar s r.part (x.1 / 64 * 64) (ceilDiv (x.1 % 64 + x.2) 64 * 64) (retrOwner r.id) i
          match getReq s r.id with
          | some r => .done (putReq s { r with far := r.far ++ [i] })
          | none => .done s
        else .done (applyRow s r i key (readBytes s x.1 x.2))

/-- Row i of a request; it waits for lines that cannot be read (R249, R251). -/
def stepRow (s : State) (r : RetrReq) (i : Nat) : RowStep :=
  let s := if domsUp s then s else wakeRuns s (rowLevels s r i).flatten
  match (if memClean s then none else meetLevels s (rowLevels s r i)) with
  | some s' => .stop s'
  | none => takeRow s r i

/-- Takes up to `k` further rows of a request; a row that cannot go on yet stays its next. -/
def runRows : Nat → State → Nat → State
  | 0, s, _ => s
  | k + 1, s, id =>
    match getReq s id with
    | none => s
    | some r =>
      if rCount r.desc ≤ r.next then s
      else
        match stepRow s r r.next with
        | .done s =>
          match getReq s id with
          | some r => runRows k (putReq s { r with next := r.next + 1 }) id
          | none => s
        | .wait => s
        | .stop s => s

/-- Tags of the window reads of an index list and of coefficients. -/
def indexTag : Nat := 2 ^ 33

/-- The window reads of an accepted request's index list and coefficients (R240, R241). -/
def readIndex (s : State) (r : RetrReq) : State :=
  let d := r.desc
  let run := fun (s : State) (a n tag : Nat) =>
    if isFar a && n != 0 then readFar s r.part (a / 64 * 64) (ceilDiv (a % 64 + n) 64 * 64) (retrOwner r.id) tag else s
  let s := if rMode d = 2 then run s (rIndex d + listWidth d * rFirst d) (listWidth d * rCount d) indexTag else s
  if rOp d ≠ 0 && rMode d = 1 && rFld d 18 17 = 2 then run s (rFld d 831 768 + 4 * rFirst d) (4 * rCount d) (indexTag + 1)
  else s

/-- A touching request for the next step waits until the current step's sets are sealed and its own cleared (R193). -/
def touchGate (s : State) (r : RetrReq) : Bool :=
  let c := (getPart s r.part).step
  if rVia r.desc && rTouch r.desc && rStep r.desc == c + 1 then
    (subTables (batchDesc s r.part (rTable r.desc) (rStep r.desc)) (rTable r.desc)).all (fun t =>
      (bits (regEntry s r.part t) 255 224 == 0 ||
        (sliceDies (batchDesc s r.part t (rStep r.desc))).all (fun die =>
          (match findSet s r.part t die c with | some v => v.sealed | none => false))) &&
      !s.retr.sets.any (fun v => v.part == r.part && v.table == t && v.clearing && v.step % 2 == (c + 1) % 2))
  else true

/-- Lets a request go on: its rows, then its seal (R193). A full set has stopped its partition's requests (R197). -/
def runReq (s : State) (id : Nat) : State :=
  match getReq s id with
  | none => s
  | some r =>
    if !touchGate s r || !farReady s (retrOwner id) indexTag || !farReady s (retrOwner id) (indexTag + 1) ||
        (getPart s r.part).causes.contains 0x10806 then s
    else
      let s := runRows (rCount r.desc - r.next) s id
      match getReq s id with
      | none => s
      | some r =>
        if rCount r.desc ≤ r.next && rFld r.desc 23 23 == 1 && !r.sealDone then
          (subTables (batchDesc s r.part (rTable r.desc) (rStep r.desc)) (rTable r.desc)).foldl
            (sealTable r.part (rStep r.desc)) (putReq s { r with sealDone := true })
        else s

/-- Requests that wait are taken up again. -/
def runReqs (s : State) : State := s.retr.reqs.foldl (fun s r => runReq s r.id) s

/-- A request as it is accepted. -/
def newReq (id p t : Nat) (q : QInstr) (d : BitVec 1024) : RetrReq :=
  { id := id, part := p, tile := t, x := q.x, pc := q.pc, seq := q.seq, step := q.step, desc := d, next := 0, left := 0, far := []
    sealDone := false, badRaised := false, strayRaised := false }

/-- The fault of a GATHER or SCATTER.ADD at its start (R182, R188, R231, R233, R240, R332). -/
def requestFault (s : State) (p t : Nat) (q : QInstr) (d : BitVec 1024) : Option IFault :=
  if storeBytes < wDesc q.w + 128 then some ⟨6, 0, tileAddr t (wDesc q.w)⟩
  else
    lowestFault [
      ((namedFault s p (wClass q.w == 0x14) d).filter (fun x => decide (2 ≤ x.2))).map (fun x => ⟨6, x.2, x.1⟩),
      faultIf (!reqOk s p (wClass q.w == 0x14) d) 8 0 (tileAddr t (wDesc q.w))]

/-- The levels of runs of memory that the acceptance of a request reads beside its descriptor: the header of its trail, and
of its table the registry entry and descriptor, then those of Q and R (R182, R190). -/
def requestLevels (s : State) (p : Nat) (d : BitVec 1024) : List (List (Nat × Nat)) :=
  let desc := fun (t : Nat) => (bits (regEntry s p t) 511 448, 128)
  let subs := subTables (batchDesc s p (rTable d) (rStep d)) (rTable d)
  (if rMode d = 2 then [] else [[(rIndex d, 128)]]) ++
    (if rVia d then [[(regEntryAddr s p (rTable d), 64)], [desc (rTable d)], subs.map (fun t => (regEntryAddr s p t, 64)),
      subs.map desc] else [])

/-- The start of a GATHER or SCATTER.ADD: the request is checked, copied and accepted, or refused (R181, R182, R188,
R322). -/
def startRequest (s : State) (p t : Nat) (q : QInstr) : Started :=
  let d := BitVec.ofNat 1024 (readNat s (tileAddr t (wDesc q.w)) 128)
  if 512 ≤ (s.retr.reqs.filter (fun r => r.part == p)).length then .notReady
  else match requestFault s p t q d with
  | some f => .fault f
  | none =>
    let s := if rVia d then
        (rTable d :: subTables (batchDesc s p (rTable d) (rStep d)) (rTable d)).dedup.foldl (pinTable (rStep d) p) s
      else s
    let id := s.retr.nextId
    let s := wakeMem (takeSetting s (1 + p) 0x3405 (p + 1)) p
    let s := putRetr s { s.retr with
      nextId := id + 1
      reqs := s.retr.reqs ++ [newReq id p t q d] }
    .done (runReq (readIndex s (newReq id p t q d)) id)

/-! ## Completion (R186) -/

/-- Every row of a request is written or added. -/
def reqFinished (s : State) (r : RetrReq) : Bool :=
  decide (rCount r.desc ≤ r.next) && r.left == 0 && (r.far.isEmpty || r.far.all (fun i => farReady s (retrOwner r.id) i)) &&
    (rFld r.desc 23 23 == 0 || r.sealDone)

/-- The rows that a request read through a window are written or added. -/
def writeFarRows (s : State) (r : RetrReq) : State :=
  r.far.foldl (fun s i =>
    match rowKey s (retrOwner r.id) r.desc i with
    | some (key, true) =>
      let x := rowSource s r i key
      applyRow s r i key ((upFrom x.1 x.2).map (farByte s (retrOwner r.id)))
    | _ => s) s

/-- RETRIEVER_REQUEST_COMPLETE (R186): the k-th request, all its rows written or added and visible, signals its
done_counter; the rows read through a window are written or added first. -/
def execRetrieverRequestComplete (k : Nat) (s : State) : Host.Outcome State Fault Refusal :=
  match s.retr.reqs[k]? with
  | none => .next s
  | some r0 =>
    let s := runReq s r0.id
    let s := match getReq s r0.id with
      | some r => if reqFinished s r && !r.far.isEmpty then writeFarRows (putReq s { r with far := [] }) r else s
      | none => s
    match getReq s r0.id with
    | none => .next s
    | some r =>
      if !reqFinished s r then .next s
      else .next (onceSettled s r.part fun s =>
        let s := dropFar s (retrOwner r.id)
        let s := putRetr s { s.retr with reqs := s.retr.reqs.filter (fun x => x.id != r.id) }
        sendSignal s { ctr := rFld r.desc 543 512, isMax := false, operand := 1, unit := retrUnit s r.part
                       stream := 3, part := r.part, counted := some r.step })

/-- One outstanding row or add of a request is done. -/
def reqProgress (s : State) (id : Nat) : State :=
  match getReq s id with
  | some r => putReq s { r with left := r.left - 1 }
  | none => s

/-! ## Merge-adds and deferred rows (R195, R196) -/

/-- Payload address of merge index j. -/
def payloadAddr (e d die j : Nat) : Nat :=
  landAddr die (bits e 287 256 + 64 * bits e 255 224 + j * tElems d * (if bits e 7 7 = 1 then 8 else 4))

/-- A merge-add of a row of the step's set: stored, or added (R195). -/
def mergeInto (s : State) (a : MergeAdd) (die : Nat) (t : TouchEntry) : State :=
  let e := regEntry s a.part a.table
  let d := batchDesc s a.part a.table a.step
  let addr := payloadAddr e d die t.idx
  let pairs := bits e 7 7 == 1
  let bytes := tElems d * (if pairs then 8 else 4)
  let s := if t.written then addRow s addr (if pairs then 2 else 1) bytes a.vals
    else writeBytes s addr (if pairs then bytesOfWords (a.vals.flatMap (fun x => [x, 0])) else bytesOfWords a.vals)
  retrCtr (mapTouch s a.part a.table die a.step t.row (fun t => { t with written := true })) a.part 2 1

/-- A stray: dropped, counted, raised once per request by the unit that drops it (R195, R530). -/
def strayAdd (s : State) (a : MergeAdd) (unit : Nat) : State :=
  let s := retrCtr s a.part 4 1
  match getReq s a.req with
  | some r =>
    if r.strayRaised then s
    else raise (putReq s { r with strayRaised := true }) 0x0805 a.part unit [a.row, a.table]
  | none => s

/-- MERGE_ADD (R195): the k-th merge-add is stored or summed into a row of its step's set, or dropped as a stray; one for
the next step waits for the boundary. -/
def execMergeAdd (k : Nat) (s : State) : Host.Outcome State Fault Refusal :=
  match s.retr.adds[k]? with
  | none => .next s
  | some a =>
    if (getPart s a.part).step < a.step then .next s
    else
      let s := putRetr s { s.retr with adds := dropAt s.retr.adds k }
      let d := batchDesc s a.part a.table a.step
      let s := match sliceOf d a.row with
        | none => strayAdd s a (retrUnit s a.part)
        | some sl =>
          match findTouch s a.part a.table sl.1 a.step a.row with
          | some t => mergeInto s a sl.1 t
          | none => strayAdd s a (unitId (tagOf s (unitNo 5 sl.1)) 5 0 sl.1)
      .next (reqProgress s a.req)

/-- DEFERRED_ROW_DELIVERED (R196): the k-th deferred lookup is delivered once no row of it waits for its update. -/
def execDeferredRowDelivered (k : Nat) (s : State) : Host.Outcome State Fault Refusal :=
  match s.retr.deferred[k]? with
  | none => .next s
  | some x =>
    match getReq s x.req with
    | none => .next (putRetr s { s.retr with deferred := dropAt s.retr.deferred k })
    | some r =>
      match rowKey s (retrOwner r.id) r.desc x.pos with
      | some (key, true) =>
        match indexRows s r.part (rTable r.desc) (rStep r.desc) key with
        | none => .next s
        | some rows =>
          if (blockedOn s r.part (rStep r.desc - 1) rows).isSome then .next s
          else .next (onceLevels s (rowLevels s r x.pos) (fun s =>
            let s := putRetr s { s.retr with deferred := dropAt s.retr.deferred k }
            runReq (reqProgress (deliverIndex s r.part r.desc x.pos rows) x.req) x.req))
      | _ => .next s

/-! ## Migrations (R201, R202) -/

/-- The two places of a migrating row, its old home first; none when no slice holds it. -/
def migrationPlaces (s : State) (h : HotEntry) : Option (Nat × Nat) :=
  let e := regEntry s h.part h.table
  let d := readNat s (bits e 511 448) 128
  (sliceOf d h.row).map (fun sl =>
    let slot := hotSlot e d h.die h.slot
    if h.st = 1 then (sl.2, slot) else (slot, sl.2))

/-- Bytes of a row of a migrating entry's table. -/
def migrationBytes (s : State) (h : HotEntry) : Nat :=
  tRowBytes (readNat s (bits (regEntry s h.part h.table) 511 448) 128)

/-- A migrating entry's row is at home in its new place (R201). -/
def switchRow (s : State) (h : HotEntry) : State :=
  match migrationPlaces s h with
  | none => s
  | some x =>
    let s := writeBytes s x.2 (match h.held with | some v => v | none => readBytes s x.1 (migrationBytes s h))
    let ep := mget 0 s.retr.epochs h.die + 1
    let s := putHot (putRetr s { s.retr with epochs := mset 0 s.retr.epochs h.die ep })
      (if h.st = 1 then s.retr.hot.map (fun y => if y = h then { h with st := 2, epoch := ep, held := none } else y)
       else s.retr.hot.filter (· != h))
    let s := if h.held.isSome then
        mapTouch s h.part h.table h.die (getPart s h.part).step h.row (fun t => { t with updated := true })
      else s
    retrCtr s h.part (if h.st = 1 then 7 else 8) 1

/-- MIGRATION_SWITCH (R201): the copy of the k-th migrating row completes and its new home takes effect. The copy reads its
row as any read does (R202, R251) and is not complete while a line of the new home cannot be written. -/
def execMigrationSwitch (k : Nat) (s : State) : Host.Outcome State Fault Refusal :=
  match (s.retr.hot.filter (fun h => h.st != 2))[k]? with
  | none => .next s
  | some h =>
    let places := (migrationPlaces s h).toList
    let n := migrationBytes s h
    .next (onceLevels s [[(bits (regEntry s h.part h.table) 511 448, 128)], places.map (fun x => (x.1, n))] fun s =>
      let s := wakeRuns s (places.map (fun x => (x.2, n)))
      if places.any (fun x => (linesOf x.2 n).any (fun l => lineHeld s l true)) then s else switchRow s h)

/-- The clearing of a directory is finished (R197): MERGE_DIRECTORY_CLEARED. -/
def execMergeDirectoryCleared (p : Fin 16) (t : Fin 256) (die : Fin 4) (s : State) : Host.Outcome State Fault Refusal :=
  let gone := fun (v : TouchSet) => v.part == p.val && v.table == t.val && v.die == die.val && v.clearing
  let s' := (s.retr.sets.filter gone).foldl (fun s v => clearDir s v.part v.table v.die v.step) s
  .next (runReqs (putRetr s' { s'.retr with sets := s'.retr.sets.filter (fun v => !gone v) }))

/-! ## Versions (R203 to R206) -/

/-- A partition's update table as its job read it. -/
def updTable (s : State) (p : Nat) : Option UpdTable := s.upd.tables.find? (fun t => t.part == p)

/-- The tables that embedding units of the running job name (R138, R203). -/
def trainedTables (s : State) (p : Nat) : List Nat :=
  match updTable s p with
  | none => []
  | some u =>
    u.groups.flatMap (fun a =>
      let gd := readNat s a 128
      (upFrom 0 (bits gd 31 16)).filterMap (fun k =>
        let ue := readNat s (bits gd 255 192 + 64 * k) 64
        if bits ue 5 4 = 1 then some (bits ue 263 256) else none))

/-- A table number at the partition's publish doorbell: the table's replacement is staged, or refused (R203). -/
def stagePublish (p n : Nat) (s : State) : State :=
  let e := regEntry s p (n % 256)
  if 256 ≤ n || bits e 255 224 ≠ 0 || bits e 191 160 ≠ 0 || (jobRuns s p && (trainedTables s p).contains n) then
    raise s 0x0807 p 0 [n]
  else putRetr s { s.retr with
    publish := (s.retr.publish.filter (fun x => !(x.1 == p && x.2 == n))) ++ [(p, n)] }

/-- A table number reaches the partition's publish doorbell, which reads the table's registry entry and the job's update
units (R203). -/
def publishStore (p n : Nat) (s : State) : State :=
  let groups := ((updTable s p).map UpdTable.groups).getD []
  atDoorbell s 3 p n
    [(regEntryAddr s p (n % 256), 64) :: groups.map (fun a => (a, 128)),
     groups.map (fun a => (bits (readNat s a 128) 255 192, 64 * bits (readNat s a 128) 31 16))]
    (stagePublish p n)

/-- PUBLISH_DOORBELL (R203, R288): a work core stores a table number to the publish doorbell of partition p. -/
def execPublishDoorbell (door : Door) (t : BitVec 32) (s : State) : Host.Outcome State Fault Refusal :=
  .next (byCore s door.core.val door.part.val (publishStore door.part.val t.toNat))

/-- Older versions of a table that a batch still pins. -/
def olderPinned (s : State) (p t cur : Nat) : Nat :=
  ((s.retr.pins.filter (fun x => x.part == p && x.table == t && x.addr != cur)).map TablePin.addr).dedup.length

/-- A staged publish is taken at a boundary (R204), unless two older versions are pinned. -/
def takePublish (p : Nat) (s : State) (t : Nat) : State :=
  let e := readNat s (regEntryAddr s p t) 64
  let cur := bits e 511 448
  if 2 ≤ olderPinned s p t cur then s
  else
    let s := putRetr s { s.retr with
      regs := (s.retr.regs.filter (fun r => !(r.part == p && r.table == t))) ++ [⟨p, t, BitVec.ofNat 512 e⟩] }
    let s := putReg (putReg (putReg (putReg s p t 511 448 (bits e 447 384)) p t 447 384 0) p t 319 288
      ((bits e 319 288 + 1) % 2 ^ 32)) p t 159 144 0
    let s := retrCtr s p 0x0B 1
    putRetr s { s.retr with
      publish := s.retr.publish.filter (fun x => !(x.1 == p && x.2 == t)), old := s.retr.old ++ [(p, t, cur)] }

/-- VERSION_FREED (R206): the k-th descriptor that is no longer current and that no batch pins is written to `freed`. -/
def execVersionFreed (k : Nat) (s : State) : Host.Outcome State Fault Refusal :=
  match s.retr.old[k]? with
  | none => .next s
  | some (p, t, a) =>
    if s.retr.pins.any (fun x => x.part == p && x.table == t && x.addr == a) then .next s
    else
      let s := putReg s p t 383 320 a
      .next (raise (putRetr s { s.retr with old := dropAt s.retr.old k }) 0x0808 p 0 [t, a])

/-- Pins of a batch are released; `pins` counts those of the current descriptor (R192, R205). -/
def releasePins (s : State) (p : Nat) (gone : TablePin → Bool) : State :=
  let l := s.retr.pins.filter (fun x => x.part == p && gone x)
  let s := putRetr s { s.retr with pins := s.retr.pins.filter (fun x => !(x.part == p && gone x)) }
  l.foldl (fun s x =>
    let e := regEntry s p x.table
    if bits e 511 448 = x.addr then putReg s p x.table 159 144 (bits e 159 144 - 1) else s) s

/-! ## The boundary and the restart -/

/-- The registry entries that the publishes due at a partition's boundary read (R204). -/
def publishRuns (s : State) (p : Nat) : List (Nat × Nat) :=
  (s.retr.publish.filter (fun x => x.1 == p)).map (fun x => (regEntryAddr s p x.2, 64))

/-- The boundary of step b at Retriever (R197, R204, R205): its sets are emptied, its pins released, publishes taken. -/
def retrBoundary (s : State) (p b : Nat) : State :=
  let s := putRetr s { s.retr with sets := s.retr.sets.map (fun v =>
    if v.part = p ∧ v.step = b ∧ v.clearing = false then { v with clearing := true, entries := [], sealed := false }
    else v) }
  let s := releasePins s p (fun x => x.step == b)
  ((s.retr.publish.filter (fun x => x.1 == p)).map Prod.snd).foldl (takePublish p) s

/-- Requests, deferrals and merge-adds of a partition are abandoned, their numbers counted (R198). -/
def retrAbandon (s : State) (p : Nat) : State :=
  let mine := s.retr.reqs.filter (fun r => r.part == p)
  let ids := mine.map RetrReq.id
  let s := retrCtr s p 0x0A mine.length
  let s := putRetr s { s.retr with
    reqs := s.retr.reqs.filter (fun r => r.part != p)
    deferred := s.retr.deferred.filter (fun x => !ids.contains x.req), adds := s.retr.adds.filter (fun a => a.part != p) }
  ids.foldl (fun s id =>
    dropFar (putLft s { s.lft with reads := s.lft.reads.filter (fun r => r.owner != retrOwner id) }) (retrOwner id)) s

/-- A restart of step b at the merge units and the hot directories (R198, R202): set b stays sealed and is cleared of
its writes, set b + 1 is emptied with its pins, migrations under way go back. -/
def retrRestart (s : State) (p b : Nat) : State :=
  let mine := fun (k : Nat) (v : TouchSet) => v.part == p && v.step == k && !v.clearing
  let s := (s.retr.sets.filter (mine (b + 1))).foldl (fun s v => clearDir s v.part v.table v.die v.step) s
  let s := putRetr s { s.retr with sets := s.retr.sets.filter (fun v => !mine (b + 1) v) }
  let s := (s.retr.sets.filter (mine b)).foldl (fun s v =>
    putSet s { v with entries := v.entries.map (fun e => { e with written := false, updated := false }) }) s
  let s := putHot s ((s.retr.hot.filter (fun h => !(h.part == p && h.st == 1))).map (fun h =>
    if h.part = p ∧ h.st = 3 then { h with st := 2, held := none } else h))
  releasePins s p (fun x => x.step == b + 1)

/-- Some row write of a partition is held for a migration (R201). -/
def holdsRows (s : State) (p : Nat) : Bool := s.retr.hot.any (fun h => h.part == p && h.held.isSome)

/-- The runs that bring a stopped job's hot rows home reads: their tables' descriptors, their slots. -/
def writeBackLevels (s : State) (p : Nat) : List (List (Nat × Nat)) :=
  let mine := s.retr.hot.filter (fun h => h.part == p && h.st != 1)
  let desc := fun (h : HotEntry) => bits (regEntry s p h.table) 511 448
  [mine.map (fun h => (desc h, 128)),
   mine.map (fun h =>
     let d := readNat s (desc h) 128
     (hotSlot (regEntry s p h.table) d h.die h.slot, tRowBytes d))]

/-- A stopped job's hot rows go home: each is written to T1 and its entry removed (log 76, DESIGN CHOICE). -/
def retrWriteBack (s : State) (p : Nat) : State :=
  let mine := s.retr.hot.filter (fun h => h.part == p)
  let s := (mine.filter (fun h => h.st != 1)).foldl (fun s h =>
    let e := regEntry s p h.table
    let d := readNat s (bits e 511 448) 128
    match sliceOf d h.row with
    | some x => writeBytes s x.2 (readBytes s (hotSlot e d h.die h.slot) (tRowBytes d))
    | none => s) s
  putHot s (s.retr.hot.filter (fun h => h.part != p))

/-- A partition's tables are forgotten: the registry is read again by a new job. -/
def retrForget (s : State) (p : Nat) : State :=
  putRetr s { s.retr with
    sets := s.retr.sets.filter (fun v => v.part != p), hot := s.retr.hot.filter (fun h => h.part != p)
    pins := s.retr.pins.filter (fun x => x.part != p), old := s.retr.old.filter (fun x => x.1 != p)
    regs := s.retr.regs.filter (fun r => r.part != p), publish := s.retr.publish.filter (fun x => x.1 != p) }

/-! ## BANK_SIDE_OP (R48 to R50) -/

/-- An operation with an undefined code faults its requester: the stream of the tile engine, the stream that issued the
Retriever request, or the packet of a flow, which is refused with code 4 (R48, R373; log 84, DESIGN CHOICE). -/
def faultRequester (s : State) (req : BankReq) : State :=
  match req with
  | .tile t x e =>
    let r := requesterOf (getTile s t.val) x e
    tileFault s t.val x (engNo e) r.1 r.2 ⟨1, 0, 0⟩
  | .retriever id =>
    match getReq s id with
    | some r =>
      tileFault (putRetr s { s.retr with reqs := s.retr.reqs.filter (fun x => x.id != id) }) r.tile r.x 0 r.pc r.seq
        ⟨1, 0, 0⟩
    | none => s
  | .flow n p seq =>
    let h := { headFor s n.val p.val 1 with dstPart := p.val, seq := seq.toNat }
    let s := settleSeq (seenSeq s n.val p.val seq.toNat) n.val p.val seq.toNat
    raiseRefused (sendNak s n.val h seq.toNat 4) p.val 4 n.val 0 0

/-- BANK_SIDE_OP (R48 to R50): the operation is applied to one line, whole, in the order of arrival; an undefined code
leaves the line and faults the requester. -/
def execBankSideOp (t : Fin 64) (line : Fin 393216) (op : BankOp) (operand : BitVec 1024) (req : BankReq) (s : State) :
    Host.Outcome State Fault Refusal :=
  match bankRequest op (toBytes 128 operand.toNat) with
  | none => .next (faultRequester s req)
  | some x => .next (bankWrite { s with bankReply := 3 } (tileAddr t.val (64 * line.val)) x.1 x.2)

end Sys2Proof.Machine
end

