-- ==== Sys2Proof/Machine/Update.lean ====
section
/-! DEFINITION. Machine/Update.lean: the Update engines: groups, curves, the recurrence, the two passes, norms, the undo
log (07). -/

namespace Sys2Proof.Machine

/-- Replaces the Update engines' record. -/
def putUpd (s : State) (v : Upd) : State := { s with upd := v }

/-- A partition's update counter (R160). -/
def updCtr (s : State) (p sub n : Nat) : State := addCtr s (0x4300 + p) sub n

/-- Identity of a die's Update engine. -/
def updUnit (s : State) (d : Nat) : Nat := unitId (tagOf s (unitNo 4 d)) 4 0 d

/-! ## Structures (R136 to R140, R143) -/

/-- The group descriptor at an address. -/
def groupDesc (s : State) (a : Nat) : Nat := readNat s a 128

/-- The coefficient record of a group. -/
def groupCoef (s : State) (g : Nat) : Nat := readNat s (bits g 191 128) 64

/-- Unit entry i of a group. -/
def unitEntry (s : State) (g i : Nat) : Nat := readNat s (bits g 255 192 + 64 * i) 64

/-- The unit entries of a group with their positions. -/
def unitEntries (s : State) (g : Nat) : List (Nat × Nat) := (upFrom 0 (bits g 31 16)).map (fun i => (i, unitEntry s g i))

/-- Die of a unit entry. -/
def ueDie (u : Nat) : Nat := bits u 7 6

/-- The entry is of an embedding unit. -/
def ueEmb (u : Nat) : Bool := bits u 5 4 == 1

/-- Entries of a group on a die, in order. -/
def dieEntries (s : State) (g d : Nat) : List (Nat × Nat) := (unitEntries s g).filter (fun e => ueDie e.2 == d)

/-- Dies that hold a slice of a group. -/
def groupDies (s : State) (g : Nat) : List Nat := (upFrom 0 4).filter (fun d => !(dieEntries s g d).isEmpty)

/-- Unit index of entry i: the units that begin before it, less its own (R138). -/
def unitIndex (s : State) (g i : Nat) : Nat :=
  (((unitEntries s g).take (i + 1)).filter (fun e => bits e.2 10 10 == 1)).length - 1

/-- Entries of unit k. -/
def unitSlices (s : State) (g k : Nat) : List (Nat × Nat) := (unitEntries s g).filter (fun e => unitIndex s g e.1 == k)

/-- The levels of runs that the structures of a group take: descriptor; coefficients and unit entries; curves (R137, R138,
R140, R143). -/
def groupLevels (s : State) (ga : Nat) : List (List (Nat × Nat)) :=
  let g := groupDesc s ga
  let curves := [bits g 319 256, bits g 383 320, bits g 447 384, bits g 511 448].filter (· != 0)
  [[(ga, 128)], [(bits g 191 128, 64), (bits g 255 192, 64 * bits g 31 16)], curves.map (fun a => (a, 8)),
   curves.map (fun a => (a, 8 + 8 * bits (readNat s a 8) 16 8))]

/-- FP32 field of a number. -/
def f32fld (n hi lo : Nat) : W32 := BitVec.ofNat 32 (bits n hi lo)

/-! ## Curves (R143, R144) -/

/-- A non-negative integer as FP32. -/
def natF32 (n : Nat) : W32 := f32of (.fin false n 0)

/-- Breakpoint i of a curve: step and value. -/
def breakpoint (s : State) (a i : Nat) : Nat × W32 :=
  let b := readNat s (a + 8 + 8 * i) 8
  (bits b 31 0, f32fld b 63 32)

/-- The value of a curve at x; the differences of steps are exact before they are rounded to FP32 (log 92, DESIGN
CHOICE). -/
def curveValue (pts : List (Nat × W32)) (x : Nat) : W32 :=
  match pts with
  | [] => 0
  | [p] => p.2
  | p :: q :: r =>
    if x ≤ p.1 then p.2
    else if x < q.1 then
      f32add p.2 (f32div (f32mul (f32sub q.2 p.2) (natF32 (x - p.1))) (natF32 (q.1 - p.1)))
    else curveValue (q :: r) x

/-- The curve at an address, evaluated at x; `dflt` for address 0. -/
def curveAt (s : State) (a x : Nat) (dflt : W32) : W32 :=
  if a = 0 then dflt
  else curveValue ((upFrom 0 (bits (readNat s a 8) 16 8)).map (breakpoint s a)) x

/-- The curve values of an entry in pass 1 (R144): x is the step, or the update count after this update. -/
def evalCurves (s : State) (p ga entry step t : Nat) : CurveVals :=
  let g := groupDesc s ga
  let co := groupCoef s g
  let x := if bits g 11 11 = 1 then t else step
  { part := p, group := ga, entry := entry, step := step
    eta := curveAt s (bits g 319 256) x (f32fld g 95 64)
    lam := curveAt s (bits g 383 320) x (f32fld co 319 288)
    a1 := curveAt s (bits g 447 384) x (f32fld co 95 64)
    b1 := curveAt s (bits g 511 448) x (f32fld co 159 128) }

/-- The curve values that pass 1 left for an entry; evaluated now if there are none. -/
def curvesOf (s : State) (p ga entry step t : Nat) : CurveVals :=
  (s.upd.curves.find? (fun c => c.part == p && c.group == ga && c.entry == entry && c.step == step)).getD
    (evalCurves s p ga entry step t)

/-! ## Checks of a command (R141, R142, R150) -/

/-- An address in GDDR7 on a die. -/
def onDie (s : State) (p d a : Nat) : Bool :=
  inGroups s p a && (match placeOf a with | .t1 g => g / 5 == d | _ => false)

/-- A curve keeps its rules; none is named by 0. -/
def curveOk (s : State) (p a : Nat) : Bool :=
  a == 0 ||
    (let h := readNat s a 8
     let n := bits h 16 8
     let pts := (upFrom 0 n).map (breakpoint s a)
     a % 64 == 0 && inGroups s p a && bits h 3 0 == 1 && bits h 7 4 == 0 && bits h 63 17 == 0 && decide (1 ≤ n) &&
       decide (n ≤ 256) && (pts.zip (pts.drop 1)).all (fun x => decide (x.1.1 < x.2.1)))

/-- The coefficient record keeps its rules. -/
def coefOk (co : Nat) : Bool :=
  let th := f32val (f32fld co 351 320)
  bits co 3 0 == 1 && bits co 511 352 == 0 && bits co 63 16 == 0 && decide (bits co 15 12 ≤ 2) && bits co 9 8 != 3 &&
    decide (bits co 7 6 ≤ 1) && decide (bits co 5 4 ≤ 1) && !(bits co 15 12 == 0 && bits co 11 11 == 0) &&
    (bits co 5 4 == 0 || fpLt (.fin false 0 0) th)

/-- A unit entry keeps its rules. -/
def entryRuleOk (s : State) (p co u : Nat) : Bool :=
  let d := ueDie u
  let fm := bits u 15 12
  bits u 3 0 == 1 && bits u 8 8 == 0 && decide (bits u 5 4 ≤ 1) && onDie s p d (bits u 447 384) &&
    (if ueEmb u then
      (fm == 1 || fm == 2 || fm == 4) && bits u 9 9 == 0 && decide (16 ≤ bits u 31 16) && decide (bits u 31 16 ≤ 4096) &&
        bits co 9 8 != 1 && onDie s p d (bits u 191 128) && onDie s p d (bits u 255 192) && onDie s p d (bits u 383 320) &&
        bits u 319 266 == 0
     else
      decide (fm ≤ 3) && bits u 511 448 == 0 && bits u 383 320 == 0 && bits u 31 16 == 0 && bits u 11 11 == 0 &&
        bits u 191 128 % 64 == 0 && bits u 255 192 % 64 == 0 && onDie s p d (bits u 191 128) &&
        onDie s p d (bits u 255 192) && onDie s p d (bits u 319 256))

/-- Entries of one unit follow one another on rising dies with one kind (R138). -/
def entriesOrdered : List Nat → Bool
  | [] => true
  | [_] => true
  | a :: b :: r =>
    (bits b 10 10 == 1 || (bits a 5 4 == bits b 5 4 && decide (ueDie a < ueDie b))) && entriesOrdered (b :: r)

/-- The group descriptor and the structures that it names keep their rules (R150). -/
def groupOk (s : State) (p ga : Nat) : Bool :=
  let g := groupDesc s ga
  let co := groupCoef s g
  let us := (unitEntries s g).map Prod.snd
  ga % 64 == 0 && inGroups s p ga && bits g 3 0 == 1 && bits g 5 5 == 0 && bits g 15 12 == 0 && bits g 63 48 == 0 &&
    bits g 1023 544 == 0 && counterOk (bits g 543 512) && decide (bits g 47 32 ≤ 4095) && decide (1 ≤ bits g 31 16) && bits g 127 96 % 64 == 0 &&
    inShare (getPart s p) (bits g 127 96) && bits g 191 128 % 64 == 0 && inGroups s p (bits g 191 128) &&
    inGroups s p (bits g 255 192) && coefOk co && curveOk s p (bits g 319 256) && curveOk s p (bits g 383 320) &&
    curveOk s p (bits g 447 384) && curveOk s p (bits g 511 448) && us.all (entryRuleOk s p co) &&
    (match us with | u :: _ => bits u 10 10 == 1 | [] => false) && entriesOrdered us

/-! ## The recurrence (R141) -/

/-- The coefficients of one slice in one step. -/
structure RecurArgs where
  coupled : Bool
  decoupled : Bool
  sel : Nat
  eta : W32
  lam : W32
  a1 : W32
  a2 : W32
  b1 : W32
  b2 : W32
  q1 : W32
  q2 : W32
  eps : W32
  deriving DecidableEq, Repr

/-- FP64 product. -/
def f64mul (a b : Nat) : Nat := f64of (fpMul (f64val a) (f64val b))

/-- c^t in FP64 by squaring, from the low bit of t up (log 91, DESIGN CHOICE); `fuel` bounds the bits of t. -/
def f64pow : Nat → Nat → Nat → Nat → Nat
  | 0, r, _, _ => r
  | n + 1, r, b, t =>
    if t = 0 then r else f64pow n (if t % 2 = 1 then f64mul r b else r) (f64mul b b) (t / 2)

/-- c^t rounded to FP32. -/
def powF32 (c : W32) (t : Nat) : W32 := f32of (f64val (f64pow 40 0x3FF0000000000000 (f64of (f32val c)) t))

/-- The coefficients for a slice at update count `t`. -/
def recurArgs (g co : Nat) (c : CurveVals) (t : Nat) : RecurArgs :=
  let one : W32 := 0x3F800000
  { coupled := bits co 7 6 == 1, decoupled := bits co 7 6 == 0, sel := bits co 15 12, eta := c.eta, lam := c.lam
    a1 := c.a1, a2 := if bits g 9 9 = 1 then f32sub one c.a1 else f32fld co 127 96
    b1 := c.b1, b2 := if bits g 10 10 = 1 then f32sub one c.b1 else f32fld co 191 160
    q1 := f32sub one (powF32 (f32fld co 223 192) t), q2 := f32sub one (powF32 (f32fld co 255 224) t)
    eps := f32fld co 287 256 }

/-- The gradient after the coupled decay. -/
def decayed (a : RecurArgs) (w g : W32) : W32 := if a.coupled then f32add g (f32mul a.lam w) else g

/-- sign(x) (R141). -/
def signF32 (x : W32) : W32 :=
  match f32val x with
  | .nan => 0x7FC00000
  | v => if fpIsZero v then 0 else if fpIsNeg v then 0xBF800000 else 0x3F800000

/-- One element: m', v' and u from w's high plane, g, m, v; `g2` stands for g * g where a row keeps one v. -/
def recur (a : RecurArgs) (w g m v : W32) (g2 : Option W32) : W32 × W32 × W32 :=
  let g := decayed a w g
  let m' := f32add (f32mul a.a1 m) (f32mul a.a2 g)
  let v' := f32add (f32mul a.b1 v) (match g2 with | some x => f32mul a.b2 x | none => f32mul (f32mul a.b2 g) g)
  let mh := f32div m' a.q1
  let r := match a.sel with
    | 0 => f32div mh (f32add (f32sqrt (f32div v' a.q2)) a.eps)
    | 1 => signF32 mh
    | _ => mh
  (m', v', f32add r (if a.decoupled then f32mul a.lam w else 0))

/-- The decrement d of an element (R141). -/
def stepBy (a : RecurArgs) (rho sc u : W32) : W32 := f32mul (f32mul (f32mul a.eta rho) sc) u

/-! ## Sums of squares (R149) -/

/-- An exact square. -/
def sqOf (x : W32) : Fp := fpMul (f32val x) (f32val x)

/-- The largest exponent among nonzero finite values. -/
def refMag (l : List Fp) : Option Int :=
  l.foldl (fun r a =>
    match a with
    | .fin _ m e => if m = 0 then r else
        match r with
        | none => some (magLog m e)
        | some y => some (max y (magLog m e))
    | _ => r) none

/-- The compensated pair of a list's sum of squares. -/
def sumSquares (xs : List W32) : Pair :=
  (chunks128 (xs.length / 128 + 1) xs).foldl (fun p c =>
    let es := c.map sqOf
    foldPair p (alignedSum ((refMag es).getD 0) es)) (0, 0)

/-! ## Step records (R145) -/

/-- Address of the record that step s reads. -/
def recordAddr (u step : Nat) : Nat := bits u 447 384 + 64 * (step % 2)

/-- Writes the record that the next step reads: flags 1 frozen, 2 skipped. -/
def writeRecord (s : State) (u step t flags : Nat) (rho : W32) : State :=
  writeNat s (recordAddr u (step + 1)) 64
    (1 + flags * 16 + (t % 2 ^ 32) * 2 ^ 32 + (step + 1) * 2 ^ 64 + rho.toNat * 2 ^ 128)

/-! ## Dense slices (R139, R145, R152) -/

/-- Rounds an offset up to 64 bytes. -/
def up64 (n : Nat) : Nat := ceilDiv n 64 * 64

/-- Offsets of a block's planes: high, extension, m, v, compute copy. -/
def planes (co n : Nat) : Nat × Nat × Nat × Nat × Nat :=
  let ext := up64 (4 * n)
  let m := ext + up64 (2 * n)
  let v := m + (if bits co 10 10 = 1 then up64 (4 * n) else 0)
  (0, ext, m, v, v + (if bits co 11 11 = 1 then up64 (4 * n) else 0))

/-- The block that a record's count reads (R145), or writes. -/
def blockOf (u t : Nat) (write : Bool) : Nat :=
  if (t % 2 = 0) = (write = false) then bits u 191 128 else bits u 255 192

/-- FP32 words in memory. -/
def memWords (s : State) (a n : Nat) : List W32 := wordsOf (readBytes s a (4 * n))

/-- FP32 words, or zeros for an absent plane. -/
def planeOr (s : State) (present : Bool) (a n : Nat) : List W32 :=
  if present then memWords s a n else List.replicate n 0

/-- The reduced gradient of a dense slice. -/
def denseGrad (s : State) (u : Nat) : List W32 :=
  (halvesOf (readBytes s (bits u 319 256) (2 * bits u 127 64))).map (fun h =>
    f32of (fmtDecode (if bits u 9 9 = 1 then .fp16 else .bf16) h.toNat))

/-- A dense slice's operands: w (high, extension), g, m, v. -/
def denseLoad (s : State) (co u t : Nat) : List (W32 × W16 × W32 × W32 × W32) :=
  let n := bits u 127 64
  let b := blockOf u t false
  let pl := planes co n
  let his := memWords s b n
  let exts := halvesOf (readBytes s (b + pl.2.1) (2 * n))
  let ms := planeOr s (bits co 10 10 == 1) (b + pl.2.2.1) n
  let vs := planeOr s (bits co 11 11 == 1) (b + pl.2.2.2.1) n
  his.zip (exts.zip ((denseGrad s u).zip (ms.zip vs)))

/-- The compute copy's bytes (R130, R152). -/
def computeCopy (fm : Nat) (ws : List Fp) : List Byte :=
  match fm with
  | 1 => ws.flatMap (fun x => toBytes 2 (convert .bf16 .nearestEven x).w)
  | 2 => ws.flatMap (fun x => toBytes 2 (convert .fp16 .nearestEven x).w)
  | 3 =>
    let blocks := (upFrom 0 (ceilDiv ws.length 32)).map (fun b => (ws.drop (32 * b)).take 32)
    let coded := blocks.map (fun b =>
      if b.all fpIsFin then
        let e := blockExp .e4m3 (maxMag b)
        (b.map (fun x => convertBlock .e4m3 .nearestEven e x), toField 8 (e + 127))
      else (b.map (fun _ => 0), 0xFF))
    coded.flatMap (fun c => c.1.flatMap (toBytes 1)) ++ coded.flatMap (fun c => toBytes 1 c.2)
  | _ => []

/-! ## Embedding slices (R155, R156) -/

/-- Table number of an embedding entry's set handle. -/
def embTable (u : Nat) : Nat := bits u 263 256

/-- Bytes of one v of a row. -/
def rowVBytes (co u : Nat) : Nat := if bits co 11 11 = 0 then 0 else if bits u 11 11 = 1 then 4 else 4 * bits u 31 16

/-- Bytes of a row's state. -/
def rowStBytes (co u : Nat) : Nat := (if bits co 10 10 = 1 then 4 * bits u 31 16 else 0) + rowVBytes co u

/-- Bytes of an undo entry. -/
def undoSize (co u : Nat) : Nat := up64 (16 + bits u 31 16 * (if bits u 15 12 = 4 then 4 else 2) + rowStBytes co u)

/-- The table descriptor that an embedding unit's step uses. -/
def embDesc (s : State) (p u step : Nat) : Nat := batchDesc s p (embTable u) step

/-- Die of an embedding entry's set handle (R193). -/
def embDie (u : Nat) : Nat := bits u 265 264

/-- First row of an embedding slice, by the table's descriptor. -/
def embFirst (s : State) (p u step : Nat) : Nat := sliceFirst (embDesc s p u step) (embDie u)

/-- Address of a row's state: m, then v, without padding between them or between rows (log 96, DESIGN CHOICE). -/
def rowStAddr (s : State) (p co u step row : Nat) : Nat :=
  bits u 255 192 + (row - embFirst s p u step) * rowStBytes co u

/-- Address of a row in T1, by the entry's row base. -/
def embBase (s : State) (p u step row : Nat) : Nat :=
  bits u 191 128 + (row - embFirst s p u step) * bits (embDesc s p u step) 383 352

/-- A row's home: the hot slot of a HOT or DEMOTING row, else T1 (R156, R201). -/
def embHome (s : State) (p u step row : Nat) : Nat :=
  match hotOf s p (embTable u) (embDie u) row with
  | some h =>
    if h.st = 1 then embBase s p u step row
    else hotSlot (regEntry s p (embTable u)) (embDesc s p u step) (embDie u) h.slot
  | none => embBase s p u step row

/-- Bytes of a row in the entry's format. -/
def embBytes (u : Nat) : Nat := bits u 31 16 * (if bits u 15 12 = 4 then 4 else 2)

/-- The entry's row format, in the place where a table descriptor holds its own (R138, R192). -/
def embFmt (u : Nat) : Nat := bits u 15 12 * 2 ^ 8

/-- The touched rows of an embedding slice in merge-index order. -/
def touchedRows (s : State) (p u step : Nat) : List TouchEntry :=
  match findSet s p (embTable u) (embDie u) step with
  | none => []
  | some v => sortBy (fun (a b : TouchEntry) => decide (a.idx < b.idx)) (v.entries.filter (fun e =>
      decide (embFirst s p u step ≤ e.row) && decide (e.row < embFirst s p u step + bits u 127 64)))

/-- The set of an embedding slice is sealed (R197). -/
def setSealed (s : State) (p u step : Nat) : Bool :=
  match findSet s p (embTable u) (embDie u) step with
  | some v => v.sealed
  | none => false

/-- A row's merged gradient: +0 when nothing was merged (R195, R155). -/
def mergedGrad (s : State) (p u step : Nat) (e : TouchEntry) : List W32 :=
  let n := bits u 31 16
  if !e.written then List.replicate n 0
  else
    let en := regEntry s p (embTable u)
    let a := payloadAddr en (embDesc s p u step) (embDie u) e.idx
    if bits en 7 7 = 1 then (upFrom 0 n).map (fun i =>
      f32add (BitVec.ofNat 32 (readNat s (a + 8 * i) 4)) (BitVec.ofNat 32 (readNat s (a + 8 * i + 4) 4)))
    else memWords s a n

/-- A row's value as FP32. -/
def embRow (s : State) (p u step row : Nat) : List W32 :=
  rowF32 (embFmt u) (readBytes s (embHome s p u step row) (embBytes u))

/-- The runs of memory that a slice's passes read beside the structures of its group: its record, and a dense slice's
planes and gradient or an embedding slice's rows, row states and merged gradients. -/
def sliceRuns (s : State) (p co u step : Nat) : List (Nat × Nat) :=
  let rec' := (recordAddr u step, 64)
  if ueEmb u then
    rec' :: (touchedRows s p u step).flatMap (fun e =>
      [(embHome s p u step e.row, embBytes u), (rowStAddr s p co u step e.row, rowStBytes co u),
       (payloadAddr (regEntry s p (embTable u)) (embDesc s p u step) (embDie u) e.idx,
        if e.written then (if bits (regEntry s p (embTable u)) 7 7 = 1 then 8 else 4) * bits u 31 16 else 0)])
  else
    let t := bits (readNat s (recordAddr u step) 64) 63 32
    let n := bits u 127 64
    [rec', (blockOf u t false, (planes co n).2.2.2.2), (bits u 319 256, 2 * n)]

/-! ## The queues (R148) -/

/-- Head of a pass queue of a die. -/
def queueHead (s : State) (d pass : Nat) : Option UpdCmd :=
  s.upd.cmds.find? (fun c => c.die == d && c.pass == pass)

/-- Replaces a command. -/
def putCmd (s : State) (c : UpdCmd) : State :=
  putUpd s { s.upd with cmds := s.upd.cmds.map (fun x => if x.id = c.id ∧ x.die = c.die then c else x) }

/-- Takes a command off its queue. -/
def dropCmd (s : State) (c : UpdCmd) : State :=
  putUpd s { s.upd with cmds := s.upd.cmds.filter (fun x => !(x.id == c.id && x.die == c.die)) }

/-- A field of the update table's header; 0 without a table. -/
def updHdr (s : State) (p hi lo : Nat) : Nat := match updTable s p with | some t => bits t.header hi lo | none => 0

/-- The head of a pass-2 queue registers its watch on the global-norm counter (R152). -/
def armPass2 (s : State) (d : Nat) : State :=
  match queueHead s d 2 with
  | none => s
  | some c =>
    if c.armed || c.going then s
    else
      requestWatch (putCmd s { c with armed := true }) (updHdr s c.part 95 64) ((c.step + 1) % 2 ^ 64) (.pass2 d c.id) c.part
        (tagOf s (unitNo 4 d)) 0

/-- The start of a UPD.P1 or UPD.P2: checked, and accepted by every die that holds a slice (R148, R150, R154, R322). -/
def startUpdate (s : State) (p : Nat) (q : QInstr) : Started :=
  let ga := fld q.w 103 47
  let pass := if wClass q.w = 0x15 then 1 else 2
  let g := groupDesc s ga
  let dies := groupDies s g
  if !groupOk s p ga || (updTable s p).isNone then .fault ⟨8, 0, ga⟩
  else if dies.any (fun d => decide (256 ≤ (s.upd.cmds.filter (fun c => c.die == d && c.pass == pass)).length)) then
    .notReady
  else
    let id := s.upd.nextId
    let frozen := (getPart s p).frozen.contains (bits g 47 32)
    let s := if frozen then updCtr s p 3 1 else s
    let s := putUpd s { s.upd with
      nextId := id + 1
      cmds := s.upd.cmds ++ dies.map (fun d =>
        { id := id, part := p, die := d, pass := pass, group := ga, step := q.step, next := 0, armed := false
          going := false, skip := if frozen then 1 else 0, rows := false }) }
    let s := dies.foldl (fun s d => wakeDomain s (24 + d)) s
    .done (if pass = 2 then dies.foldl armPass2 s else s)

/-! ## Pass 1 (R147, R149, R155) -/

/-- A step record that disagrees (R147). -/
def stepMismatch (s : State) (p gid got step d : Nat) : State :=
  causeOrHold (raise (updCtr s p 5 1) 0x0701 p (updUnit s d) [gid, got, step]) p 0x0701 2 gid 0

/-- The number that the records of step s must show (R147, R399). -/
def expectedStep (s : State) (p g step : Nat) : Nat :=
  if (getPart s p).replay then step else ctrValue' s (bits g 543 512)
where
  /-- Value of a counter. -/
  ctrValue' (s : State) (n : Nat) : Nat := (getCounter s n).value

/-- Address of a die's partial (R149). -/
def partialAddr (s : State) (p d : Nat) : Nat := landAddr d (updHdr s p 159 128 + 64)

/-- Writes a unit's die slot and adds its sum of squared gradients, as s + c rounded to FP32 (log 93, DESIGN CHOICE), to the
die partial (R149 steps 4 and 5). -/
def writeNorms (s : State) (p g i d step : Nat) (sums : List Pair) : State :=
  let a := landAddr (bits g 7 6) (bits g 127 96 + 128 * unitIndex s g i + 32 * d)
  let s := writeBytes s a (sums.flatMap (fun x => toBytes 4 x.1.toNat ++ toBytes 4 x.2.toNat) ++ toBytes 8 step)
  let x := (sums.headD (0, 0))
  bankCombine s (partialAddr s p d) 3 (toBytes 4 (f32add x.1 x.2).toNat)

/-- Pass 1 of a dense slice. -/
def pass1Dense (s : State) (p ga i u step : Nat) : State :=
  let g := groupDesc s ga
  let co := groupCoef s g
  let t := bits (readNat s (recordAddr u step) 64) 63 32
  let cv := evalCurves s p ga i step (t + 1)
  let a := recurArgs g co cv (t + 1)
  let l := denseLoad s co u t
  let us := l.map (fun x => (recur a x.1 x.2.2.1 x.2.2.2.1 x.2.2.2.2 none).2.2)
  let s := putUpd s { s.upd with curves := s.upd.curves ++ [cv] }
  let s := writeNorms s p g i (ueDie u) step
    [sumSquares (l.map (fun x => x.2.2.1)), sumSquares (l.map Prod.fst), sumSquares us]
  updCtr s p 1 l.length

/-- The undo log of an embedding slice is too small for its touched rows (R155). -/
def undoShort (s : State) (p co u step : Nat) : Bool :=
  decide (bits u 511 448 < (touchedRows s p u step).length * undoSize co u)

/-- Pass 1 of an embedding slice (R155); the third pair of its die slot is (+0, +0) (log 94, DESIGN CHOICE). -/
def pass1Emb (s : State) (p ga i u step : Nat) : State :=
  let g := groupDesc s ga
  let rows := touchedRows s p u step
  let t := bits (readNat s (recordAddr u step) 64) 63 32
  let cv := evalCurves s p ga i step (t + 1)
  let gs := rows.flatMap (mergedGrad s p u step)
  let ws := rows.flatMap (fun e => embRow s p u step e.row)
  let s := putUpd s { s.upd with curves := s.upd.curves ++ [cv] }
  updCtr (writeNorms s p g i (ueDie u) step [sumSquares gs, sumSquares ws, (0, 0)]) p 1 gs.length

/-- A pass-1 command has been through its slices on its die. -/
def finishPass1 (s : State) (c : UpdCmd) : State :=
  let s := dropCmd s c
  putUpd s { s.upd with p1done := insertNew s.upd.p1done (c.part, c.die, c.step, c.group) }

/-- An earlier-accepted pass 2 of the group waits or runs on the die (R148). -/
def pass2Ahead (s : State) (c : UpdCmd) : Bool :=
  s.upd.cmds.any (fun x => x.pass == 2 && x.die == c.die && x.part == c.part && x.group == c.group && decide (x.id < c.id))

/-- The engine may work for a partition. -/
def updGoes (s : State) (p : Nat) : Bool :=
  match (getPart s p).state with
  | .running | .preempted => true
  | _ => false

/-- The next slice of a pass-1 command; it waits for lines that cannot be read. An undo log that is too small stops the job
before any write: the command goes no further (R155). -/
def pass1Next (s : State) (c : UpdCmd) (i u : Nat) (last : Bool) : State :=
  let g := groupDesc s c.group
  let co := groupCoef s g
  if ueEmb u && !setSealed s c.part u c.step then s
  else if ueEmb u && undoShort s c.part co u c.step then
    addHold (raise (dropCmd s c) 0x0703 c.part (updUnit s (ueDie u))
      [bits g 47 32, (touchedRows s c.part u c.step).length * undoSize co u, bits u 511 448]) c.part 0x0703
  else
    onceRead s (sliceRuns s c.part co u c.step) (fun s =>
      let s := if ueEmb u then pass1Emb s c.part c.group i u c.step else pass1Dense s c.part c.group i u c.step
      let c := { c with next := c.next + 1 }
      if last then finishPass1 s c else putCmd s c)

/-- The records that a group's slices on a die read in a step. -/
def stepRecords (s : State) (g d step : Nat) : List (Nat × Nat) :=
  (dieEntries s g d).map (fun e => (recordAddr e.2 step, 64))

/-- The head of a die's pass-1 queue goes on, its structures read (R147, R149). -/
def pass1Head (s : State) (d : Nat) (c : UpdCmd) : State :=
  let g := groupDesc s c.group
  let es := dieEntries s g d
  let want := expectedStep s c.part g c.step
  let shown := fun (e : Nat × Nat) => bits (readNat s (recordAddr e.2 c.step) 64) 127 64
  match (if c.next = 0 then es.find? (fun e => shown e != want) else none) with
  | some e => dropCmd (stepMismatch s c.part (bits g 47 32) (shown e) c.step d) c
  | none =>
    if bits g 8 8 = 1 then finishPass1 s c
    else
      match es[c.next]? with
      | none => finishPass1 s c
      | some e => pass1Next s c e.1 e.2 (decide (es.length ≤ c.next + 1))

/-- PASS1_SLICE (R149): the Update engine of a die runs pass 1 on the next slice of its queue's head. -/
def execPass1Slice (d : Fin 4) (s : State) : Host.Outcome State Fault Refusal :=
  match queueHead s d.val 1 with
  | none => .next s
  | some c =>
    if !updGoes s c.part || decide ((getPart s c.part).step < c.step) || pass2Ahead s c then .next s
    else if c.skip ≠ 0 then .next (finishPass1 s c)
    else .next (onceLevels s (groupLevels s c.group ++ [stepRecords s (groupDesc s c.group) d.val c.step])
      (fun s => pass1Head s d.val c))

/-- The structures that tell a die's part of a step: every group's descriptor and unit entries. -/
def tableLevels (s : State) (t : UpdTable) : List (List (Nat × Nat)) :=
  [t.groups.map (fun ga => (ga, 128)),
   t.groups.map (fun ga => (bits (groupDesc s ga) 255 192, 64 * bits (groupDesc s ga) 31 16))]

/-- DIE_PASS1_COMPLETE (R149 step 6): every group with a slice on the die has done or skipped pass 1 of the step; the
die partial is stamped and, once the partial and its stamp are visible, the pass-1 counter signalled. -/
def execDiePass1Complete (p : Fin 16) (d : Fin 4) (s : State) : Host.Outcome State Fault Refusal :=
  let p := p.val; let d := d.val
  let step := (getPart s p).step
  match updTable s p with
  | none => .next s
  | some t =>
    .next (onceLevels s (tableLevels s t) fun s => onceSettled s p fun s =>
      let here := t.groups.filter (fun ga => (groupDies s (groupDesc s ga)).contains d)
      if here.isEmpty || s.upd.p1sent.contains (p, d, step) ||
          !here.all (fun ga => s.upd.p1done.contains (p, d, step, ga)) then s
      else
        onceSettled (writeNat s (partialAddr s p d + 8) 8 step) p fun s =>
          sendSignal (putUpd s { s.upd with p1sent := s.upd.p1sent ++ [(p, d, step)] })
            { ctr := bits t.header 191 160, isMax := false, operand := 1, unit := updUnit s d, stream := 3
              part := p, counted := some step })

/-- The norm of one of the three sums of a unit, from its die slots (R149). -/
def combineNorm (s : State) (g k : Nat) (dies : List Nat) (j : Nat) : W32 :=
  let a := landAddr (bits g 7 6) (bits g 127 96 + 128 * k)
  let vals := dies.map (fun d =>
    f32add (BitVec.ofNat 32 (readNat s (a + 32 * d + 8 * j) 4)) (BitVec.ofNat 32 (readNat s (a + 32 * d + 8 * j + 4) 4)))
  let p := foldPairs (0, 0) vals
  f32sqrt (f32add p.1 p.2)

/-- NORM_COMBINE (R149): the norm die combines the die slots of unit k of the group numbered gi once every die that
holds a slice shows the step. -/
def execNormCombine (p : Fin 16) (gi : Fin 4096) (k : Fin 65536) (s : State) : Host.Outcome State Fault Refusal :=
  let p := p.val
  let step := (getPart s p).step
  match (updTable s p).bind (fun t => t.groups[gi.val]?) with
  | none => .next s
  | some ga =>
    let slots := fun (g : Nat) => landAddr (bits g 7 6) (bits g 127 96 + 128 * k.val)
    .next (onceLevels s ((groupLevels s ga).take 2 ++ [[(slots (groupDesc s ga), 128)]]) fun s =>
      let g := groupDesc s ga
      let dies := (unitSlices s g k.val).map (fun e => ueDie e.2)
      if dies.isEmpty || !dies.all (fun d => readNat s (slots g + 32 * d + 24) 8 == step) then s
      else putUpd s { s.upd with
        norms := (s.upd.norms.filter (fun x => !(x.part == p && x.group == ga && x.unit == k.val))) ++
          [{ part := p, group := ga, unit := k.val, step := step, g := combineNorm s g k.val dies 0
             w := combineNorm s g k.val dies 1, u := combineNorm s g k.val dies 2 }] })

/-! ## Pass 2 (R142, R151, R152, R154, R156) -/

/-- The global-norm record on a die. -/
def normRecord (s : State) (p d : Nat) : Nat := readNat s (landAddr d (updHdr s p 159 128)) 64

/-- A skipped step is counted once (R154). -/
def countSkip (s : State) (p step : Nat) : State :=
  if s.upd.skipped.contains (p, step) then s
  else updCtr (putUpd s { s.upd with skipped := s.upd.skipped ++ [(p, step)] }) p 4 1

/-- A pass-2 head starts: it reads the global-norm record, a frozen group's too (R151, R154). -/
def beginPass2 (s : State) (c : UpdCmd) : State :=
  let r := normRecord s c.part c.die
  let g := groupDesc s c.group
  let skipped := { c with going := true, skip := c.skip + 2 }
  if bits r 127 64 ≠ c.step then
    armPass2 (dropCmd (stepMismatch s c.part (bits g 47 32) (bits r 127 64) c.step c.die) c) c.die
  else if !fpIsFin (f32val (f32fld r 63 32)) then
    let first := !s.upd.skipped.contains (c.part, c.step)
    let s := if first then raise s 0x0702 c.part (updUnit s c.die) [c.step] else s
    putCmd (countSkip s c.part c.step) skipped
  else if bits r 4 4 = 1 then putCmd (countSkip s c.part c.step) skipped
  else putCmd s { c with going := true }

/-- The global-norm record that a pass-2 head reads, and its group descriptor. -/
def normRuns (s : State) (c : UpdCmd) : List (Nat × Nat) :=
  [(landAddr c.die (updHdr s c.part 159 128), 64), (c.group, 128)]

/-- PASS2_START (R152): the watch of the die's pass-2 head has been satisfied, or has ended ORPHANED, which abandons the
command. -/
def execPass2Start (d : Fin 4) (s : State) : Host.Outcome State Fault Refusal :=
  match queueHead s d.val 2 with
  | none => .next s
  | some c =>
    match s.sync.fired.find? (fun x => x.1 == .pass2 d.val c.id) with
    | none => .next s
    | some x =>
      let taken := fun (s : State) => putSync s { s.sync with fired := s.sync.fired.filter (· != x) }
      if c.going || !c.armed then .next s
      else if x.2 ≠ 0 then .next (armPass2 (dropCmd (taken s) c) d.val)
      else .next (onceRead s (normRuns s c) fun s => beginPass2 (taken s) c)

/-- ρ of an entry (R142): 1, the unit's trust ratio, or `rho_in`; none while the trust ratio's norms are not combined. -/
def rhoOf (s : State) (c : UpdCmd) (co g i u : Nat) : Option W32 :=
  match bits co 9 8 with
  | 1 =>
    (s.upd.norms.find? (fun x => x.part == c.part && x.group == c.group && x.unit == unitIndex s g i &&
      x.step == c.step)).map (fun x =>
        let pos := fun (v : W32) => fpIsFin (f32val v) && fpLt (.fin false 0 0) (f32val v)
        if pos x.w && pos x.u then f32div x.w x.u else 0x3F800000)
  | 2 => some (f32fld u 63 32)
  | _ => some 0x3F800000

/-- The scale s of a step (R142). -/
def scaleOf (s : State) (c : UpdCmd) (co : Nat) : W32 :=
  let gn := f32fld (normRecord s c.part c.die) 63 32
  if bits co 5 4 = 1 && fpLt (.fin false 0 0) (f32val gn) then
    let x := f32div (f32fld co 351 320) gn
    if fpLt (f32val x) (f32val 0x3F800000) then x else 0x3F800000
  else 0x3F800000

/-- Pass 2 of a dense slice: the write block (R152). -/
def pass2Dense (s : State) (c : UpdCmd) (i u : Nat) (rho : W32) : State :=
  let g := groupDesc s c.group
  let co := groupCoef s g
  let t := bits (readNat s (recordAddr u c.step) 64) 63 32
  let a := recurArgs g co (curvesOf s c.part c.group i c.step (t + 1)) (t + 1)
  let sc := scaleOf s c co
  let n := bits u 127 64
  let out := (denseLoad s co u t).map (fun x =>
    let r := recur a x.1 x.2.2.1 x.2.2.2.1 x.2.2.2.2 none
    (f32xOf .nearestEven (fpAdd (f32xVal x.1 x.2.1) (fpFlip (f32val (stepBy a rho sc r.2.2)))), r.1, r.2.1))
  let b := blockOf u t true
  let pl := planes co n
  let s := writeBytes s b (bytesOfWords (out.map (fun x => x.1.1)))
  let s := writeBytes s (b + pl.2.1) (out.flatMap (fun x => toBytes 2 x.1.2.toNat))
  let s := if bits co 10 10 = 1 then writeBytes s (b + pl.2.2.1) (bytesOfWords (out.map (fun x => x.2.1))) else s
  let s := if bits co 11 11 = 1 then writeBytes s (b + pl.2.2.2.1) (bytesOfWords (out.map (fun x => x.2.2))) else s
  let s := writeBytes s (b + pl.2.2.2.2) (computeCopy (bits u 15 12) (out.map (fun x => f32xVal x.1.1 x.1.2)))
  updCtr s c.part 2 n

/-- The new bytes of a touched row, its FP32X values rounded into the entry's format, and of its state (R141, R156). The mean
of the squares of a row of more than 128 elements is taken by chunks (log 97, DESIGN CHOICE). -/
def rowUpdate (s : State) (c : UpdCmd) (co u : Nat) (a : RecurArgs) (rho sc : W32) (e : TouchEntry) :
    List Byte × List Byte :=
  let n := bits u 31 16
  let ws := embRow s c.part u c.step e.row
  let gs := mergedGrad s c.part u c.step e
  let st := rowStAddr s c.part co u c.step e.row
  let hasM := bits co 10 10 == 1; let hasV := bits co 11 11 == 1; let rowwise := bits u 11 11 == 1
  let ms := planeOr s hasM st n
  let va := st + (if hasM then 4 * n else 0)
  let vs := if rowwise then List.replicate n (if hasV then (memWords s va 1).headD 0 else 0) else planeOr s hasV va n
  let mean := if rowwise then
      let q := sumSquares (List.zipWith (decayed a) ws gs)
      some (f32div (f32add q.1 q.2) (natF32 n))
    else none
  let out := List.zipWith (fun (x : W32 × W32) (y : W32 × W32) => (x.1, recur a x.1 x.2 y.1 y.2 mean))
    (ws.zip gs) (ms.zip vs)
  let row := out.flatMap (fun x =>
    let w := f32xOf .nearestEven (fpAdd (f32val x.1) (fpFlip (f32val (stepBy a rho sc x.2.2.2))))
    toBytes (tElemBytes (embFmt u)) (convert (tFmt (embFmt u)) .nearestEven (f32xVal w.1 w.2)).w)
  (row,
   (if hasM then bytesOfWords (out.map (fun x => x.2.1)) else []) ++
   (if hasV then bytesOfWords ((out.map (fun x => x.2.2.1)).take (if rowwise then 1 else n)) else []))

/-- A row's new bytes go to its home, or wait in the merge unit while it migrates (R156, R201). -/
def placeRow (s : State) (p u step row : Nat) (bs : List Byte) : State :=
  let t := embTable u; let die := embDie u
  let now := mapTouch (writeBytes s (embHome s p u step row) bs) p t die step row (fun e => { e with updated := true })
  match hotOf s p t die row with
  | some h =>
    if h.st = 2 then now
    else
      retrCtr (putRetr s { s.retr with hot := s.retr.hot.map (fun x => if x = h then { h with held := some bs } else x) })
        p 9 1
  | none => now

/-- One touched row: undo entry first, then the row and its state (R156). The entry's length counts its padding, which is
zero (log 95, DESIGN CHOICE). -/
def updateRow (c : UpdCmd) (co u : Nat) (a : RecurArgs) (rho sc : W32) (s : State) (e : TouchEntry) : State :=
  let p := c.part
  let old := readBytes s (embHome s p u c.step e.row) (embBytes u)
  let st := rowStAddr s p co u c.step e.row
  let n := rowStBytes co u
  let used := (s.upd.undo.filter (fun r => r.part == p && r.step == c.step && r.table == embTable u &&
    r.die == embDie u)).length
  let sz := undoSize co u
  let log := bits u 383 320 + used * sz
  let new := rowUpdate s c co u a rho sc e
  let body := toBytes 8 e.row ++ toBytes 4 sz ++ toBytes 4 0 ++ old ++ readBytes s st n
  let s := writeBytes s log (body ++ toBytes (sz - body.length) 0)
  let s := putUpd s { s.upd with
    undo := s.upd.undo ++ [⟨p, c.step, log, embTable u, embDie u, e.row, embBase s p u c.step e.row, old.length, st, n⟩] }
  let s := placeRow (writeBytes s st new.2) p u c.step e.row new.1
  updCtr (updCtr s p 6 1) p 2 (bits u 31 16)

/-- Pass 2 of an embedding slice: its rows. -/
def pass2Rows (s : State) (c : UpdCmd) (i u : Nat) (rho : W32) : State :=
  let g := groupDesc s c.group
  let co := groupCoef s g
  let t := bits (readNat s (recordAddr u c.step) 64) 63 32
  let a := recurArgs g co (curvesOf s c.part c.group i c.step (t + 1)) (t + 1)
  let sc := scaleOf s c co
  (touchedRows s c.part u c.step).foldl (updateRow c co u a rho sc) s

/-- A row write of a slice is held for a migration (R201). -/
def rowsHeld (s : State) (p u : Nat) : Bool :=
  s.retr.hot.any (fun h => h.part == p && h.table == embTable u && h.die == embDie u && h.held.isSome)

/-- What a slice writes last: its record, which follows its block or rows once they are visible and none of its rows is held
for a migration (R21, R152, R201); `fin` goes on to the next slice. -/
def recordSlice (s : State) (c : UpdCmd) (u : Nat) (rho : W32) (fin : State → State) : State :=
  if settled s c.part && !(ueEmb u && rowsHeld s c.part u) then
    fin (writeRecord s u c.step (bits (readNat s (recordAddr u c.step) 64) 63 32 + 1) 0 rho)
  else s

/-- A slice of pass 2: its block or rows, once, then its record. -/
def pass2Slice (s : State) (c : UpdCmd) (co i u : Nat) (rho : W32) (fin : State → State) : State :=
  if c.rows then recordSlice s c u rho fin
  else
    onceRead s (sliceRuns s c.part co u c.step) fun s =>
      recordSlice (putCmd (if ueEmb u then pass2Rows s c i u rho else pass2Dense s c i u rho) { c with rows := true }) c u
        rho fin

/-- A slice that takes no update (R154): the record alone; an embedding slice's merged gradients are discarded and its
deferrals released. -/
def pass2None (s : State) (c : UpdCmd) (u : Nat) : State :=
  let t := bits (readNat s (recordAddr u c.step) 64) 63 32
  let s := writeRecord s u c.step t c.skip 0
  if !ueEmb u then s
  else
    match findSet s c.part (embTable u) (embDie u) c.step with
    | none => s
    | some v =>
      updCtr (putSet s { v with entries := v.entries.map (fun e => { e with updated := true }) }) c.part 7
        (v.entries.filter TouchEntry.written).length

/-- A group of vector code writes its records alone (R158). -/
def pass2Path1 (s : State) (c : UpdCmd) (u : Nat) : State :=
  let t := bits (readNat s (recordAddr u c.step) 64) 63 32
  writeRecord s u c.step (t + 1) 0 0

/-- A pass-2 command has been through its slices on its die. -/
def finishPass2 (s : State) (c : UpdCmd) : State :=
  let s := putUpd (dropCmd s c) { (dropCmd s c).upd with
    p2done := insertNew s.upd.p2done (c.part, c.step, c.group, c.die) }
  armPass2 s c.die

/-- The head of a die's pass-2 queue goes on, its structures read (R152, R154, R158). -/
def pass2Head (s : State) (d : Nat) (c : UpdCmd) : State :=
  let g := groupDesc s c.group
  let co := groupCoef s g
  let es := dieEntries s g d
  match es[c.next]? with
  | none => finishPass2 s c
  | some e =>
    let c' := { c with next := c.next + 1, rows := false }
    let fin := fun (s : State) => if es.length ≤ c'.next then finishPass2 s c' else putCmd s c'
    if c.skip ≠ 0 then fin (pass2None s c e.2)
    else if bits g 8 8 = 1 then onceSettled s c.part fun s => fin (pass2Path1 s c e.2)
    else
      match rhoOf s c co g e.1 e.2 with
      | none => s
      | some rho => pass2Slice s c co e.1 e.2 rho fin

/-- PASS2_SLICE_DONE (R152): the next slice of the die's pass-2 head is written; its record follows its block once the
block's writes are complete. It waits for lines that cannot be read (R249, R251). -/
def execPass2SliceDone (d : Fin 4) (s : State) : Host.Outcome State Fault Refusal :=
  match queueHead s d.val 2 with
  | none => .next s
  | some c =>
    if !c.going || !updGoes s c.part then .next s
    else .next (onceLevels s (groupLevels s c.group ++ [stepRecords s (groupDesc s c.group) d.val c.step,
      normRuns s c]) (fun s => pass2Head s d.val c))

/-- GROUP_UPDATE_DONE (R146, R399): the last slice of a group has written its record, and its writes are visible; the norm die signals the group
step counter and the boundary counter, in a replay only if the group had not advanced. -/
def execGroupUpdateDone (p : Fin 16) (gi : Fin 4096) (s : State) : Host.Outcome State Fault Refusal :=
  let p := p.val
  match (updTable s p).bind (fun t => t.groups[gi.val]?) with
  | none => .next s
  | some ga =>
    let g := groupDesc s ga
    match s.upd.p2done.find? (fun x => x.1 == p && x.2.2.1 == ga) with
    | none => .next s
    | some x =>
      let step := x.2.1
      if !(groupDies s g).all (fun d => s.upd.p2done.contains (p, step, ga, d)) || !settled s p then .next s
      else
        let s := putUpd s { s.upd with
          p2done := s.upd.p2done.filter (fun y => !(y.1 == p && y.2.1 == step && y.2.2.1 == ga)) }
        if (getPart s p).replay && decide (step + 1 ≤ (getCounter s (bits g 543 512)).value) then .next s
        else .next (signalOne (signalOne s p (bits g 543 512) (updUnit s (bits g 7 6))) p (updHdr s p 127 96)
          (updUnit s (bits g 7 6)))

/-! ## Boundary, restart, job start -/

/-- The dies that hold slices of a partition's groups. -/
def updDies (s : State) (p : Nat) : List Nat :=
  match updTable s p with
  | none => []
  | some t => (upFrom 0 4).filter (fun d => t.groups.any (fun ga => (groupDies s (groupDesc s ga)).contains d))

/-- The die partials' pairs are set to (+0, +0) (R149). -/
def clearPartials (s : State) (p : Nat) : State := (updDies s p).foldl (fun s d => writeNat s (partialAddr s p d) 8 0) s

/-- The frozen flags of a partition's groups (R109). -/
def frozenGroups (s : State) (p : Nat) : List Nat :=
  match updTable s p with
  | none => []
  | some t => (t.groups.map (groupDesc s)).filterMap (fun g => if bits g 4 4 = 1 then some (bits g 47 32) else none)

/-- The boundary of a step at the Update engines (R22, R149). -/
def updBoundary (s : State) (p step : Nat) : State :=
  let s := clearPartials s p
  putUpd s { s.upd with
    undo := s.upd.undo.filter (fun r => !(r.part == p && r.step == step))
    curves := s.upd.curves.filter (fun c => !(c.part == p && decide (c.step ≤ step)))
    norms := s.upd.norms.filter (fun c => !(c.part == p && decide (c.step ≤ step)))
    p1done := s.upd.p1done.filter (fun x => !(x.1 == p && decide (x.2.2.1 ≤ step)))
    p1sent := s.upd.p1sent.filter (fun x => !(x.1 == p && decide (x.2.2 ≤ step))) }

/-- Commands of a partition are abandoned (R395 step 2). -/
def updAbandon (s : State) (p : Nat) : State :=
  let s := putUpd s { s.upd with
    cmds := s.upd.cmds.filter (fun c => c.part != p), curves := s.upd.curves.filter (fun c => c.part != p)
    norms := s.upd.norms.filter (fun c => c.part != p), p1done := s.upd.p1done.filter (fun x => x.1 != p)
    p1sent := s.upd.p1sent.filter (fun x => x.1 != p), p2done := s.upd.p2done.filter (fun x => x.1 != p) }
  let s := putSync s { s.sync with fired := s.sync.fired.filter (fun w =>
    match w.1 with
    | .pass2 d id => s.upd.cmds.any (fun c => c.die == d && c.id == id)
    | _ => true) }
  (upFrom 0 4).foldl armPass2 s

/-- One undo entry restores its row and row state (R157). -/
def undoOne (s : State) (r : UndoRec) : State :=
  let e := regEntry s r.part r.table
  let d := readNat s (bits e 511 448) 128
  let row := readBytes s (r.addr + 16) r.rowLen
  let st := readBytes s (r.addr + 16 + r.rowLen) r.stLen
  let at_ := match hotOf s r.part r.table r.die r.row with
    | some h => if h.st = 1 then r.home else hotSlot e d r.die h.slot
    | none => r.home
  writeBytes (writeBytes s at_ row) r.stAddr st

/-- The undo entries of a step, in append order. -/
def undoOf (s : State) (p step : Nat) : List UndoRec := s.upd.undo.filter (fun r => r.part == p && r.step == step)

/-- The runs that the replay of a step's undo log reads (R157, R251). -/
def undoRuns (s : State) (p step : Nat) : List (Nat × Nat) :=
  (undoOf s p step).map (fun r => (r.addr, 16 + r.rowLen + r.stLen))

/-- The undo log of step s is replayed in reverse (R157); the log starts again. -/
def undoReplay (s : State) (p step : Nat) : State :=
  let s := (undoOf s p step).reverse.foldl undoOne s
  putUpd s { s.upd with undo := s.upd.undo.filter (fun r => !(r.part == p && r.step == step)) }

/-- The update table's header is accepted at START (R136). -/
def updHeaderOk (s : State) (p h : Nat) : Bool :=
  bits h 3 0 == 1 && bits h 15 4 == 0 && bits h 63 32 == 0 && bits h 511 192 == 0 && decide (1 ≤ bits h 31 16) &&
    decide (bits h 31 16 ≤ 4096) && bits h 159 128 % 64 == 0 && decide (bits h 159 128 < 2 ^ 27) &&
    ownsCounter s p (bits h 191 160) && ownsCounter s p (bits h 127 96) && ownsCounter s p (bits h 95 64)

/-- Reads a partition's update table at job start; the answer says whether it is accepted (R136). -/
def readUpdTable (s : State) (p : Nat) : State × Bool :=
  let a := setting s 0x3701 (p + 1)
  let rest := s.upd.tables.filter (fun t => t.part != p)
  let h := readNat s a 64
  if updHeaderOk s p h then
    (putUpd s { s.upd with tables := rest ++
      [⟨p, h, (upFrom 0 (bits h 31 16)).map (fun i => readNat s (a + 64 + 8 * i) 8)⟩] }, true)
  else (s, false)

/-- A job that starts or stops leaves no undo entry and no skipped step to the next (R154, R157). -/
def updFresh (s : State) (p : Nat) : State :=
  putUpd s { s.upd with
    undo := s.upd.undo.filter (fun r => r.part != p), skipped := s.upd.skipped.filter (fun x => x.1 != p) }

/-- Nothing of a partition's update stays. -/
def updForget (s : State) (p : Nat) : State :=
  let s := updFresh (updAbandon s p) p
  putUpd s { s.upd with tables := s.upd.tables.filter (fun t => t.part != p) }

end Sys2Proof.Machine
end

