-- ==== Sys2Proof/Machine/Vector.lean ====
section
/-! DEFINITION. Machine/Vector.lean: the vector unit: VEXEC and the vector operations (02 R51, 14 R323 to R326). -/

namespace Sys2Proof.Machine

/-! ## Registers (R323) -/

/-- A vector register as a number of 16,384 bits. -/
def vreg (v : Tile) (r : Nat) : Nat := (mget 0 v.vec.vregs r : BitVec 16384).toNat

/-- Writes a vector register. -/
def putVreg (v : Tile) (r n : Nat) : Tile :=
  { v with vec := { v.vec with vregs := mset 0 v.vec.vregs r (BitVec.ofNat 16384 n) } }

/-- A scalar register; x0 reads as zero (R323). -/
def xreg (v : Tile) (r : Nat) : Nat := if r = 0 then 0 else (mget 0 v.vec.xregs r : BitVec 64).toNat

/-- Writes a scalar register; a write of x0 is ignored (R323). -/
def putXreg (v : Tile) (r n : Nat) : Tile :=
  if r = 0 then v else { v with vec := { v.vec with xregs := mset 0 v.vec.xregs r (BitVec.ofNat 64 n) } }

/-! ## Instruction fields (R324) -/

/-- `type`. -/
def vTyp (w : Nat) : Nat := bits w 57 55
/-- `vd`. -/
def vDst (w : Nat) : Nat := bits w 54 49
/-- `va`. -/
def vA (w : Nat) : Nat := bits w 48 43
/-- `vb`. -/
def vB (w : Nat) : Nat := bits w 42 37
/-- `xs`. -/
def vXs (w : Nat) : Nat := bits w 36 33
/-- `imm`. -/
def vImm (w : Nat) : Nat := bits w 31 0

/-- Width of an element of a `type`. -/
def typWidth (t : Nat) : Nat := if t = 1 || t = 2 then 16 else 32

/-- Format of a floating `type`. -/
def typFmt (t : Nat) : Fmt := if t = 1 then .bf16 else if t = 2 then .fp16 else .fp32

/-- The elements of a register. -/
def vElems (width : Nat) (r : Nat) : List Nat := (upFrom 0 (16384 / width)).map (elemBits r width)

/-! ## Element operations (R325, R326) -/

/-- An INT32 result; a free value where it leaves the format. -/
def int32Of (op : Nat) (a b d : Nat) (z : Int) : Nat :=
  if -(2 ^ 31 : Nat) ≤ z ∧ z < (2 ^ 31 : Nat) then toField 32 z
  else (Config.int32Wide op (BitVec.ofNat 32 a) (BitVec.ofNat 32 b) (BitVec.ofNat 32 d)).toNat

/-- VADD, VSUB, VMUL and VFMA (0 to 3) of one element. -/
def vArith (op typ a b d : Nat) : Nat :=
  if typ = 3 then
    let x := asSigned 32 a; let y := asSigned 32 b; let z := asSigned 32 d
    int32Of op a b d (match op with | 0 => x + y | 1 => x - y | 2 => x * y | _ => x * y + z)
  else
    let f := typFmt typ
    let x := fmtDecode f a; let y := fmtDecode f b; let z := fmtDecode f d
    fmtArith f (match op with
      | 0 => fpAdd x y | 1 => fpAdd x (fpFlip y) | 2 => fpMul x y | _ => fpAdd (fpMul x y) z)

/-- VMAX or VMIN of one element: a NaN gives the canonical NaN; zeros of different sign are equal, and which of them
results is free. -/
def vPick (isMax : Bool) (typ a b : Nat) : Nat :=
  if typ = 3 then
    let lt := decide (asSigned 32 a < asSigned 32 b)
    if isMax == lt then b else a
  else
    let f := typFmt typ
    let x := fmtDecode f a; let y := fmtDecode f b
    if fpIsNan x || fpIsNan y then canonNan f
    else if fpIsZero x && fpIsZero y && a != b then
      (if Config.zeroSign isMax then 2 ^ (fmtWidth f - 1) else 0)
    else if (if isMax then fpLt x y else fpLt y x) then b else a

/-- VCGT of one element. -/
def vGreater (typ a b : Nat) : Nat :=
  let g := if typ = 3 then decide (asSigned 32 b < asSigned 32 a)
    else fpLt (fmtDecode (typFmt typ) b) (fmtDecode (typFmt typ) a)
  if g then 2 ^ typWidth typ - 1 else 0

/-- An element is not zero, read as its `type` (R325). -/
def vNonzero (typ a : Nat) : Bool := if typ = 3 then a != 0 else !fpIsZero (fmtDecode (typFmt typ) a)

/-- VSHL of one INT32 element: left, or right arithmetic. -/
def vShift (imm a : Nat) : Nat :=
  if bitSet imm 5 then toField 32 (asSigned 32 a / (2 ^ (imm % 32) : Nat)) else (a <<< (imm % 32)) % 2 ^ 32

/-- An element-wise operation on registers of a width. -/
def vMap3 (width : Nat) (f : Nat → Nat → Nat → Nat) (a b d : Nat) : Nat :=
  packBits width (List.zipWith (fun x (p : Nat × Nat) => f x p.1 p.2) (vElems width a)
    ((vElems width b).zip (vElems width d)))

/-! ## VCVT (R118 to R120, R325) -/

/-- The elements of a register converted, as many as both registers hold. -/
def vConvs (src dst : Fmt) (mode : Nat → RoundMode) (a : Nat) : List Conv :=
  let n := min (16384 / fmtWidth src) (16384 / fmtWidth dst)
  (upFrom 0 n).map (fun i => convert dst (mode i) (fmtDecode src (elemBits a (fmtWidth src) i)))

/-- VCVT of a register: dense elements of the source format to dense elements of the target. -/
def vConvert (src dst : Fmt) (mode : Nat → RoundMode) (a : Nat) : Nat :=
  packBits (fmtWidth dst) ((vConvs src dst mode a).map Conv.w)

/-! ## Checks (R325, R332) -/

/-- Types that an operation accepts: 0 to 3, floating, FP32, INT32, or none asked. -/
def vTypOk (vop typ : Nat) : Bool :=
  if 0x0B ≤ vop && vop ≤ 0x0E then typ == 0
  else if vop == 0x13 then typ == 3
  else if vop == 0x15 || vop == 0x16 then decide (typ ≤ 2)
  else true

/-- The tile-store access of an operation: offset, bytes and alignment. -/
def vAccess (v : Tile) (vop w : Nat) : Option (Nat × Nat × Nat) :=
  match vop with
  | 0x01 | 0x02 => some ((xreg v (vXs w) + vImm w) % 2 ^ 64, 2048, 64)
  | 0x19 => some (vImm w, 8, 8)
  | 0x1A => some (vImm w, 8, 1)
  | _ => none

/-- The fault of a vector instruction, lowest code first; `n` instructions have been executed before it. -/
def vFault (v : Tile) (t n vop w : Nat) : Option IFault :=
  if 0x1B < vop || bits w 32 32 ≠ 0 || 3 < vTyp w || (vop = 0x0F && bits (vImm w) 5 4 = 3) then some ⟨1, 0, 0⟩
  else if !vTypOk vop (vTyp w) ||
      (vop = 0x0F && ((outFmt (bits (vImm w) 11 8)).isNone || (outFmt (bits (vImm w) 3 0)).isNone)) then some ⟨4, 0, 0⟩
  else if 2 ^ 24 ≤ n then some ⟨5, 0, 0⟩
  else
    match vAccess v vop w with
    | some (off, len, al) =>
      if off % al ≠ 0 then some ⟨6, 4, tileAddr t off⟩
      else if storeBytes < off + len then some ⟨6, 0, tileAddr t off⟩
      else none
    | none => none

/-! ## One instruction -/

/-- The tile after an operation that touches registers alone; `seed` is the partition's stochastic seed. -/
def vRegOp (v : Tile) (t seed vop w : Nat) : Tile :=
  let typ := vTyp w
  let wd := typWidth typ
  let a := vreg v (vA w); let b := vreg v (vB w); let d := vreg v (vDst w)
  let out := putVreg v (vDst w)
  let xs := vXs w
  let f32s := (vElems wd a).map (fun e => f32of (fmtDecode (typFmt typ) e))
  match vop with
  | 0x03 => out (vMap3 wd (vArith 0 typ) a b d)
  | 0x04 => out (vMap3 wd (vArith 1 typ) a b d)
  | 0x05 => out (vMap3 wd (vArith 2 typ) a b d)
  | 0x06 => out (vMap3 wd (vArith 3 typ) a b d)
  | 0x07 => out (vMap3 wd (fun x y _ => vPick true typ x y) a b d)
  | 0x08 => out (vMap3 wd (fun x y _ => vPick false typ x y) a b d)
  | 0x09 => out (vMap3 wd (fun x y _ => vGreater typ x y) a b d)
  | 0x0A => out (vMap3 wd (fun x y z => if vNonzero typ x then y else z) a b d)
  | 0x0B => out (vMap3 32 (fun x _ _ => (vexpOf (BitVec.ofNat 32 x)).toNat) a b d)
  | 0x0C => out (vMap3 32 (fun x _ _ => (vlogOf (BitVec.ofNat 32 x)).toNat) a b d)
  | 0x0D => out (vMap3 32 (fun x _ _ => (vrcpOf (BitVec.ofNat 32 x)).toNat) a b d)
  | 0x0E => out (vMap3 32 (fun x _ _ => (vrsqOf (BitVec.ofNat 32 x)).toNat) a b d)
  | 0x0F =>
    let m := bits (vImm w) 5 4
    match outFmt (bits (vImm w) 11 8), outFmt (bits (vImm w) 3 0) with
    | some f, some g =>
      let r := out (vConvert f g (fun i => roundOf m seed t v.srCount 0 i) a)
      if m = 2 then { r with srCount := v.srCount + 1 } else r
    | _, _ => v
  | 0x10 => out (a &&& b)
  | 0x11 => out (a ||| b)
  | 0x12 => out (a ^^^ b)
  | 0x13 => out (vMap3 32 (fun x _ _ => vShift (vImm w) x) a b d)
  | 0x14 => out (packBits wd ((upFrom 0 (16384 / wd)).map (fun _ => xreg v xs % 2 ^ wd)))
  | 0x15 => putXreg v xs (alignedTotal f32s).toNat
  | 0x16 =>
    let r := pickWinner true (f32s.zip (upFrom 0 f32s.length))
    putXreg v xs (r.1.toNat + r.2 * 2 ^ 32)
  | 0x17 => putXreg v xs ((xreg v xs + (if bitSet (vImm w) 31 then 2 ^ 64 - 2 ^ 32 else 0) + vImm w) % 2 ^ 64)
  | 0x18 => putXreg v xs ((xreg v xs + 2 ^ 64 - 1) % 2 ^ 64)
  | 0x1B =>
    let r := getWatch v v.vec.x (engOf (bits (vImm w) 1 0)) (bits (vImm w) 3 2)
    putXreg v xs (if bitSet (vImm w) 4 then r.value else r.status)
  | _ => v

/-- A VCVT's clamped values and zeroed NaNs are counted as R120 says. -/
def vCount (s : State) (t vop w : Nat) : State :=
  match outFmt (bits (vImm w) 11 8), outFmt (bits (vImm w) 3 0) with
  | some f, some g =>
    if vop = 0x0F then
      let cs := vConvs f g (fun _ => .nearestEven) (vreg (getTile s t) (vA w))
      tileCtr (tileCtr s t 0x24 (cs.filter Conv.clamped).length) t 0x29 (cs.filter Conv.nanZeroed).length
    else s
  | _, _ => s

/-- The offset of the next instruction: SLOOP goes back while its counter is not zero. -/
def vNext (v' : Tile) (pc vop w : Nat) : Int :=
  if vop = 0x18 && xreg v' (vXs w) ≠ 0 then (pc : Int) + 8 * asSigned 32 (vImm w) else (pc : Int) + 8

/-- The running program faults (R323, R332). -/
def vecFault (s : State) (t : Nat) (i : Inflight) (f : IFault) : State :=
  let v := getTile s t
  tileFault (putTile s t { v with vec := { v.vec with running := false } }) t i.q.x 2 i.q.pc i.q.seq f

/-- The program whose next instruction the vector unit executes. -/
def vecOwner (v : Tile) : Option Inflight :=
  if v.vec.running && !v.stopped then v.inflight.find? (fun i => i.why == .vexec) else none

/-- Executes a vector instruction as the next of the tile's running program (R323 to R326). -/
def vecStep (s : State) (t : Nat) (w : Nat) : State :=
  let v := getTile s t
  match vecOwner v with
  | none => s
  | some i =>
    let p := (partOfTile s t).getD 0
    let vop := bits w 63 58
    if !tileGoes s t then s
    else if storeBytes < v.vec.pc + 8 then vecFault s t i ⟨6, 0, tileAddr t v.vec.pc⟩
    else
      match vFault v t v.vec.count vop w with
      | some f => vecFault s t i f
      | none =>
        if vop = 0 then
          finishInstr s t { v with vec := VecState.reset, inflight := v.inflight.filter (· != i) } i.q
        else
          let off := match vAccess v vop w with | some x => x.1 | none => 0
          let n := if vop = 0x01 then 2048 else if vop = 0x19 then 8 else 0
          onceRead s [(tileAddr t off, n)] fun s =>
          let s := if vop = 0x02 then writeNat s (tileAddr t off) 2048 (vreg v (vA w))
            else if vop = 0x1A then writeNat s (tileAddr t off) 8 (xreg v (vXs w))
            else vCount s t vop w
          let v' := if vop = 0x01 then putVreg v (vDst w) (readNat s (tileAddr t off) 2048)
            else if vop = 0x19 then putXreg v (vXs w) (readNat s (tileAddr t off) 8)
            else vRegOp v t (getPart s p).srSeed vop w
          let n := vNext v' v.vec.pc vop w
          let s := putTile s t { v' with vec := { v'.vec with pc := n.toNat, count := v.vec.count + 1 } }
          if n < 0 then vecFault s t i ⟨6, 0, tileAddr t 0⟩ else s

/-- The next vector instruction, read from the tile store (R323). -/
def vecFetch (s : State) (t : Nat) : State :=
  let a := tileAddr t (getTile s t).vec.pc
  onceRead s [(a, 8)] (fun s => vecStep s t (readNat s a 8))

/-- The start of a VEXEC: the unit's registers are cleared and the arguments placed (R323). -/
def startVexec (s : State) (t : Nat) (q : QInstr) : Started :=
  let v := getTile s t
  let u : VecState := { VecState.reset with running := true, x := q.x, pc := wDesc q.w }
  .going (putTile s t (putXreg (putXreg { v with vec := u } 1 (fld q.w 84 53)) 2 (fld q.w 52 21))) .vexec 0

/-! ## The commands -/

/-- A vector instruction word of an operation and its other 58 bits. -/
def vWord (vop : Nat) (w : BitVec 58) : Nat := vop * 2 ^ 58 + w.toNat

/-- VEND (R325): end of the program. -/
def execVend (t : Fin 64) (w : BitVec 58) (s : State) : Host.Outcome State Fault Refusal :=
  .next (vecStep s t.val (vWord 0x00 w))

/-- VLD (R325): vd := 2 KiB at x[xs] + imm. -/
def execVld (t : Fin 64) (w : BitVec 58) (s : State) : Host.Outcome State Fault Refusal :=
  .next (vecStep s t.val (vWord 0x01 w))

/-- VST (R325): 2 KiB at x[xs] + imm := va. -/
def execVst (t : Fin 64) (w : BitVec 58) (s : State) : Host.Outcome State Fault Refusal :=
  .next (vecStep s t.val (vWord 0x02 w))

/-- VADD (R325): vd := va + vb. -/
def execVadd (t : Fin 64) (w : BitVec 58) (s : State) : Host.Outcome State Fault Refusal :=
  .next (vecStep s t.val (vWord 0x03 w))

/-- VSUB (R325): vd := va - vb. -/
def execVsub (t : Fin 64) (w : BitVec 58) (s : State) : Host.Outcome State Fault Refusal :=
  .next (vecStep s t.val (vWord 0x04 w))

/-- VMUL (R325): vd := va * vb. -/
def execVmul (t : Fin 64) (w : BitVec 58) (s : State) : Host.Outcome State Fault Refusal :=
  .next (vecStep s t.val (vWord 0x05 w))

/-- VFMA (R325): vd := va * vb + vd, rounded once. -/
def execVfma (t : Fin 64) (w : BitVec 58) (s : State) : Host.Outcome State Fault Refusal :=
  .next (vecStep s t.val (vWord 0x06 w))

/-- VMAX (R325): element-wise maximum. -/
def execVmax (t : Fin 64) (w : BitVec 58) (s : State) : Host.Outcome State Fault Refusal :=
  .next (vecStep s t.val (vWord 0x07 w))

/-- VMIN (R325): element-wise minimum. -/
def execVmin (t : Fin 64) (w : BitVec 58) (s : State) : Host.Outcome State Fault Refusal :=
  .next (vecStep s t.val (vWord 0x08 w))

/-- VCGT (R325): all ones where va > vb, else zero. -/
def execVcgt (t : Fin 64) (w : BitVec 58) (s : State) : Host.Outcome State Fault Refusal :=
  .next (vecStep s t.val (vWord 0x09 w))

/-- VSEL (R325): vd element := vb element where va element is not 0. -/
def execVsel (t : Fin 64) (w : BitVec 58) (s : State) : Host.Outcome State Fault Refusal :=
  .next (vecStep s t.val (vWord 0x0A w))

/-- VEXP (R325): e^x. -/
def execVexp (t : Fin 64) (w : BitVec 58) (s : State) : Host.Outcome State Fault Refusal :=
  .next (vecStep s t.val (vWord 0x0B w))

/-- VLOG (R325): ln x. -/
def execVlog (t : Fin 64) (w : BitVec 58) (s : State) : Host.Outcome State Fault Refusal :=
  .next (vecStep s t.val (vWord 0x0C w))

/-- VRCP (R325): 1 / x. -/
def execVrcp (t : Fin 64) (w : BitVec 58) (s : State) : Host.Outcome State Fault Refusal :=
  .next (vecStep s t.val (vWord 0x0D w))

/-- VRSQ (R325): 1 / sqrt x. -/
def execVrsq (t : Fin 64) (w : BitVec 58) (s : State) : Host.Outcome State Fault Refusal :=
  .next (vecStep s t.val (vWord 0x0E w))

/-- VCVT (R325): conversion between formats. -/
def execVcvt (t : Fin 64) (w : BitVec 58) (s : State) : Host.Outcome State Fault Refusal :=
  .next (vecStep s t.val (vWord 0x0F w))

/-- VAND (R325): bitwise and. -/
def execVand (t : Fin 64) (w : BitVec 58) (s : State) : Host.Outcome State Fault Refusal :=
  .next (vecStep s t.val (vWord 0x10 w))

/-- VOR (R325): bitwise or. -/
def execVor (t : Fin 64) (w : BitVec 58) (s : State) : Host.Outcome State Fault Refusal :=
  .next (vecStep s t.val (vWord 0x11 w))

/-- VXOR (R325): bitwise exclusive or. -/
def execVxor (t : Fin 64) (w : BitVec 58) (s : State) : Host.Outcome State Fault Refusal :=
  .next (vecStep s t.val (vWord 0x12 w))

/-- VSHL (R325): INT32 shift by imm. -/
def execVshl (t : Fin 64) (w : BitVec 58) (s : State) : Host.Outcome State Fault Refusal :=
  .next (vecStep s t.val (vWord 0x13 w))

/-- VBC (R325): broadcast of x[xs]. -/
def execVbc (t : Fin 64) (w : BitVec 58) (s : State) : Host.Outcome State Fault Refusal :=
  .next (vecStep s t.val (vWord 0x14 w))

/-- VRSUM (R325): x[xs] := FP32 sum of va. -/
def execVrsum (t : Fin 64) (w : BitVec 58) (s : State) : Host.Outcome State Fault Refusal :=
  .next (vecStep s t.val (vWord 0x15 w))

/-- VRMAX (R325): x[xs] := largest element of va and its lowest index. -/
def execVrmax (t : Fin 64) (w : BitVec 58) (s : State) : Host.Outcome State Fault Refusal :=
  .next (vecStep s t.val (vWord 0x16 w))

/-- SADD (R325): x[xs] := x[xs] + imm. -/
def execSadd (t : Fin 64) (w : BitVec 58) (s : State) : Host.Outcome State Fault Refusal :=
  .next (vecStep s t.val (vWord 0x17 w))

/-- SLOOP (R325): counts x[xs] down and loops while it is not 0. -/
def execSloop (t : Fin 64) (w : BitVec 58) (s : State) : Host.Outcome State Fault Refusal :=
  .next (vecStep s t.val (vWord 0x18 w))

/-- SLD (R325): x[xs] := U64 at imm. -/
def execSld (t : Fin 64) (w : BitVec 58) (s : State) : Host.Outcome State Fault Refusal :=
  .next (vecStep s t.val (vWord 0x19 w))

/-- SST (R325): U64 at imm := x[xs]. -/
def execSst (t : Fin 64) (w : BitVec 58) (s : State) : Host.Outcome State Fault Refusal :=
  .next (vecStep s t.val (vWord 0x1A w))

/-- SWREAD (R325): x[xs] := status or value of a watch register. -/
def execSwread (t : Fin 64) (w : BitVec 58) (s : State) : Host.Outcome State Fault Refusal :=
  .next (vecStep s t.val (vWord 0x1B w))

end Sys2Proof.Machine
end

