-- ==== Sys2Proof/Machine/Engine.lean ====
section
/-! DEFINITION. Machine/Engine.lean: the engines of a tile: which instruction starts, what its start does, the parts
that follow, and the commands of a tile (02 R34, R35, R38 to R44, R55, 05 R94, 14 R303 to R309). -/

namespace Sys2Proof.Machine

/-! ## Starting an instruction (R34, R39) -/

/-- What the start of an instruction does, by class (R305). -/
def startClass (s : State) (p t : Nat) (q : QInstr) : Started :=
  match wClass q.w with
  | 0x08 | 0x09 | 0x0A => startAccum s p t q
  | 0x0B => startDrain s p t q
  | 0x10 | 0x11 => startLoad s p t q
  | 0x12 => startStore s p t q
  | 0x13 | 0x14 => startRequest s p t q
  | 0x15 | 0x16 => startUpdate s p q
  | 0x18 => startVexec s t q
  | 0x19 => if wForm q.w = 0 then startSlotSum s p t q
            else if wForm q.w = 1 then startSelect s p t q else startAudit s p t q
  | 0x1A | 0x1B => startRecompute s t q
  | 0x20 => if fld q.w 100 100 = 1 then startRemoteSignal s p t q else startSignal s p t q
  | 0x21 => startWatch s p t q
  | _ => startWait s p t q

/-- The state after a start; none when the instruction does not start. -/
def afterStart (s : State) (t : Nat) (q : QInstr) : Started → Option State
  | .fault f => some (tileFault s t q.x (engNo (firstEng q.w)) q.pc q.seq f)
  | .done s' => some (finishInstr s' t (getTile s' t) q)
  | .going s' why d =>
    let v := getTile s' t
    some (putTile s' t { v with inflight := v.inflight ++ [⟨q, lastEng q.w, why, [], d⟩] })
  | .notReady => none

/-- The areas of its own tile store that the start of an instruction reads, beside its descriptor. -/
def startAreas (s : State) (p t : Nat) (q : QInstr) : List (Nat × Nat) :=
  let w := q.w; let d := ownDesc s t (wDesc w)
  match wClass w with
  | 0x08 | 0x09 | 0x0A => if loadsPanel w || q.skip then [] else accumRuns s p t d q
  | 0x12 => let c := copyOf w d; (upFrom 0 c.rows).map (fun r => (c.near + r * c.nearStride, c.nearLen))
  | 0x19 =>
    if wForm w = 0 then
      if slotWaits d then [] else (upFrom 0 (bits d 11 8)).map (fun i => (slotOff d i, slotBytes d))
    else if wForm w = 1 then [(bits d 351 320, 8 * bits d 191 160)]
    else
      let au := (selCounts s t d).getD 3 0
      [(bits d 415 384, 16), (bits d 383 352, 4 * auditLen s t d), (bits d 447 416, 4 * au),
        (bits d 479 448, auditPitch d * au), (bits d 511 480, 16)]
  | 0x1A | 0x1B => (rcAreas (wClass w == 0x1A) d).flatMap (fun a =>
      (upFrom 0 a.2.2.1).map (fun r => (a.1 + r * a.2.1, a.2.2.2)))
  | _ => []

/-- The descriptor that an instruction reads from its own tile store as it starts (R312, R318, R321); a skipped one without a
panel load reads none (R109). -/
def startDesc (q : QInstr) : List (Nat × Nat) :=
  if q.skip && !loadsPanel q.w then []
  else match wClass q.w with
  | 0x10 | 0x11 | 0x12 => if hasCopyDesc q.w then [(wDesc q.w, 64)] else []
  | 0x13 | 0x14 => [(wDesc q.w, 128)]
  | 0x08 | 0x09 | 0x0A | 0x0B | 0x19 | 0x1A | 0x1B => [(wDesc q.w, 64)]
  | _ => []

/-- Areas of the store of tile `t` as runs of device addresses; one that leaves the store is none. -/
def ownRuns (t : Nat) (l : List (Nat × Nat)) : List (Nat × Nat) :=
  (l.filter (fun r => decide (r.1 + r.2 ≤ storeBytes))).map (fun r => (tileAddr t r.1, r.2))

/-- The structures that a request or an update command reads as it is accepted, beside a request's descriptor (R150, R182). -/
def acceptLevels (s : State) (p t : Nat) (q : QInstr) : List (List (Nat × Nat)) :=
  match wClass q.w with
  | 0x13 | 0x14 => requestLevels s p (BitVec.ofNat 1024 (readNat s (tileAddr t (wDesc q.w)) 128))
  | 0x15 | 0x16 => groupLevels s (fld q.w 103 47)
  | _ => []

/-- The levels of runs that an instruction reads as it starts. -/
def startLevels (s : State) (p t : Nat) (q : QInstr) : List (List (Nat × Nat)) :=
  ownRuns t (startDesc q) :: ownRuns t (startAreas s p t q) :: acceptLevels s p t q

/-- What the reads of an instruction at its start meet: none, and it may start; else it has not started, and lines that
cannot be read have met their error (R249, R251, R255; log 32, DEDUCED). -/
def startMeets (s : State) (p t : Nat) (q : QInstr) : Option State :=
  if memClean s then none else meetLevels s (startLevels s p t q)

/-- The reads of an instruction that starts wake the domains whose stores they reach (R417). -/
def wakeStart (s : State) (p t : Nat) (q : QInstr) : State :=
  if domsUp s then s else wakeRuns s (startLevels s p t q).flatten

/-- Starts a waiting instruction if it is ready: it takes its tokens and leaves its queues (R34, R39, R40). -/
def tryStart (s : State) (p t : Nat) (q : QInstr) : Option State :=
  let v := getTile s t
  if startable v q && !(firstEng q.w == .fetch && interlocked s p t q) then
    let s' := wakeStart s p t q
    match startMeets s' p t q with
    | some r => if r.memErr = s.memErr && r.power = s.power then none else some r
    | none =>
      let s := putTile s' t (takeTokens (dropWaiting v q) q.x (wWait q.w) (firstEng q.w))
      afterStart s t q (startClass s p t q)
  else none

/-- The head of a stream at the engine that starts it. -/
def headAt (v : Tile) (x : Stream) (e : Engine) : Option QInstr :=
  v.waiting.find? (fun q => q.x == x && firstEng q.w == e)

/-- The order of the streams that a tile acts on (R34, R56). -/
def streamOrder (s : State) (t : Nat) : List Stream :=
  let v := settingAt s (1 + t) 0x3110 1
  [bits v 5 4, bits v 3 2, bits v 1 0].filterMap streamOf

/-- The started instructions before one. -/
def startedBefore (v : Tile) (i : Inflight) : List Inflight := v.inflight.takeWhile (· != i)

/-- A started instruction's part at an engine is ready (R33 to R36, R94, R264, R327): at Matrix an accumulation whose operands
are first, or a part that a panel or a side operand held; at Fetch operands that find Matrix busy; at Vector a slot sum
whose tie counter fired; at Store the results of a drain; at its engine a SIGNAL whose covered writes are complete. -/
def secondReady (v : Tile) (i : Inflight) (e : Engine) : Bool :=
  let accum := isAccum i.q.w && !i.q.skip
  let clear := matrixClear v i.q (startedBefore v i)
  match i.why with
  | .operands _ _ _ _ _ => e == .matrix && clear
  | .matrix =>
    (e == .matrix && usesEng i.q.w .matrix && (if accum then clear else partClear v i.q .matrix)) ||
      (e == .fetch && accum && !clear && partClear v i.q .fetch && !matrixTaken v i.q) ||
      (e == .vector && lastEng i.q.w == .vector && partClear v i.q .vector)
  | .store _ _ => e == .store && partClear v i.q .store
  | .cover => e == i.eng
  | _ => false

/-- A part of a started instruction that reads areas of its tile's store: not ready while their lines wait; lines that
cannot be read meet their error (R249, R251, R255). -/
def onceReads (s : State) (t : Nat) (i : Inflight) (runs : List (Nat × Nat)) (r : Started) : Started :=
  match meetRuns s (ownRuns t runs) with
  | some s' => if s'.memErr = s.memErr then .notReady else .going s' i.why i.desc
  | none => r

/-- The part of a started instruction that its waits held. -/
def resumeClass (s : State) (p t : Nat) (i : Inflight) : Started :=
  match i.why with
  | .matrix =>
    if wClass i.q.w = 0x0B then ownStarted t i.q.w (runDrain s p t i.q i.desc i.side)
    else if isAccum i.q.w then
      ownStarted t i.q.w (if i.q.skip then skipDw s t i.q
        else if matrixTaken (getTile s t) i.q then .notReady else takeAccum s p t i.desc i.q)
    else
      onceReads s t i ((upFrom 0 (bits i.desc 11 8)).map (fun k => (slotOff i.desc k, slotBytes i.desc)))
        (.done (runSlotSum s t i.desc))
  | .operands _ _ m n data =>
    onceReads s t i (restRuns s p t i m n) (ownStarted t i.q.w
      (runAccum s { s with mem := overlay data (capture s t (restRuns s p t i m n)) } p t i.desc i.q))
  | .store _ side => storeDrain s p t i.desc side
  | .cover =>
    if fld i.q.w 100 100 = 1 then
      match startRemoteSignal s p t i.q with
      | .going _ .cover _ => .notReady
      | r => r
    else if uncovered (getTile s t) i.q i.eng then .notReady else .done (emitSignal s p t i.q)
  | _ => .notReady

/-- A started instruction goes on; none when it does not. -/
def goOn (s : State) (p t : Nat) (i : Inflight) : Option State :=
  let v := getTile s t
  let s0 := putTile s t { v with inflight := v.inflight.filter (· != i) }
  afterStart s0 t i.q (resumeClass s0 p t i)

/-- What a stream can start at an engine: the second part that is its next there, else its waiting head. -/
def startOf (s : State) (p t : Nat) (e : Engine) (x : Stream) : Option State :=
  let v := getTile s t
  match v.inflight.find? (fun i => i.q.x == x && secondReady v i e) with
  | some i => goOn s p t i
  | none => (headAt v x e).bind (tryStart s p t)

/-- The streams of an order whose head is ready at an engine, each with the state after its start (R34). -/
def readyStarts (s : State) (p t : Nat) (e : Engine) : List (Stream × State) :=
  (streamOrder s t).filterMap (fun x => (startOf s p t e x).map (fun s' => (x, s')))

/-- Choices that a stream's ready head was passed over at an engine. -/
def starveKey (e : Engine) (x : Stream) : Nat := engNo e * 4 + streamNo x

/-- The passed-over counts after a choice: the winner's and those of streams without a ready head start anew. -/
def starveAfter (v : Tile) (e : Engine) (ready : List Stream) (win : Stream) : Tile :=
  { v with starve := streams.foldl (fun m x =>
      mset 0 m (starveKey e x)
        (if x = win || !ready.contains x then 0 else mget 0 v.starve (starveKey e x) + 1)) v.starve }

/-- Fetch writes more entries of the instruction that it streams, as far as the operand queues have credit (R35, R36). -/
def streamOn (s : State) (p t : Nat) : State :=
  let v := getTile s t
  match v.inflight.find? (fun i => match i.why with | .operands a b m n _ => decide (a < m) || decide (b < n) | _ => false) with
  | none => s
  | some i =>
    match i.why with
    | .operands a b m n data =>
      let a' := min m (a + (operandDepth - (operandLoad v).1))
      let b' := min n (b + (operandDepth - (operandLoad v).2))
      let l := restRuns s p t i a' b'
      onceRead s (ownRuns t l) (fun s =>
        putTile s t { v with inflight := v.inflight.map (fun j =>
          if j == i then { j with why := .operands a' b' m n (overlay data (capture s t l)) } else j) })
    | _ => s

/-- One choice of an engine (R34): a starved stream first, else the stream order. -/
def arbitrate (s : State) (t : Nat) (e : Engine) : State :=
  if !tileGoes s t then s
  else
    let p := (partOfTile s t).getD 0
    let l := readyStarts s p t e
    let v := getTile s t
    let starved := l.find? (fun r => decide (settingAt s (1 + t) 0x3110 2 ≤ mget 0 v.starve (starveKey e r.1)))
    match starved.orElse fun _ => l.head? with
    | none => s
    | some r =>
      let s' := if starved.isSome then tileCtr r.2 t 0x1F 1 else r.2
      putTile s' t (starveAfter (getTile s' t) e (l.map Prod.fst) r.1)

/-! ## Writes that become visible (R39, R42) -/

/-- The instructions of a tile that wait for the lines of their writes complete once those are written. -/
def finishVisible (s : State) (t : Nat) : State :=
  let v := getTile s t
  if settled s ((partOfTile s t).getD 0) then
    (v.inflight.filter (fun i => i.why == .acks [])).foldl (fun s i =>
      let v := getTile s t
      putTile s t (completeInstr { v with inflight := v.inflight.filter (· != i) } i.q)) s
  else s

/-! ## The commands of an engine -/

/-- A word reaches its stream's dispatch; then the engine that starts it makes one choice (R32, R34). -/
def tileInstr (s : State) (t : Nat) (x : Stream) (w : BitVec 128) : State :=
  let s := dispatch s t x w
  if (enginesOf w).isSome then arbitrate s t (firstEng w) else s

/-- A word's other bits with its form. -/
def withForm (f : Nat) (w : BitVec 122) : BitVec 122 :=
  BitVec.ofNat 122 (w.toNat - bits w.toNat 106 104 * 2 ^ 104 + f * 2 ^ 104)

/-- A word of a class as a command. -/
def runWord (cls : Nat) (t : Fin 64) (x : Stream) (w : BitVec 122) (s : State) : State :=
  tileInstr s t.val x (classWord cls w)

/-- HAND_OVER (R76): the ended active set becomes the shadow set when that is EMPTY. -/
def execHandOver (t : Fin 64) (s : State) : Host.Outcome State Fault Refusal :=
  .next (if tileGoes s t.val then handOver s t.val else s)

/-- A panel or half load ends: the buffer holds the panel that its descriptor, read at the start, described, and its loader
may accumulate (R94, R218, R312). bwd.panel_loads counts the loads of the BWD class, a sparse half's among them (R111; log
89, DESIGN CHOICE). -/
def panelLoaded (s : State) (t : Nat) (x : Stream) (seq : Nat) : State :=
  let v := getTile s t
  match v.inflight.find? (fun i => i.q.x == x && i.q.seq == seq && i.why == .panel) with
  | none => s
  | some i =>
    let f := (operandFmt (bits i.desc 419 416)).getD .bf16
    onceRead s (ownRuns t [panelRun i.desc]) (fun s =>
      let v := putPanel { v with inflight := v.inflight.map (fun j => if j == i then { j with why := .matrix } else j) }
        i.q.w (panelNo i.q.w) (readPanel s t i.desc f)
      let s := if wClass i.q.w = 0x0A then tileCtr s t 0x25 1 else s
      arbitrate (putTile s t v) t .matrix)

/-- PANEL_LOAD_COMPLETE (R94). -/
def execPanelLoadComplete (t : Fin 64) (x : Stream) (seq : BitVec 32) (s : State) : Host.Outcome State Fault Refusal :=
  .next (panelLoaded s t.val x seq.toNat)

/-- SIDE_OPERAND_LOADED (R82): the side operand is in the side buffer, and the drain goes on. -/
def execSideOperandLoaded (t : Fin 64) (x : Stream) (seq : BitVec 32) (s : State) : Host.Outcome State Fault Refusal :=
  let v := getTile s t.val
  let runs := (v.inflight.filter (fun i => i.q.x == x && i.q.seq == seq.toNat && i.why == .side)).flatMap (fun i =>
    match drainSet v x with
    | some a => [sideRun i.desc (drainElems a)]
    | none => [])
  .next (onceRead s (ownRuns t.val runs) (fun s => arbitrate (sideLoaded s t.val x seq.toNat) t.val .matrix))

/-- Store's next instruction of a stream is a DRAIN that has placed nothing in the drain queue (R53). -/
def storeStarved (v : Tile) (x : Stream) : Bool :=
  v.inflight.any (fun i => i.q.x == x && wClass i.q.w == 0x0B && (i.why == .side || i.why == .matrix)) ||
    ((v.waiting.find? (fun q => q.x == x && usesEng q.w .store)).any (fun q => wClass q.w == 0x0B) &&
      !v.inflight.any (fun i => i.q.x == x && holdsPart i .store))

/-- Fetch is streaming a stream's operands into a full operand queue (R36, R53). -/
def fetchHeld (v : Tile) (x : Stream) : Bool :=
  v.inflight.any (fun i => i.q.x == x && (match i.why with
    | .operands a b m n _ => (decide (a < m) && decide (operandDepth ≤ (operandLoad v).1)) ||
        (decide (b < n) && decide (operandDepth ≤ (operandLoad v).2))
    | _ => false))

/-- A started instruction keeps its engine held on credit: a full token queue, a watch slot, an enqueue port, packets
(R39, R53, R271, R291). -/
def onCredit (s : State) (p t : Nat) (i : Inflight) : Bool :=
  match i.why with
  | .post _ | .slot _ | .enqueue => true
  | .tie => s.sync.slotWaits.any (fun w => w.waiter == .tie t)
  | .acks l => !(stillHeld s (if wClass i.q.w = 0x20 then fld i.q.w 99 90 else (copyOf i.q.w i.desc).peer) p l
      true).isEmpty
  | _ => false

/-- The head of a stream at an engine is held on a token or on credit (R53, R55); a WAIT never is. -/
def heldOnToken (s : State) (t : Nat) (x : Stream) (e : Engine) : Bool :=
  let v := getTile s t
  let p := (partOfTile s t).getD 0
  v.inflight.any (fun i => i.q.x == x && i.eng == e && onCredit s p t i) ||
  (e == .store && storeStarved v x) || (e == .fetch && fetchHeld v x) ||
  (match headAt v x e with
   | none => false
   | some q => partClear v q e && wClass q.w != 0x22 &&
      (!tokensReady v x (wWait q.w) e ||
        ([0x13, 0x14, 0x15, 0x16].contains (wClass q.w) && startable v q && (tryStart s p t q).isNone)))

/-- TOKEN_TIMEOUT (R55): the tile stops and its partition restarts; no fault record is written. -/
def execTokenTimeout (t : Fin 64) (x : Stream) (e : Engine) (s : State) : Host.Outcome State Fault Refusal :=
  if !tileGoes s t.val || !heldOnToken s t.val x e then .next s
  else
    let p := (partOfTile s t.val).getD 0
    let s := putTile s t.val { getTile s t.val with stopped := true }
    .next (addCause (raise s 0x0A02 p (tileUnit s t.val e) [streamNo x]) p 0x0A02)

/-- A stream starts at its entry (R307). -/
def startStream (v : Tile) (x : Stream) : Tile :=
  let c := getCtl v x
  let v := putCtl v x { c with
    state := .running, pc := c.entry, nextSeq := 0, mark0 := 0, mark1 := 0, marked := false, ended := false
    dwSkip := false, buf := [] }
  { v with watches := mdrop (fun k => k / 16 == streamNo x) v.watches }

/-- The job of a tile's partition is stopped, so that its stream control blocks may be written (R307). -/
def jobStopped (s : State) (t : Nat) : Bool :=
  match partOfTile s t with
  | some p => (getPart s p).state == .stopped
  | none => true

/-- A write of run = 1 (R307): ignored while the job runs or the stream is RUNNING. -/
def runStream (s : State) (t : Nat) (x : Stream) : State :=
  let v := getTile s t
  if tilePresent s t && jobStopped s t && (getCtl v x).state != .running then
    putTile (wakeDomain s (tileDom s t)) t (startStream v x)
  else s

/-- STREAM_RUN (R307). -/
def execStreamRun (t : Fin 64) (x : Stream) (s : State) : Host.Outcome State Fault Refusal := .next (runStream s t.val x)

/-! ## The tile instructions -/

/-- NOP (R309): dispatched with no effect. -/
def execNop (t : Fin 64) (x : Stream) (w : BitVec 122) (s : State) : Host.Outcome State Fault Refusal :=
  .next (runWord 0x00 t x w s)

/-- STEP (R309): marks the start of the code of the next step. -/
def execStep (t : Fin 64) (x : Stream) (w : BitVec 122) (s : State) : Host.Outcome State Fault Refusal :=
  .next (runWord 0x01 t x w s)

/-- JUMP (R309): fetch goes on at the target. -/
def execJump (t : Fin 64) (x : Stream) (w : BitVec 122) (s : State) : Host.Outcome State Fault Refusal :=
  .next (runWord 0x02 t x w s)

/-- END (R309): the stream fetches nothing further. -/
def execEndStream (t : Fin 64) (x : Stream) (w : BitVec 122) (s : State) : Host.Outcome State Fault Refusal :=
  .next (runWord 0x03 t x w s)

/-- MMA (R57): accumulates A times B, dense or sparse. -/
def execMma (t : Fin 64) (x : Stream) (w : BitVec 122) (s : State) : Host.Outcome State Fault Refusal :=
  .next (runWord 0x08 t x w s)

/-- MMA.T (R63): accumulates with transposed operands. -/
def execMmaT (t : Fin 64) (x : Stream) (w : BitVec 122) (s : State) : Host.Outcome State Fault Refusal :=
  .next (runWord 0x09 t x w s)

/-- BWD2 (R96): DX or DW against a gradient panel or sparse half. -/
def execBwd2 (t : Fin 64) (x : Stream) (w : BitVec 122) (s : State) : Host.Outcome State Fault Refusal :=
  .next (runWord 0x0A t x w s)

/-- DRAIN (R79): the shadow set goes through the epilogue to the tile store. -/
def execDrain (t : Fin 64) (x : Stream) (w : BitVec 122) (s : State) : Host.Outcome State Fault Refusal :=
  .next (runWord 0x0B t x w s)

/-- LOAD (R318): lines copied into the tile store. -/
def execLoad (t : Fin 64) (x : Stream) (w : BitVec 122) (s : State) : Host.Outcome State Fault Refusal :=
  .next (runWord 0x10 t x w s)

/-- LOADT (R319): far rows copied transposed. -/
def execLoadt (t : Fin 64) (x : Stream) (w : BitVec 122) (s : State) : Host.Outcome State Fault Refusal :=
  .next (runWord 0x11 t x w s)

/-- STORE (R320): lines written from the tile store. -/
def execStore (t : Fin 64) (x : Stream) (w : BitVec 122) (s : State) : Host.Outcome State Fault Refusal :=
  .next (runWord 0x12 t x w s)

/-- GATHER (R182): a gather request for Retriever. -/
def execGather (t : Fin 64) (x : Stream) (w : BitVec 122) (s : State) : Host.Outcome State Fault Refusal :=
  .next (runWord 0x13 t x w s)

/-- SCATTER.ADD (R182): a scatter-add or merge request for Retriever. -/
def execScatterAdd (t : Fin 64) (x : Stream) (w : BitVec 122) (s : State) : Host.Outcome State Fault Refusal :=
  .next (runWord 0x14 t x w s)

/-- UPD.P1 (R148): pass 1 of a group. -/
def execUpdP1 (t : Fin 64) (x : Stream) (w : BitVec 122) (s : State) : Host.Outcome State Fault Refusal :=
  .next (runWord 0x15 t x w s)

/-- UPD.P2 (R148): pass 2 of a group. -/
def execUpdP2 (t : Fin 64) (x : Stream) (w : BitVec 122) (s : State) : Host.Outcome State Fault Refusal :=
  .next (runWord 0x16 t x w s)

/-- VEXEC (R323): runs a vector program. -/
def execVexec (t : Fin 64) (x : Stream) (w : BitVec 122) (s : State) : Host.Outcome State Fault Refusal :=
  .next (runWord 0x18 t x w s)

/-- REDUCE form 0 (R327): the sum of weight-gradient slots. -/
def execReduceSlotSum (t : Fin 64) (x : Stream) (w : BitVec 122) (s : State) : Host.Outcome State Fault Refusal :=
  .next (runWord 0x19 t x (withForm 0 w) s)

/-- REDUCE form 1 (R223): selection of active neurons. -/
def execReduceSelect (t : Fin 64) (x : Stream) (w : BitVec 122) (s : State) : Host.Outcome State Fault Refusal :=
  .next (runWord 0x19 t x (withForm 1 w) s)

/-- REDUCE form 2 (R225): the audit of a selection. -/
def execReduceAudit (t : Fin 64) (x : Stream) (w : BitVec 122) (s : State) : Host.Outcome State Fault Refusal :=
  .next (runWord 0x19 t x (withForm 2 w) s)

/-- NORMRC (R104): recompute-backward of a normalisation. -/
def execNormrc (t : Fin 64) (x : Stream) (w : BitVec 122) (s : State) : Host.Outcome State Fault Refusal :=
  .next (runWord 0x1A t x w s)

/-- SMAXRC (R105): recompute-backward of a soft maximum. -/
def execSmaxrc (t : Fin 64) (x : Stream) (w : BitVec 122) (s : State) : Host.Outcome State Fault Refusal :=
  .next (runWord 0x1B t x w s)

/-- SIGNAL (R263): an ADD or MAX of a counter, local or remote. -/
def execSignal (t : Fin 64) (x : Stream) (w : BitVec 122) (s : State) : Host.Outcome State Fault Refusal :=
  .next (runWord 0x20 t x w s)

/-- WATCH (R270): arms a watch register. -/
def execWatch (t : Fin 64) (x : Stream) (w : BitVec 122) (s : State) : Host.Outcome State Fault Refusal :=
  .next (runWord 0x21 t x w s)

/-- WAIT (R270): blocks until a watch register fires. -/
def execWait (t : Fin 64) (x : Stream) (w : BitVec 122) (s : State) : Host.Outcome State Fault Refusal :=
  .next (runWord 0x22 t x w s)

end Sys2Proof.Machine
end

