-- ==== Sys2Proof/Machine/Hound.lean ====
section
/-! DEFINITION. Machine/Hound.lean: neighbourhood sampling: doorbell, hop close, trail complete, abandoning (08). A
whole hop is drawn and written when it closes. -/

namespace Sys2Proof.Machine

/-- A counter of Hound's object of a partition (R180). -/
def houndCtr (s : State) (p sub n : Nat) : State := addCtr s (0x4400 + p) sub n

/-- Replaces Hound's queues. -/
def putTrails (s : State) (l : List Trail) : State := { s with trails := l }

/-! ## The sample descriptor (R165, R166, R172) -/

/-- Field of a sample descriptor. -/
def sFld (d : BitVec 1024) (hi lo : Nat) : Nat := bits d.toNat hi lo

/-- `hops`. -/
def sHops (d : BitVec 1024) : Nat := sFld d 10 8

/-- Hop word h. -/
def hopWord (d : BitVec 1024) (h : Nat) : Nat := sFld d (64 * h + 127) (64 * h + 64)

/-- `fanout` of hop h. -/
def hopFan (d : BitVec 1024) (h : Nat) : Nat := bits (hopWord d h) 15 7

/-- `seed_count`. -/
def seedCount (d : BitVec 1024) : Nat := sFld d 639 608

/-- The slots of hop h; of hop 0 the seeds (R172). -/
def slotsOf (d : BitVec 1024) : Nat → Nat
  | 0 => seedCount d
  | h + 1 => slotsOf d h * hopFan d (h + 1)

/-- Offset of the seed map. -/
abbrev seedMapOff : Nat := 128

/-- Bytes padded to 64. -/
def pad64 (n : Nat) : Nat := ceilDiv n 64 * 64

/-- Offset of the edge array of hop h + 1. -/
def edgesAt (d : BitVec 1024) : Nat → Nat
  | 0 => seedMapOff + pad64 (4 * seedCount d)
  | h + 1 => edgesAt d h + 32 * slotsOf d (h + 1)

/-- Offset of the node table. -/
def nodesAt (d : BitVec 1024) : Nat := edgesAt d (sHops d)

/-- The bound U of distinct local indices. -/
def nodeBound (d : BitVec 1024) : Nat := seedCount d + sumOf ((upFrom 1 (sHops d)).map (slotsOf d))

/-- Size of the trail. -/
def trailSize (d : BitVec 1024) : Nat := nodesAt d + pad64 (8 * nodeBound d)

/-- The partition takes no work of software: forming, restarting or held; an UNFORMED one has none (log 23, DEDUCED). -/
def partClosed (s : State) (p : Nat) : Bool :=
  match (getPart s p).state with
  | .forming | .restarting | .held | .unformed => true
  | _ => false

/-- Why a sample descriptor is refused: the lowest code; none when it is accepted. An address outside the interface groups
of the partition is outside its GDDR7 (R165, R233, R259; log 23, DEDUCED). -/
def sampleRefusal (s : State) (p a : Nat) (d : BitVec 1024) : Option Nat :=
  let used := upFrom 1 (min 4 (sHops d))
  let unused := (upFrom 1 4).filter (fun h => decide (sHops d < h))
  let q := getPart s p
  if sFld d 3 0 ≠ 1 || sFld d 7 4 ≠ 0 || sFld d 127 11 ≠ 0 || sFld d 415 384 ≠ 0 || sFld d 703 640 = 0 ||
      2 ^ 40 ≤ sFld d 703 640 || unused.any (fun h => hopWord d h != 0) ||
      used.any (fun h => decide (3 < bits (hopWord d h) 2 0) || bits (hopWord d h) 6 3 != 0 ||
        decide (1 < bits (hopWord d h) 17 16) || bits (hopWord d h) 23 18 != 0) ||
      !counterOk (sFld d 575 544) || !counterOk (sFld d 607 576) then some 1
  else if sHops d = 0 || 4 < sHops d || used.any (fun h => hopFan d h == 0 || decide (256 < hopFan d h)) then some 2
  else if seedCount d = 0 || 1048576 < seedCount d then some 3
  else if sFld d 767 704 < trailSize d || 0xFFFFFFFE < nodeBound d then some 4
  else if sFld d 543 512 % 65536 ≠ 0 || sFld d 511 480 % 65536 ≠ 0 || sFld d 511 480 < 0x100000 ||
      0x4000000 < sFld d 511 480 || !inShare q (sFld d 543 512) ||
      !inShare q (sFld d 543 512 + sFld d 511 480 - 1) then some 5
  else if a % 64 ≠ 0 || sFld d 831 768 % 64 ≠ 0 || !([a, sFld d 959 896, sFld d 895 832, sFld d 831 768,
      sFld d 831 768 + trailSize d - 1, sFld d 895 832 + 16 * seedCount d - 1].all (inGroups s p)) then some 6
  else if 2 ≤ (s.trails.filter (fun t => t.part == p)).length then some 7
  else if partClosed s p then some 8
  else none

/-! ## The header (R173) -/

/-- The trail header with a status. -/
def trailHeader (t : Trail) (status : Nat) : Nat :=
  let d := t.desc
  let u32 := fun (n lo : Nat) => (n % 2 ^ 32) * 2 ^ lo
  1 + status * 2 ^ 8 + sHops d * 2 ^ 12 + u32 (seedCount d) 32 +
    sumOf ((upFrom 1 (sHops d)).map (fun h => u32 (edgesAt d (h - 1)) (416 + 32 * (h - 1)))) +
    u32 seedMapOff 544 + u32 (nodesAt d) 576 + sFld d 479 416 * 2 ^ 608 + u32 t.spills 672 + u32 t.bad 704 +
    sumOf ((t.valid.zip (upFrom 0 4)).map (fun e => u32 e.1 (736 + 32 * e.2))) +
    sumOf ((t.ends.zip (upFrom 0 5)).map (fun e => u32 e.1 (864 + 32 * e.2)))

/-- Address of the trail slot. -/
def trailAddr (t : Trail) : Nat := sFld t.desc 831 768

/-! ## Trail slots (R24) -/

/-- The partition is in a step of its job. -/
def inStep (s : State) (p : Nat) : Bool :=
  match (getPart s p).state with
  | .running | .preempted => true
  | _ => false

/-- A trail may begin: its batch has a slot, or one of the partition's two is free; in a job, no batch is sampled before the
boundary of the step two before it (R24; log 77, DEDUCED). -/
def slotForTrail (s : State) (t : Trail) : Bool :=
  let b := sFld t.desc 479 416
  (s.trailSlots.contains (t.part, b) || decide ((s.trailSlots.filter (fun x => x.1 == t.part)).length < 2)) &&
    (!inStep s t.part || decide (b ≤ (getPart s t.part).step + 1))

/-- Replaces the trail slots that are held. -/
def putTrailSlots (s : State) (l : List (Nat × Nat)) : State := { s with trailSlots := l }

/-- Frees the slots of the steps that a rule names. -/
def freeTrailSlots (s : State) (p : Nat) (gone : Nat → Bool) : State :=
  putTrailSlots s (s.trailSlots.filter (fun x => !(x.1 == p && gone x.2)))

/-- Hop 0 of the partition's oldest trail begins if none runs and a slot is free: the partition's draw weight is taken
(R179) and the header is written with status 0. -/
def beginTrail (s : State) (p : Nat) : State :=
  match s.trails.find? (fun t => t.part == p) with
  | none => s
  | some t =>
    if t.running || !slotForTrail s t then s
    else
      let r := { t with running := true }
      let s := putTrailSlots (takeSetting s (1 + p) 0x3402 (p + 1)) (insertNew s.trailSlots (p, sFld t.desc 479 416))
      writeNat (putTrails s (s.trails.map (fun u => if u == t then r else u))) (trailAddr t) 128 (trailHeader r 0)

/-- Identity of the sampler that reports for a partition: which of its samplers does is not stated; the model takes sampler
0 of the lowest die that serves it (log 68, DESIGN CHOICE). -/
def houndUnit (s : State) (p : Nat) : Nat :=
  let i := 8 * (serveDies s p).headD 0
  unitId (tagOf s (unitNo 2 i)) 2 0 i

/-- A descriptor's address reaches the partition's Hound doorbell: its trail is queued, or refused. -/
def houndStore (p a : Nat) (s : State) : State :=
  atDoorbell s 0 p a [[(a, 128)]] (fun s =>
  let d := BitVec.ofNat 1024 (readNat s a 128)
  match sampleRefusal s p a d with
  | some c => raise (houndCtr s p 8 1) 0x0801 p (houndUnit s p) [c, a]
  | none =>
    let t : Trail :=
      { part := p, desc := d, hop := 0, running := false, nodes := [], ends := [], valid := [], table := [], counts := []
        seedTimes := [], insts := [], bad := 0, spills := 0, badRaised := false, fullRaised := false }
    beginTrail (putTrails (wakeMem s p) (s.trails ++ [t])) p)

/-- HOUND_DOORBELL (R165, R288): a work core stores a sample descriptor's address to the doorbell of partition p. -/
def execHoundDoorbell (door : Door) (addr : BitVec 64) (s : State) : Host.Outcome State Fault Refusal :=
  .next (byCore s door.core.val door.part.val (houndStore door.part.val addr.toNat))

/-! ## Segments (R161 to R163) -/

/-- Field of width w at index i of a packed run. -/
def packedAt (s : State) (a w i : Nat) : Nat :=
  if w = 0 then 0 else (readNat s (a + i * w / 8) 6 >>> (i * w % 8)) % 2 ^ w

/-- An instance's segment: address, header. -/
structure Segment where
  addr : Nat
  hdr : Nat
  deriving DecidableEq, Repr

/-- `degree`. -/
def segDegree (g : Segment) : Nat := bits g.hdr 63 32

/-- Neighbour i. -/
def segNode (s : State) (g : Segment) (i : Nat) : Nat :=
  bits g.hdr 103 64 + packedAt s (g.addr + 32) (bits g.hdr 17 12) i

/-- Timestamp of position i. -/
def segTime (s : State) (g : Segment) (i : Nat) : Nat :=
  let ids := ceilDiv (ceilDiv (segDegree g * bits g.hdr 17 12) 8) 8 * 8
  (bits g.hdr 191 128 + packedAt s (g.addr + 32 + ids) (bits g.hdr 23 18) i) % 2 ^ 64

/-- The segment header is intact (R161). -/
def segOk (h : Nat) : Bool :=
  bits h 3 0 == 1 && bits h 11 5 == 0 && bits h 31 24 == 0 && bits h 127 104 == 0 && decide (1 ≤ bits h 17 12) &&
    decide (bits h 17 12 ≤ 40) && decide (bits h 23 18 ≤ 40)

/-- How an instance's expansion ends (R163): its segment, a bad node, a bad segment. -/
inductive Expand where
  | seg (g : Segment)
  | badNode
  | badSegment
  deriving DecidableEq, Repr

/-- The segment of a node in a hop of a mode. -/
def expandNode (s : State) (d : BitVec 1024) (h node : Nat) : Expand :=
  let mode := bits (hopWord d h) 2 0
  if sFld d 703 640 ≤ node || 2 ^ 40 ≤ node then .badNode
  else
    let a := readNat s (sFld d 959 896 + 8 * node) 8
    let hd := readNat s a 32
    if !segOk hd || ((mode = 2 || mode = 3) && !bitSet hd 4) || (mode = 1 && bits hd 255 192 = 0) then .badSegment
    else .seg ⟨a, hd⟩

/-! ## Choosing edges (R168, R169) -/

/-- The words of draw i of slot index x in hop h. -/
def drawWords (d : BitVec 1024) (h x i : Nat) : Nat × Nat × Nat × Nat :=
  genWords (sFld d 1023 960) x (sFld d 447 416) i (h * 0x10000)

/-- `uniform(n, x)`. -/
def uniformPick (n x : Nat) : Nat := x * n / 2 ^ 32

/-- `pick(lo, cnt, f)`: positions without replacement, ascending. -/
def pickPositions (draw : Nat → Nat) (lo cnt f : Nat) : List Nat :=
  if cnt ≤ f then upFrom lo cnt
  else
    let chosen := (upFrom 0 f).foldl (fun l i =>
      let j := cnt - f + i
      let r := uniformPick (j + 1) (draw i)
      if l.contains r then l ++ [j] else l ++ [r]) []
    (sortBy (fun a b => decide (a < b)) chosen).map (· + lo)

/-- The bytes that field i of a packed run stands in. -/
def packedRun (a w i : Nat) : Nat × Nat := (a + i * w / 8, ceilDiv (i * w % 8 + w) 8)

/-- First position at which a timestamp is at least T, by halving. -/
def firstAtLeast (ts : Nat → Nat) (t : Nat) : Nat → Nat → Nat → Nat
  | 0, lo, _ => lo
  | k + 1, lo, hi =>
    if hi ≤ lo then lo
    else
      let m := (lo + hi) / 2
      if t ≤ ts m then firstAtLeast ts t k lo m else firstAtLeast ts t k (m + 1) hi

/-- The positions whose timestamps that search reads. -/
def searchReads (ts : Nat → Nat) (t : Nat) : Nat → Nat → Nat → List Nat
  | 0, _, _ => []
  | k + 1, lo, hi =>
    if hi ≤ lo then []
    else
      let m := (lo + hi) / 2
      m :: (if t ≤ ts m then searchReads ts t k lo m else searchReads ts t k (m + 1) hi)

/-- The positions that an instance chooses, in emission order. -/
def chosenPositions (s : State) (d : BitVec 1024) (h x : Nat) (g : Segment) (t : Nat) : List Nat :=
  let w := hopWord d h
  let f := hopFan d h
  let n := segDegree g
  let draw := fun i => (drawWords d h x i).1
  let before := fun t => firstAtLeast (segTime s g) t 33 0 n
  match bits w 2 0 with
  | 0 => pickPositions draw 0 n f
  | 1 =>
    if n = 0 then []
    else (upFrom 0 f).map (fun i =>
      let c := uniformPick n (drawWords d h x i).1
      let e := readNat s (bits g.hdr 255 192 + 8 * c) 8
      if (drawWords d h x i).2.1 < bits e 31 0 then c else bits e 63 32)
  | 2 => upFrom (before t - f) (before t - (before t - f))
  | _ =>
    let lo := if bits w 63 24 = 0 then 0 else before (t - bits w 63 24)
    pickPositions draw lo (before t - lo) f

/-- The runs of memory that an instance's draws read beside its header: searched timestamps, alias entries, and the
identifiers and timestamps of the chosen positions. -/
def drawRuns (s : State) (d : BitVec 1024) (h x : Nat) (g : Segment) (t : Nat) : List (Nat × Nat) :=
  let w := hopWord d h
  let n := segDegree g
  let ts := g.addr + 32 + ceilDiv (ceilDiv (n * bits g.hdr 17 12) 8) 8 * 8
  let search := fun (t : Nat) => (searchReads (segTime s g) t 33 0 n).map (packedRun ts (bits g.hdr 23 18))
  (if bits w 2 0 < 2 then [] else search t) ++
    (if bits w 2 0 = 3 && bits w 63 24 ≠ 0 then search (t - bits w 63 24) else []) ++
    (if bits w 2 0 = 1 && n ≠ 0 then (upFrom 0 (hopFan d h)).map (fun i =>
      (bits g.hdr 255 192 + 8 * uniformPick n (drawWords d h x i).1, 8)) else []) ++
    (chosenPositions s d h x g t).flatMap (fun i =>
      [packedRun (g.addr + 32) (bits g.hdr 17 12) i, packedRun ts (bits g.hdr 23 18) i])

/-! ## De-duplication (R170, R171) -/

/-- A hop's insertions so far: the trail, and the nodes first seen in it as (die, node), in arrival order; in the table a
node first seen holds 2^40 + its place in that list + 1. -/
structure HopIns where
  trail : Trail
  fresh : List (Nat × Nat)
  spilled : List Nat
  deriving DecidableEq, Repr

/-- Entries at which a die's table stops inserting. -/
def dedupLimit (d : BitVec 1024) : Nat := sFld d 511 480 / 8 * 7 / 8

/-- One node arrives at its hash unit: its local index, or 2^40 + its place among the hop's new nodes. -/
def insertNode (r : HopIns) (node : Nat) : HopIns × Nat :=
  let t := r.trail
  let v := mget 0 t.table node
  if v ≠ 0 then (r, v - 1)
  else
    let die := Config.nodeDie node % 4
    let k := 2 ^ 40 + r.fresh.length
    if dedupLimit t.desc ≤ mget 0 t.counts die then
      ({ r with trail := { t with spills := t.spills + 1 }, fresh := r.fresh ++ [(die, node)], spilled := r.spilled ++ [die] }, k)
    else
      ({ r with
          trail := { t with table := mset 0 t.table node (k + 1), counts := mset 0 t.counts die (mget 0 t.counts die + 1) }
          fresh := r.fresh ++ [(die, node)] }, k)

/-- Inserts the nodes of a hop's slots in arrival order; answers by slot. -/
def insertAll (r : HopIns) (n : Nat) (slots : List (Nat × Nat)) : HopIns × Map Nat :=
  let order := sortBy (fun (a b : Nat × Nat) => decide (Config.arrival n a.1 < Config.arrival n b.1)) slots
  order.foldl (fun acc e =>
    let i := insertNode acc.1 e.2
    (i.1, mset 0 acc.2 e.1 (i.2 + 1))) (r, [])

/-- Places among the hop's new nodes in the order of their final indices: by die, then by arrival. A node that
found its table full has its place among the others (R170, R171; log 37, DESIGN CHOICE). -/
def finalOrder (fresh : List (Nat × Nat)) : List Nat :=
  (upFrom 0 4).flatMap (fun d => (upFrom 0 fresh.length).filter (fun k => (fresh.getD k (0, 0)).1 == d))

/-- The final local index of a provisional one. -/
def finalIndex (base : Nat) (order : List Nat) (v : Nat) : Nat :=
  if v < 2 ^ 40 then v else base + (posOf (· == v - 2 ^ 40) order).getD 0

/-- The hop's new nodes take their final local indices. -/
def settleTrail (t : Trail) (fresh : List (Nat × Nat)) : Trail :=
  let base := t.nodes.length
  let order := finalOrder fresh
  { t with
    nodes := t.nodes ++ order.map (fun k => (fresh.getD k (0, 0)).2)
    ends := t.ends ++ [base + fresh.length]
    table := t.table.map (fun e => (e.1, finalIndex base order (e.2 - 1) + 1)) }

/-- Writes the node-table entries of the nodes first seen at a hop; the bytes beyond the node count stay as they were (R172;
log 37, DESIGN CHOICE). -/
def writeNodes (s : State) (t : Trail) (base h : Nat) : State :=
  writeBytes s (trailAddr t + nodesAt t.desc + 8 * base)
    ((t.nodes.drop base).flatMap (fun n => toBytes 8 (n % 2 ^ 40 + h * 2 ^ 40)))

/-! ## Hops -/

/-- Places of the nodes of a trail in the de-duplication table of a die: their entries are found by a hash with linear
probing (log 9, DESIGN CHOICE). -/
def dedupPlaces (t : Trail) (die : Nat) : List (Nat × Nat) :=
  dirPlaces (sFld t.desc 511 480 / 8)
    (t.nodes.filter (fun n => mget 0 t.table n != 0 && Config.nodeDie n % 4 == die)).dedup

/-- The entries of nodes in the de-duplication tables change: as they are inserted, and as the table is cleared. Their
layout, and that of an empty entry, is not stated: 8 bytes of free value each (R170, R171; log 9, DESIGN CHOICE). -/
def fillDedup (s : State) (t : Trail) (nodes : List Nat) : State :=
  (upFrom 0 4).foldl (fun s die =>
    ((dedupPlaces t die).filter (fun x => nodes.contains x.1)).foldl (fun s x =>
      freeFill s (landAddr die (sFld t.desc 543 512 + 8 * x.2)) 8) s) s

/-- Replaces the running trail of a partition. -/
def putTrail (s : State) (t : Trail) : State :=
  putTrails s (s.trails.map (fun u => if u.part == t.part && u.running then t else u))

/-- Raises graph.dedup_full once per trail (R171). -/
def raiseFull (s : State) (t : Trail) (spilled : List Nat) : State × Trail :=
  let s := houndCtr s t.part 6 spilled.length
  match spilled.head? with
  | some d =>
    if t.fullRaised then (s, t)
    else (raise s 0x0803 t.part (houndUnit s t.part) [d, sFld t.desc 479 416], { t with fullRaised := true })
  | none => (s, t)

/-- Hop 0 closes: the seeds are inserted and the seed map written. -/
def closeSeeds (s : State) (t : Trail) : State :=
  let d := t.desc
  let seeds := (upFrom 0 (seedCount d)).map (fun i => readNat s (sFld d 895 832 + 16 * i) 16)
  let f := freshFree s
  let r := insertAll ⟨t, [], []⟩ f.1 ((upFrom 0 seeds.length).zip (seeds.map (fun e => bits e 63 0)))
  let order := finalOrder r.1.fresh
  let ids := (upFrom 0 seeds.length).map (fun i => finalIndex 0 order (mget 0 r.2 i - 1))
  let t := settleTrail r.1.trail r.1.fresh
  let x := raiseFull f.2 t r.1.spilled
  let t := { x.2 with
    hop := 1, seedTimes := seeds.map (fun e => bits e 127 64)
    insts := (ids.zip (seeds.map (fun e => bits e 127 64))).map some }
  let s := writeBytes x.1 (trailAddr t + seedMapOff)
    (ids.flatMap (toBytes 4) ++ toBytes (pad64 (4 * ids.length) - 4 * ids.length) 0)
  putTrail (fillDedup (writeNodes s t 0 0) t t.nodes) t

/-- An edge chosen for a slot: node number, parent, position, timestamp. -/
structure Edge where
  node : Nat
  parent : Nat
  pos : Nat
  ts : Nat
  deriving DecidableEq, Repr

/-- The reference time of the instance at slot index x (R167). -/
def instTime (t : Trail) (h x ts : Nat) : Nat :=
  let root := x / (slotsOf t.desc (h - 1) / max 1 (seedCount t.desc))
  if h = 1 || bits (hopWord t.desc h) 17 16 = 0 then t.seedTimes.getD root 0 else ts

/-- The slots of one instance. -/
def instSlots (s : State) (t : Trail) (h x : Nat) (inst : Option (Nat × Nat)) : List (Option Edge) × Option Expand :=
  let d := t.desc
  let f := hopFan d h
  match inst with
  | none => (List.replicate f none, none)
  | some (idx, ts) =>
    let e := expandNode s d h (t.nodes.getD idx 0)
    match e with
    | .seg g =>
      let l := (chosenPositions s d h x g (instTime t h x ts)).map (fun i => some (Edge.mk (segNode s g i) idx i (segTime s g i)))
      (l ++ List.replicate (f - l.length) none, none)
    | _ => (List.replicate f none, some e)

/-- The bytes of an edge entry. -/
def edgeBytes (node : Nat) : Option Edge → List Byte
  | none => toBytes 32 0xFFFFFFFF
  | some e => toBytes 32 (node % 2 ^ 32 + (e.parent % 2 ^ 32) * 2 ^ 32 + (e.pos % 2 ^ 32) * 2 ^ 64 + e.ts * 2 ^ 192)

/-- Hop h closes: its slots are drawn, inserted and written. -/
def closeHop (s : State) (t : Trail) (h : Nat) : State :=
  let d := t.desc
  let p := t.part
  let l := (t.insts.zip (upFrom 0 t.insts.length)).map (fun e => instSlots s t h e.2 e.1)
  let slots := l.flatMap Prod.fst
  let bads := l.filterMap Prod.snd
  let badNodes := (bads.filter (· == .badNode)).length
  let firstBad := ((t.insts.zip l).find? (fun e => e.2.2 == some .badNode)).bind (fun e => e.1.map Prod.fst)
  let full := (slots.zip (upFrom 0 slots.length)).filterMap (fun e => e.1.map (fun g => (e.2, g.node)))
  let f := freshFree s
  let r := insertAll ⟨t, [], []⟩ f.1 full
  let base := t.nodes.length
  let order := finalOrder r.1.fresh
  let idOf := fun i => finalIndex base order (mget 0 r.2 i - 1)
  let t' := settleTrail r.1.trail r.1.fresh
  let x := raiseFull f.2 t' r.1.spilled
  let s := houndCtr (houndCtr (houndCtr (houndCtr x.1 p 4 badNodes) p 5 (bads.length - badNodes)) p 2 full.length) p 3
    (slots.length - full.length)
  let s := match firstBad with
    | some i => if t.badRaised then s
                else raise s 0x0802 p (houndUnit s p) [t.nodes.getD i 0, sFld d 479 416]
    | none => s
  let t' := { x.2 with
    hop := h + 1, bad := t'.bad + bads.length, badRaised := t.badRaised || firstBad.isSome
    valid := t'.valid ++ [full.length]
    insts := (slots.zip (upFrom 0 slots.length)).map (fun e => e.1.map (fun g => (idOf e.2, g.ts))) }
  let s := writeBytes s (trailAddr t + edgesAt d (h - 1))
    ((slots.zip (upFrom 0 slots.length)).flatMap (fun e => edgeBytes (idOf e.2) e.1))
  putTrail (fillDedup (writeNodes s t' base h) t' (t'.nodes.drop base)) t'

/-- An instance that expands into a node: its slot index, its node and its time; none for an empty slot or a bad node. -/
def hopNode (t : Trail) (e : Option (Nat × Nat) × Nat) : Option (Nat × Nat × Nat) :=
  e.1.bind (fun x =>
    let node := t.nodes.getD x.1 0
    if sFld t.desc 703 640 ≤ node || 2 ^ 40 ≤ node then none else some (e.2, node, x.2))

/-- The runs of memory that a hop reads, level by level: the seeds; or each instance's offset entry, its segment's header and
its draws. -/
def hopRuns (s : State) (t : Trail) : List (List (Nat × Nat)) :=
  let d := t.desc
  let entry := fun (node : Nat) => sFld d 959 896 + 8 * node
  if t.hop = 0 then [[(sFld d 895 832, 16 * seedCount d)]]
  else
    let l := (t.insts.zip (upFrom 0 t.insts.length)).filterMap (hopNode t)
    [l.map (fun x => (entry x.2.1, 8)), l.map (fun x => (readNat s (entry x.2.1) 8, 32)),
      l.flatMap (fun x =>
        match expandNode s d t.hop x.2.1 with
        | .seg g => drawRuns s d t.hop x.1 g (instTime t t.hop x.1 x.2.2)
        | _ => [])]

/-- HOP_CLOSE (R170): the running trail of a partition closes its hop and signals hop_counter; it waits for lines that cannot
be read (R249, R251). -/
def execHopClose (p : Fin 16) (s : State) : Host.Outcome State Fault Refusal :=
  match s.trails.find? (fun t => t.part == p.val && t.running) with
  | none => .next s
  | some t =>
    if sHops t.desc < t.hop then .next s
    else
      .next (onceLevels s (if memClean s && domsUp s then [] else hopRuns s t) (fun s =>
        let s := if t.hop = 0 then closeSeeds s t else closeHop s t t.hop
        signalOne s p.val (sFld t.desc 575 544) (houndUnit s p.val)))

/-- TRAIL_COMPLETE (R171, R175): after the last hop, once every line of the trail is written and visible, the header is
completed, complete_counter is signalled, the de-duplication table is cleared, and the next trail of the partition begins. -/
def execTrailComplete (p : Fin 16) (s : State) : Host.Outcome State Fault Refusal :=
  match s.trails.find? (fun t => t.part == p.val && t.running) with
  | none => .next s
  | some t =>
    if t.hop ≤ sHops t.desc then .next s
    else
      .next (onceSettled s p.val (fun s =>
        let s := writeNat (houndCtr s p.val 1 1) (trailAddr t) 128 (trailHeader t 1)
        let s := signalOne (fillDedup s t t.nodes) p.val (sFld t.desc 607 576) (houndUnit s p.val)
        beginTrail (putTrails s (s.trails.filter (fun u => !(u.part == p.val && u.running)))) p.val))

/-- A restart abandons a partition's trails: the slot of the one that runs is left undefined (R176); one that has not begun
has written nothing. -/
def houndAbandon (s : State) (p : Nat) : State :=
  let l := s.trails.filter (fun t => t.part == p)
  let s := l.foldl (fun s t =>
    let s := houndCtr s p 7 1
    if t.running then fillDedup (freeFill s (trailAddr t) (trailSize t.desc)) t t.nodes else s) s
  putTrails (dropDoorbells s 0 p) (s.trails.filter (fun t => t.part != p))

end Sys2Proof.Machine
end

