-- ==== Sys2Proof/Machine/Plan.lean ====
section
/-! DEFINITION. Machine/Plan.lean: mask loads and the plans built from them (10 R211 to R217). -/

namespace Sys2Proof.Machine

/-- A counter of the sparsity object of a partition (R228). -/
def planCtr (s : State) (p sub n : Nat) : State := addCtr s (0x4600 + p) sub n

/-- Replaces the mask loads. -/
def putMasks (s : State) (l : List MaskLoad) : State := { s with masks := l }

/-- Replaces the plans built. -/
def putPlans (s : State) (l : List BuiltPlan) : State := { s with plans := l }

/-- Forgets the plans of a partition that is formed or dissolved. -/
def dropPlans (s : State) (p : Nat) : State := putPlans s (s.plans.filter (fun b => b.part != p))

/-! ## The mask descriptor (R211) -/

/-- Field of a mask descriptor. -/
def mFld (d : BitVec 512) (hi lo : Nat) : Nat := bits d.toNat hi lo

/-- The block size b. -/
def mBlock (d : BitVec 512) : Nat := if mFld d 5 4 = 0 then 16 else 32

/-- Lanes of a plan. -/
def mLanes (d : BitVec 512) : Nat := 128 / mBlock d

/-- Bytes that a plan area needs (R216). -/
def planNeed (d : BitVec 512) : Nat :=
  let lanes := mLanes d
  let br := mFld d 143 128; let bc := mFld d 159 144; let nnz := mFld d 191 160
  64 * (4 * (4 * ceilDiv br lanes + 1) + 4 * ceilDiv bc lanes + 1) + 256 * ceilDiv (br + ceilDiv nnz lanes) lanes +
    8 * nnz + 256

/-- Why a mask load is refused: the lowest code; none when it is accepted. An address outside the partition's interface
groups is outside its GDDR7 (R211, R233, R259; log 23, DEDUCED). -/
def maskRefusal (s : State) (p a : Nat) (d : BitVec 512) : Option Nat :=
  let br := mFld d 143 128; let bc := mFld d 159 144; let nnz := mFld d 191 160; let b := mBlock d
  if mFld d 3 0 ≠ 1 || 1 < mFld d 5 4 || mFld d 7 6 ≠ 0 || mFld d 11 9 ≠ 0 || mFld d 119 16 ≠ 0 ||
      !([1, 2, 3, 4, 8].contains (mFld d 15 12)) || !counterOk (mFld d 223 192) then some 1
  else if nnz = 0 || 16777216 < nnz || bc = 0 || 16384 < bc * b || br * b < 128 || 65536 < br * b || br * b % 128 ≠ 0 ||
      mFld d 127 120 = 0 || 64 < mFld d 127 120 then some 2
  else if mFld d 8 8 = 1 && !bitSet (settingAt s (1 + p) 0x3900 1) p then some 3
  else if mFld d 255 224 < planNeed d then some 4
  else if a % 64 ≠ 0 || mFld d 511 448 % 4 ≠ 0 || mFld d 447 384 % 4 ≠ 0 || mFld d 383 320 % 64 ≠ 0 ||
      mFld d 319 256 % 64 ≠ 0 || !([a, mFld d 511 448, mFld d 511 448 + 4 * br, mFld d 447 384,
        mFld d 447 384 + 4 * nnz - 1, mFld d 383 320, mFld d 319 256, mFld d 319 256 + mFld d 255 224 - 1].all (inGroups s p)) then
    some 5
  else if s.masks.any (fun m => m.part == p) then some 6
  else if partClosed s p then some 7
  else none

/-- A plan header (R216). -/
def planHeader (status kind nnz runF runT f t g dropped dup bad : Nat) : Nat :=
  1 + status * 2 ^ 4 + kind * 2 ^ 8 + nnz * 2 ^ 64 + (runF % 65536) * 2 ^ 96 + (runT % 65536) * 2 ^ 112 + f * 2 ^ 128 +
    t * 2 ^ 160 + g * 2 ^ 192 + dropped * 2 ^ 224 + dup * 2 ^ 256 + bad * 2 ^ 288

/-- The compute die of the partition's lowest tile group. -/
def planDie (s : State) (p : Nat) : Nat := (tilesOf (getPart s p)).headD 0 / 16

/-- A mask descriptor's address reaches the partition's doorbell: its load is refused, or accepted: its planner is enqueued
and the plan header says that it is being built (R211, R213, R216). -/
def maskStore (p a : Nat) (s : State) : State :=
  atDoorbell s 1 p a [[(a, 64)]] (fun s =>
  let d := BitVec.ofNat 512 (readNat s a 64)
  match maskRefusal s p a d with
  | some c => raise s 0x0603 p 0 [c]
  | none =>
    let s := writeNat (putMasks (wakeMem s p) (s.masks ++ [⟨p, d⟩])) (mFld d 319 256) 64 (planHeader 0 0 0 0 0 0 0 0 0 0 0xFFFFFFFF)
    (enqueue s (planDie s p) p .module true plannerItem).1)

/-- MASK_LOAD_DOORBELL (R211, R288): a work core stores a mask descriptor's address to the doorbell of partition p. -/
def execMaskLoadDoorbell (door : Door) (addr : BitVec 64) (s : State) : Host.Outcome State Fault Refusal :=
  .next (byCore s door.core.val door.part.val (maskStore door.part.val addr.toNat))

/-! ## The checks of the metadata (R212) -/

/-- A present block: list position, block-row, block-column. -/
structure Block where
  pos : Nat
  row : Nat
  col : Nat
  deriving DecidableEq, Repr

/-- `rowptr`. -/
def maskRows (s : State) (d : BitVec 512) : List Nat :=
  (upFrom 0 (mFld d 143 128 + 1)).map (fun r => readNat s (mFld d 511 448 + 4 * r) 4)

/-- `rowptr` starts at 0, never decreases and ends at `nnz`. -/
def rowsOk (d : BitVec 512) (rows : List Nat) : Bool :=
  rows.headD 1 == 0 && rows.getLastD 0 == mFld d 191 160 &&
    (rows.zip (rows.drop 1)).all (fun e => decide (e.1 ≤ e.2))

/-- Every list entry with its block-row. -/
def maskBlocks (s : State) (d : BitVec 512) (rows : List Nat) : List Block :=
  ((rows.zip (rows.drop 1)).zip (upFrom 0 rows.length)).flatMap (fun e =>
    (upFrom e.1.1 (e.1.2 - e.1.1)).map (fun q => ⟨q, e.2, readNat s (mFld d 447 384 + 4 * q) 4⟩))

/-- The first breach of native mode from an entry on, the entry before it being `prev`: (position, kind). -/
def nativeBreach (cols : Nat) : Option Block → List Block → Option (Nat × Nat)
  | _, [] => none
  | prev, b :: r =>
    let same := match prev with | some a => a.row == b.row | none => false
    let last := match prev with | some a => a.col | none => 0
    if cols ≤ b.col then some (b.pos, 2)
    else if same && b.col = last then some (b.pos, 4)
    else if same && b.col < last then some (b.pos, 3)
    else nativeBreach cols (some b) r

/-- Entries kept that repeat an earlier one of their block-row. -/
def repeats (l : List Block) : Nat :=
  (l.zip (upFrom 0 l.length)).foldl (fun n e =>
    if (l.take e.2).any (fun a => a.row == e.1.row && a.col == e.1.col) then n + 1 else n) 0

/-! ## Building the schedules (R214, R215) -/

/-- A run that a lane walks: block-row or block-column, first position, length. -/
structure Run where
  row : Nat
  start : Nat
  len : Nat
  deriving DecidableEq, Repr

/-- Cuts a list's positions into n runs, lengths differing by at most 1, longer first; `empty` starts an empty run. -/
def cutRuns (row empty : Nat) : Nat → List Nat → List Run
  | 0, _ => []
  | n + 1, l =>
    let k := ceilDiv l.length (n + 1)
    ⟨row, l.headD empty, k⟩ :: cutRuns row empty n (l.drop k)

/-- L of a plan. -/
def runMax (lanes rows nnz : Nat) : Nat := max 1 (ceilDiv nnz (lanes * ceilDiv rows lanes))

/-- The runs of each row: (position of its list, positions). -/
def rowRuns (big : Nat) (rows : List (Nat × List Nat)) : List (List Run) :=
  (rows.zip (upFrom 0 rows.length)).map (fun e =>
    cutRuns e.2 e.1.1 (max 1 (ceilDiv e.1.2.length big)) e.1.2)

/-- A plan tile: its lanes' runs, and whether the next continues it. -/
structure PlanTile where
  runs : List Run
  chain : Bool
  deriving DecidableEq, Repr

/-- Runs dealt to whole tiles of lanes. -/
def dealTiles (lanes : Nat) : Nat → List Run → List PlanTile
  | 0, _ => []
  | n + 1, l => ⟨l.take lanes, decide (lanes < l.length)⟩ :: (if l.length ≤ lanes then [] else dealTiles lanes n (l.drop lanes))

/-- Closed tiles and the open tile's runs after a row's runs are placed. -/
def placeRuns (lanes : Nat) (acc : List PlanTile × List Run) (l : List Run) : List PlanTile × List Run :=
  if l.length ≤ lanes then
    if lanes - acc.2.length < l.length then (acc.1 ++ [⟨acc.2, false⟩], l) else (acc.1, acc.2 ++ l)
  else
    let closed := if acc.2.isEmpty then acc.1 else acc.1 ++ [⟨acc.2, false⟩]
    (closed ++ dealTiles lanes l.length l, [])

/-- The plan tiles of a schedule. -/
def planTiles (lanes : Nat) (runs : List (List Run)) : List PlanTile :=
  let r := runs.foldl (placeRuns lanes) ([], [])
  if r.2.isEmpty then r.1 else r.1 ++ [⟨r.2, false⟩]

/-- A plan tile's record (R217). -/
def tileRecord (t : PlanTile) : List Byte :=
  let lane := fun (i : Nat) (r : Run) =>
    let before := if i = 0 then none else t.runs[i - 1]?
    let cont := match before with | some b => b.row == r.row | none => false
    r.start % 2 ^ 32 + (r.len % 4096) * 2 ^ 32 + (r.row % 65536) * 2 ^ 44 + (if cont then 2 ^ 60 else 0) +
      (if i = 0 && t.chain then 2 ^ 62 else 0)
  let es := (t.runs.zip (upFrom 0 t.runs.length)).map (fun e => lane e.2 e.1)
  (upFrom 0 8).flatMap (fun i => toBytes 8 (es.getD i 0))

/-- A list in pieces of at most n. -/
def pieces {α : Type} (n : Nat) : Nat → List α → List (List α)
  | 0, _ => []
  | k + 1, l => if l.isEmpty then [] else l.take n :: pieces n k (l.drop n)

/-- The G tiles: lanes of cells (R215). -/
def gTiles (lanes : Nat) (rows : List (Nat × List Nat)) : List (List (List Nat)) :=
  let slots := rows.flatMap (fun r => pieces lanes r.2.length r.2)
  pieces lanes slots.length slots

/-- A G record (R217). -/
def gRecord (t : List (List Nat)) : List Byte :=
  (upFrom 0 8).flatMap (fun l => (upFrom 0 8).flatMap (fun c => toBytes 4 ((t.getD l []).getD c 0xFFFFFFFF)))

/-! ## The planner -/

/-- A mask whose metadata is at fault: the header alone is written. -/
def failPlan (s : State) (p : Nat) (d : BitVec 512) (bad kind : Nat) : State :=
  let s := writeNat s (mFld d 319 256) 64 (planHeader 2 kind 0 0 0 0 0 0 0 0 bad)
  raise (planCtr s p 2 1) 0x0601 p 0 [bad, kind]

/-- The plan of a sound mask: header, F, T and G records, T index; what it was built from is kept beside it (log 82,
DEDUCED). -/
def writePlan (s : State) (p : Nat) (d : BitVec 512) (rows : List Nat) (kept : List Block) (dropped : Nat) : State :=
  let lanes := mLanes d
  let br := mFld d 143 128; let bc := mFld d 159 144
  let dup := if mFld d 8 8 = 1 then repeats kept else 0
  let byRow := (upFrom 0 br).map (fun r =>
    (rows.getD r 0, (kept.filter (fun b => b.row == r)).map Block.pos))
  let cols := (upFrom 0 bc).map (fun c => kept.filter (fun b => b.col == c))
  let tIndex := cols.flatten
  let byCol := (cols.foldl (fun (acc : Nat × List (Nat × List Nat)) l =>
    (acc.1 + l.length, acc.2 ++ [(acc.1, upFrom acc.1 l.length)])) (0, [])).2
  let lf := runMax lanes br kept.length
  let lt := runMax lanes bc kept.length
  let f := planTiles lanes (rowRuns lf byRow)
  let t := planTiles lanes (rowRuns lt byCol)
  let g := gTiles lanes byRow
  let hd := planHeader 1 0 kept.length lf lt f.length t.length g.length dropped dup 0xFFFFFFFF
  let s := putPlans s (⟨p, hd, mBlock d, rows,
    [f.map (ofBytes ∘ tileRecord), t.map (ofBytes ∘ tileRecord), g.map (ofBytes ∘ gRecord)]⟩ :: s.plans)
  let s := writeBytes s (mFld d 319 256)
    (toBytes 64 hd ++ f.flatMap tileRecord ++ t.flatMap tileRecord ++ g.flatMap gRecord ++
      tIndex.flatMap (fun b => toBytes 8 (b.pos + b.row * 2 ^ 32)))
  planCtr (planCtr (planCtr s p 1 1) p 3 dropped) p 4 dup

/-- The checks and the plan of a mask load. -/
def buildPlan (s : State) (p : Nat) (d : BitVec 512) : State :=
  let rows := maskRows s d
  if !rowsOk d rows then
    -- no list position is stated for a breach of rowptr: a free value (log 23, DEDUCED)
    let f := freshFree s
    failPlan f.2 p d (f.1 % 2 ^ 32) 1
  else
    let all := maskBlocks s d rows
    let bc := mFld d 159 144
    if mFld d 8 8 = 0 then
      match nativeBreach bc none all with
      | some (q, k) => failPlan s p d q k
      | none => writePlan s p d rows all 0
    else
      let kept := all.filter (fun b => decide (b.col < bc))
      let dropped := all.length - kept.length
      let s := if dropped = 0 then s else raise s 0x0602 p 0 [dropped]
      writePlan s p d rows kept dropped

/-- The planner's item of a partition that a core runs. -/
def runningPlanner (s : State) (p : Nat) : Option Item :=
  s.sched.items.find? (fun i => i.part == p && i.desc == plannerItem && i.state == 3)

/-- PLAN_BUILT (R212, R213): the planner of a partition's mask load, running on a core, finishes: it returns and done_counter
is signalled. It waits for mask arrays that cannot be read (R249, R251). -/
def execPlanBuilt (p : Fin 16) (s : State) : Host.Outcome State Fault Refusal :=
  match s.masks.find? (fun m => m.part == p.val), runningPlanner s p.val with
  | some m, some i =>
    let d := m.desc
    .next (onceRead s [(mFld d 511 448, 4 * (mFld d 143 128 + 1)), (mFld d 447 384, 4 * mFld d 191 160)] (fun s =>
      let s := buildPlan (putMasks s (s.masks.filter (· != m))) p.val d
      signalOne (freeCore s i.core i) p.val (mFld d 223 192) (coreUnit s i.core)))
  | _, _ => .next s

/-- A restart abandons a running load: its plan area is left undefined (R213). -/
def maskAbandon (s : State) (p : Nat) : State :=
  let l := s.masks.filter (fun m => m.part == p)
  let s := l.foldl (fun s m => freeFill (planCtr s p 5 1) (mFld m.desc 319 256) (mFld m.desc 255 224)) s
  putMasks (dropDoorbells s 1 p) (s.masks.filter (fun m => m.part != p))

end Sys2Proof.Machine
end

