-- ==== Sys2Proof/Machine/Power.lean ====
section
/-! DEFINITION. Machine/Power.lean: input, hold-up store, power domains, the power cap and thermal limits (18 R411 to
R434). -/

namespace Sys2Proof.Machine

/-! ## Domains (R414 to R418) -/

/-- Class of a domain: 0 TG and SP, 1 FAB, 2 MEM, 3 ETH, 4 NETC, 5 MGMT, 6 DBG. -/
def domClass (i : Nat) : Nat :=
  if i < 20 then 0 else if i < 24 then 1 else if i < 28 then 2 else if i < 44 then 3 else if i < 46 then 4
  else if i = 46 then 5 else 6

/-- The class has a state: DOZE all, NAP the first three, SLEEP the first five (R414). -/
def hasState (cls st : Nat) : Bool :=
  match st with
  | 1 => true
  | 2 => decide (cls ≤ 2)
  | 3 => decide (cls ≤ 4)
  | _ => false

/-- The tiles of a TG or SP domain, by logical number: a spare covers the tile that it serves (R414). -/
def domTiles (s : State) (i : Nat) : List Nat := (upFrom 0 64).filter (fun t => tilePresent s t && tileDom s t == i)

/-- A tile does nothing but wait, and no access to its stores is held up (R417); `deep` also asks for EMPTY accumulator
sets. -/
def tileIdle (s : State) (t : Nat) (deep : Bool) : Bool :=
  let v := getTile s t
  v.inflight.all (fun i => match i.why with | .watch _ => true | _ => false) &&
    v.waiting.all (fun q => !startable v q) && v.shadow.state != .draining &&
    (!deep || (v.active.state == .empty && v.shadow.state == .empty)) &&
    s.memErr.parked.all (fun r => decide (r.line < tileAddr t 0) || decide (tileAddr t storeBytes ≤ r.line))

/-- A memory die's engines or interfaces serve a partition (R16, R233). -/
def onMemDie (s : State) (p d : Nat) : Bool :=
  (memDiesOf (getPart s p)).contains d || (serveDies s p).contains d

/-- Nothing is pending at a hub (R417): no signal, registration or whistle, none held there. -/
def hubIdle (s : State) (d : Nat) : Bool :=
  s.sync.signals.all (fun g => hubOf g.ctr != d) && s.sync.registering.all (fun w => hubOf w.ctr != d) &&
    s.sync.slotWaits.all (fun w => hubOf w.ctr != d) && s.sync.whistles.all (fun x => hubOf x.w.ctr != d) &&
    s.sync.held.all (fun h => hubOf h.ctr != d) && s.sync.kept.all (fun h => hubOf h.ctr != d)

/-- No LOAD of a tile is in flight from a memory die: a row's ends tell where it lies. -/
def loadsClear (v : Tile) (d : Nat) : Bool :=
  v.inflight.all (fun i => i.why != .load ||
    let c := copyOf i.q.w i.desc
    (upFrom 0 c.rows).all (fun r =>
      let a := c.far + r * c.farStride
      poisonDie a != d && poisonDie (a + c.farLen - 1) != d))

/-- Nothing is queued or in flight at a memory die's controllers and engines, and no copy or migration is due (R417). -/
def memDieIdle (s : State) (d : Nat) : Bool :=
  s.retr.reqs.all (fun r => !onMemDie s r.part d) && s.trails.all (fun t => !onMemDie s t.part d) &&
    s.masks.all (fun m => !onMemDie s m.part d) && s.upd.cmds.all (fun c => c.die != d) &&
    s.retr.hot.all (fun h => h.die != d || h.st == 2) && s.retr.adds.all (fun a => !onMemDie s a.part d) &&
    s.retr.deferred.all (fun x => x.die != d) && s.memErr.copying.all (fun a => a / 2 ^ 37 / 5 != d) &&
    s.memErr.parked.all (fun r => poisonDie r.line != d) && s.memErr.refilling.all (fun r => poisonDie r.1 != d) &&
    s.memErr.waiting.all (fun l => poisonDie l != d) && s.memErr.seeking.all (fun r => poisonDie r.1 != d) &&
    s.lft.landing.all (fun x => poisonDie x.2.addr != d) && s.lft.asked.all (fun x => poisonDie x.2.1.addr != d) &&
    s.sched.doorbells.all (fun x => !onMemDie s x.2.1 d) && s.tiles.all (fun e => loadsClear e.2 d) &&
    s.place.all (fun e => e.2.issues.all (fun i => i.landed || i.released) || !onMemDie s e.1 d)

/-- Network die of a path (R358): ports E0 to E7 are N0's. -/
def pathDie (path : Nat) : Nat := path / 64

/-- The domain is idle (R417). -/
def domIdle (s : State) (i : Nat) (deep : Bool) : Bool :=
  match domClass i with
  | 0 =>
    (domTiles s i).all (fun t => tileIdle s t deep) &&
      s.units.testing.all (fun ph => physDom ph != i)
  | 1 =>
    let d := i - 20
    hubIdle s d && s.sched.items.all (fun x => x.die != d || x.state == 1) && s.sched.held.all (fun h => h.die != d)
  | 2 => memDieIdle s (i - 24)
  | 3 => s.lft.out.all (fun o => o.path / 8 != i - 28)
  | 4 =>
    let n := i - 44
    s.lft.flows.all (fun e => e.2.sendq.isEmpty && e.2.unacked.all (fun o => pathDie o.path != n)) &&
      s.lft.out.all (fun o => pathDie o.path != n) && s.lft.reductions.isEmpty && s.lft.reads.isEmpty && s.lft.asked.isEmpty
  | 5 => true
  | _ => s.trace.state == 0

/-- Deepest state that a timer reaches in a TG domain, by its partition's state. -/
def floorOfPart : PartState → Nat
  | .running | .preempted => 2
  | .stopped => 3
  | .unformed => 3
  | _ => 1

/-- Some partition is formed. -/
def anyFormed (s : State) : Bool := (upFrom 0 16).any (fun p => isFormed (getPart s p))

/-- The deepest state that an idle timer may reach (R418). -/
def domFloor (s : State) (i : Nat) : Nat :=
  match domClass i with
  | 0 =>
    let g := if i < 16 then some i else (domTiles s i).head?.map (· / 4)
    match g.bind (partOfGroup s) with
    | some p => floorOfPart (getPart s p).state
    | none => 3
  | 1 =>
    let d := i - 20
    let awake := fun (k : Nat) => decide (getDom s k ≤ 1)
    if (upFrom (4 * d) 4).any awake || awake (16 + d) || awake (24 + d) then 1
    else if s.sync.counters.any (fun e => hubOf e.1 == d && e.2.state != 0) ||
        (upFrom 0 16).any (fun p => isFormed (getPart s p) && !(coresOn s p d).isEmpty) then 2
    else 3
  | 2 => if anyFormed s then 2 else 3
  | 3 =>
    let p := i - 28
    if s.ports.links.any (fun l => l / 8 == p && bitSet (setting s (0x5000 + 16 * p) 2) (l % 8)) then 1 else 3
  | 4 => if s.lft.peers.any (fun e => peerOn s e.1) then 1 else 3
  | _ => 1

/-- A domain that was not idle since its timers changed takes them (R433, R464). -/
def takeTimers (s : State) (i : Nat) : State :=
  if s.power.resting.contains i || !domIdle s i false then s
  else takeSettings s (i + 1) [0x2100 + domClass i]

/-- The domains still idle since their timers changed, and the others that are idle now take theirs (R433, R464). -/
def timerTick (s : State) : State :=
  let s := if s.power.resting.isEmpty then s
    else putPower s { s.power with resting := s.power.resting.filter (fun i => domIdle s i false) }
  if s.settings.held.any (fun e => decide (0x2100 ≤ e.1 % 2 ^ 24 / 256) && decide (e.1 % 2 ^ 24 / 256 ≤ 0x2106)) then
    (upFrom 0 48).foldl takeTimers s
  else s

/-- Commits a domain to entering a state (R421): it takes the retention settings (R433), and a deeper state's timer may
still have expired (R416). -/
def commitEntry (s : State) (i st : Nat) : State :=
  let b := mget 0 s.power.blocked i
  let s := takeSetting (takeSetting s (i + 1) 0x2002 (i + 1)) (i + 1) 0x2003 (i + 1)
  putPower s { s.power with
    entering := mset 0 s.power.entering i st, blocked := mset 0 s.power.blocked i (b - b % 2 ^ (st + 1)) }

/-- IDLE_TIMER_EXPIRY (R416, R418): the timer of state st of an idle domain expires: entry is committed, or waits for the
floor or for the end of another entry. -/
def execIdleTimerExpiry (i : Fin 48) (st : Fin 4) (s : State) : Host.Outcome State Fault Refusal :=
  let d := i.val
  let k := st.val
  let s := takeTimers s d
  if !hasState (domClass d) k || settingAt s (d + 1) (0x2100 + domClass d) k = 0 || !domIdle s d (decide (2 ≤ k)) ||
      s.power.exiting.contains d || k ≤ max (getDom s d) (mget 0 s.power.entering d) then .next s
  else if domFloor s d < k || (mfind s.power.entering d).isSome then
    .next (putPower s { s.power with blocked := mset 0 s.power.blocked d (mget 0 s.power.blocked d ||| 2 ^ k) })
  else .next (commitEntry s d k)

/-- A domain's expired timers that wait: those of a spell that has ended are gone, else the deepest state that the floor
allows is entered (R416). -/
def retryDomain (s : State) (d : Nat) : State :=
  let b := if !domIdle s d false then 0 else if !domIdle s d true then mget 0 s.power.blocked d % 4
    else mget 0 s.power.blocked d
  let s := putPower s { s.power with blocked := mset 0 s.power.blocked d b }
  if (mfind s.power.entering d).isSome then s
  else match ((upFrom 1 3).filter (fun k => bitSet b k && decide (k ≤ domFloor s d) && decide (getDom s d < k))).getLast? with
    | none => s
    | some k => commitEntry s d k

/-- States that the floor forbade are entered when it allows them, if the domain is still idle (R416). -/
def retryBlocked (s : State) : State := (s.power.blocked.map Prod.fst).foldl retryDomain s

/-- DOMAIN_WAKE (R420, R421): a request, packet, whistle or frame reaches a domain. -/
def execDomainWake (i : Fin 48) (s : State) : Host.Outcome State Fault Refusal := .next (wakeDomain s i.val)

/-! ## What an entry loses (R423, R424) -/

/-- Buffers of a tile that NAP does not retain: panels, sparse and side buffers, marked empty. -/
def dropBuffers (v : Tile) : Tile := { v with panels := [], halves := [] }

/-- Zeroes the tile-store bank groups of a tile that a mask does not name. -/
def dropBanks (s : State) (t mask : Nat) : State :=
  (upFrom 0 6).foldl (fun s g =>
    if bitSet mask g then s else zeroRange s (tileAddr t (0x400000 * g)) (tileAddr t (0x400000 * (g + 1)))) s

/-- A landing-store bank group overlaps a formed partition's share. -/
def groupShared (s : State) (g : Nat) : Bool :=
  (upFrom 0 16).any (fun p =>
    let q := getPart s p
    isFormed q && decide (q.landFirst < 256 * (g + 1)) && decide (256 * g < q.landFirst + q.landCount))

/-- Zeroes the landing-store bank groups of a die that a mask does not name and no share overlaps. -/
def dropLanding (s : State) (d mask : Nat) (shared : Bool) : State :=
  (upFrom 0 8).foldl (fun s g =>
    if bitSet mask g || (shared && groupShared s g) then s
    else zeroRange s (landAddr d (0x1000000 * g)) (landAddr d (0x1000000 * (g + 1)))) s

/-- What the controllers of a memory die know of its lines and scrubs is forgotten. -/
def dropErrors (s : State) (d : Nat) : State :=
  let out := fun (l : Nat) => poisonDie l != d
  putMemErr s { s.memErr with
    poison := s.memErr.poison.filter out, waiting := s.memErr.waiting.filter out
    seeking := s.memErr.seeking.filter (fun r => out r.1), refilling := s.memErr.refilling.filter (fun r => out r.1)
    delivered := s.memErr.delivered.filter out, scrubbed := mdel s.memErr.scrubbed d
    corrected := s.memErr.corrected.filter (fun c => out c.1) }

/-- What NAP loses (R423). -/
def napLoss (s : State) (i : Nat) : State :=
  let mask := settingAt s (i + 1) 0x2002 (i + 1)
  match domClass i with
  | 0 => (domTiles s i).foldl (fun s t => dropBanks (putTile s t (dropBuffers (getTile s t))) t mask) s
  | 2 => dropLanding s (i - 24) mask true
  | _ => s

/-- The SRAM of a compute die's fabric is lost: hub counters and watch slots, scheduler slots, the cores with their local
SRAM (R414, R424). -/
def fabLoss (s : State) (d : Nat) : State :=
  let s := putSync s { s.sync with
    counters := mdrop (fun n => hubOf n == d) s.sync.counters, armed := s.sync.armed.filter (fun w => hubOf w.ctr != d) }
  putSched s { s.sched with
    items := s.sched.items.filter (fun x => x.die != d), cores := mdrop (fun c => c / 24 == d) s.sched.cores
    sram := mdrop (fun k => k / 2 ^ 20 / 24 == d) s.sched.sram, loaded := s.sched.loaded.filter (fun x => x.1 / 24 != d) }

/-- An optic whose cage loses its power: it stays in its cage, its flags and readings gone, in low power when the cage is
powered again (R362, R447, R479). -/
def coldOptic (o : Optic) : Optic :=
  { Optic.reset with
    medium := o.medium, state := if o.medium = 2 then 1 else o.state, powerMw := o.powerMw, apps := o.apps
    vendor := o.vendor, part := o.part, serial := o.serial }

/-- A port's links are down; unsaved, its port and CMIS state are as after its reset (R424): the optic in its cage stays
there, in low power. -/
def ethLoss (s : State) (p : Nat) (saved : Bool) : State :=
  let s := putPorts s { s.ports with links := s.ports.links.filter (fun l => l / 8 != p) }
  if saved then s
  else
    let o := mget Optic.reset s.ports.optics p
    let s := putPorts s { s.ports with
      downs := s.ports.downs.filter (fun e => e.1 / 8 != p), holding := s.ports.holding.filter (fun l => l / 8 != p)
      paused := s.ports.paused.filter (fun x => x / 64 != p), ignored := s.ports.ignored.filter (fun x => x / 64 != p) }
    putPorts s { s.ports with optics := mset Optic.reset s.ports.optics p (coldOptic o) }

/-- Both LFT engines lose their flows, ledger and reductions; unsaved, their peer and window tables too (R424). The flows
of a peer use the paths of both engines, so that one engine that stays awake keeps them (log 101, DESIGN CHOICE). -/
def netLoss (s : State) (i : Nat) (saved : Bool) : State :=
  if getDom s (89 - i) < 3 then s
  else
    let l := s.lft
    putLft s { Lft.reset with
      incarnation := l.incarnation, nextId := l.nextId
      peers := if saved then l.peers else [], windows := if saved then l.windows else [] }

/-- What SLEEP loses (R424): all SRAM, and without sleep_save the domain's control state. -/
def sleepLoss (s : State) (i : Nat) : State :=
  let saved := decide (settingAt s (i + 1) 0x2003 (i + 1) ≠ 0)
  match domClass i with
  | 0 => (domTiles s i).foldl (fun s t =>
      dropBanks (if saved then putTile s t (dropBuffers (getTile s t)) else discardTile s t Tile.reset) t 0) s
  | 1 => fabLoss s (i - 20)
  | 2 =>
    let s := dropLanding s (i - 24) 0 false
    if saved then s else dropErrors s (i - 24)
  | 3 => ethLoss s (i - 28) saved
  | 4 => netLoss s i saved
  | _ => s

/-- The entry of a domain completes with what the state loses; the answer says whether a wake was held (R421). -/
def completeEntry (s : State) (i st : Nat) : State :=
  let s := setDom s i st
  let s := addCtr s (0x4E00 + i) (5 + st) 1
  let s := if st = 2 then napLoss s i else if st = 3 then sleepLoss s i else s
  putPower s { s.power with entering := mdel s.power.entering i, woken := s.power.woken.filter (· != i) }

/-- STATE_ENTRY_DONE (R421): a held wake starts the exit at once. -/
def execStateEntryDone (i : Fin 48) (s : State) : Host.Outcome State Fault Refusal :=
  match mfind s.power.entering i.val with
  | none => .next s
  | some st =>
    let raced := s.power.woken.contains i.val
    let s := completeEntry s i.val st
    .next (if raced then wakeDomain s i.val else s)

/-- Puts a domain into a state, OFF or ACTIVE, for its partition or its unit: an entry under way is never abandoned
partway, so it completes first, with all that its state loses (R415, R421). -/
def switchDom (s : State) (i st : Nat) : State :=
  forceDom (match mfind s.power.entering i with
    | some k => completeEntry s i k
    | none => s) i st

/-- Unit numbers in a domain (R422). -/
def domUnits (s : State) (i : Nat) : List Nat :=
  if i < 20 then domTiles s i
  else if i < 24 then (upFrom (24 * (i - 20)) 24).map (unitNo 1)
  else if i < 28 then
    (upFrom (8 * (i - 24)) 8).map (unitNo 2) ++ (upFrom (16 * (i - 24)) 16).map (unitNo 3) ++
      [unitNo 4 (i - 24), unitNo 5 (i - 24)]
  else []

/-- STATE_EXIT_DONE (R420 to R422): the domain is ACTIVE; the miss counts of its units start again, and the requests to
its stores that were held are delivered in arrival order. -/
def execStateExitDone (i : Fin 48) (s : State) : Host.Outcome State Fault Refusal :=
  if s.power.exiting.contains i.val then
    let s := setDom s i.val 0
    let s := putPower s { s.power with exiting := s.power.exiting.filter (· != i.val) }
    .next (serveParked (putUnits s { s.units with
      misses := mdrop (fun u => (domUnits s i.val).contains u) s.units.misses }))
  else .next s

/-! ## Loss of the switched domains (R412, R432, R445, R447) -/

/-- Everything that lives in switched domains is gone: memory, tiles, partitions, hubs, schedulers, memory-side engines,
flows, links and tracing. Flash, kennel, settings, time and the management complex stay. -/
def wipe (s : State) : State :=
  { s with
    mem := [], tiles := [], parts := [], sync := .reset, sched := .reset, place := [], retr := .reset, upd := .reset
    trails := [], trailSlots := [], masks := [], plans := [], bankReply := 3, trace := { state := 0, records := 0, lost := 0 }
    lft := { Lft.reset with incarnation := s.lft.incarnation }
    ports := { Ports.reset with optics := s.ports.optics.map (fun e => (e.1, coldOptic e.2)) }
    memErr := { MemErr.reset with
      failedIf := s.memErr.failedIf, retiredPages := s.memErr.retiredPages, spareUsed := s.memErr.spareUsed, spareLines := s.memErr.spareLines }
    units := { s.units with misses := [], dead := [], testing := [], switched := [], owed := [] } }

/-- Every switched domain is OFF, but MGMT where `mgmt` is set (R412, R415, R432). -/
def domainsOff (s : State) (mgmt : Bool) : State :=
  putPower s { s.power with
    dom := (upFrom 0 48).filterMap (fun i => if i = 46 && mgmt then none else some (i, 4)), entering := [], exiting := []
    woken := [], blocked := [], resting := [] }

/-- Replaces the start-up record. -/
def putDev (s : State) (v : Dev) : State := { s with dev := v }

/-- Step 1 of a cold start (R438): lastReset 0 when the input came last, 1 when PWR_EN did. -/
def beginCold (s : State) (why : Nat) : State :=
  putDev (putPower s { s.power with faulted := false, stage := 0 }) { s.dev with
    phase := .powered, warm := false, lastReset := why, startAo := s.ao, steps := 0, stepMs := [], readyMs := 0, resetDue := 0
    begun := false }

/-- Time of a step of the start, from step 1 (R448). -/
def stampStep (s : State) (k : Nat) : State :=
  putDev s { s.dev with stepMs := mset 0 s.dev.stepMs k ((s.ao - s.dev.startAo) / 100000) }

/-- A step that bit b of `steps` stands for is done: 7, 8, 10, 11. -/
def stepDone (s : State) (b k : Nat) : State :=
  if s.dev.phase = .bringup && !bitSet s.dev.steps b then
    stampStep (putDev s { s.dev with steps := s.dev.steps ||| 2 ^ b }) k
  else s

/-- Writes a boot record that names a slot into the copy with the lower sequence number (R494). -/
def writeBootRecord (v : Firmware) (slot : Nat) : Firmware :=
  let n := max v.boot0.1 v.boot1.1 + 1
  if v.boot0.1 ≤ v.boot1.1 then { v with boot0 := (n, slot), active := slot }
  else { v with boot1 := (n, slot), active := slot }

/-- The flash writes of an activation that has begun complete: they run on whatever happens (R412 step 3, R499). -/
def finishFlash (s : State) : State :=
  if s.fw.update = 4 then { s with fw := { writeBootRecord s.fw s.fw.target with update := 0 } } else s

/-- The shutdown of R412 from step 2: a flash write under way completes, and MGMT stays for the kennel save. -/
def shutDown (s : State) : State :=
  let s := domainsOff (wipe (finishFlash s)) true
  putPower (putDev s { s.dev with phase := .saving }) { s.power with holdupAt := s.ao }

/-! ## The hold-up store (R413) -/

/-- AO cycles in which the hold-up load of 20 W takes 1 % of 60 J: 30 ms. -/
def drainCycles : Nat := 3000000

/-- AO cycles in which the store gains 1 % from 85 % up: the 2 s between its two times, for 15 % (log 24, DEDUCED). -/
def chargeCycles : Nat := 13333333

/-- The charge of the hold-up store moves by 1 % as its time comes: down while it carries the kennel save, up from 85 % to
full while the input is in range (R413). -/
def holdupTick (s : State) : State :=
  let v := s.power
  if s.dev.phase = .saving then
    if v.holdupAt + drainCycles ≤ s.ao then putPower s { v with holdup := v.holdup - 1, holdupAt := s.ao } else s
  else if 85 ≤ v.holdup && v.holdup < 100 && s.dev.inputOk && decide (v.holdupAt + chargeCycles ≤ s.ao) then
    putPower s { v with holdup := v.holdup + 1, holdupAt := s.ao }
  else s

/-! ## Input (R411 to R413) -/

/-- Consecutive samples, 10 µs apart, that span a time (log 24, DEDUCED). -/
def spanSamples (us : Nat) : Nat := us / 10 + 1

/-- Sum of mV times mA over the samples of the last 1 ms, and their number. -/
def inputSum (s : State) : Nat × Nat :=
  (sumOf (s.power.samples.map (fun x => x.1 * x.2)), s.power.samples.length)

/-- P in mW (R428). -/
def inputMw (s : State) : Nat := let x := inputSum s; x.1 / 1000 / max 1 x.2

/-- P in W. -/
def inputW (s : State) : Nat := inputMw s / 1000

/-- The module is powered. -/
def poweredOn (s : State) : Bool := s.dev.phase != .off && s.dev.phase != .saving

/-- Sets the module stage; a rise is raised and counted (R427, R428). -/
def setStage (s : State) (st : Nat) : State :=
  let up := decide (s.power.stage < st)
  let s := putPower s { s.power with stage := st, overCap := 0, underCap := 0, sinceStep := 0 }
  if up then raise (addCtr s 0x4F00 5 1) 0x0104 0xFF 0 [st, inputW s] else s

/-- The bands of an input voltage (R411): the low and the high band raise their event once on entry. -/
def inputBands (s : State) (mv : Nat) : State :=
  let low := decide (39000 ≤ mv) && decide (mv < 40500)
  let high := decide (54000 < mv) && decide (mv ≤ 56000)
  let s' := putPower s { s.power with lowBand := low, highBand := high }
  let s' := if low && !s.power.lowBand then raise s' 0x0101 0xFF 0 [mv] else s'
  if high && !s.power.highBand then raise s' 0x0102 0xFF 0 [mv] else s'

/-- The cause of an input fault that the latest samples show (R411): 1 under, 2 over voltage, 3 over current; 0 none. -/
def inputCause (s : State) : Nat :=
  let v := s.power
  if spanSamples 20 ≤ v.lowRun then 1 else if 56000 < v.mv then 2 else if spanSamples 100 ≤ v.overRun then 3 else 0

/-- A cold start may begin (R412, R435): PWR_EN is high and the input within 40.0 V to 54.0 V, for 100 ms where an input
fault took the module down. -/
def mayStart (s : State) : Bool :=
  s.dev.pwrEn && s.dev.inputOk && (!s.power.faulted || decide (spanSamples 100000 ≤ s.power.okRun))

/-- INPUT_SAMPLE (R411, R412, R435): input voltage in mV and current in mA, every 10 µs. -/
def execInputSample (mv ma : BitVec 32) (s : State) : Host.Outcome State Fault Refusal :=
  let v := mv.toNat
  let a := ma.toNat
  let l := s.power.samples ++ [(v, a)]
  let s := putPower s { s.power with
    mv := v, ma := a, samples := l.drop (l.length - 100)
    lowRun := if v < 39000 then s.power.lowRun + 1 else 0
    overRun := if 120000 < a then s.power.overRun + 1 else 0 }
  let ok := decide (40000 ≤ v) && decide (v ≤ 54000)
  let s := putPower s { s.power with okRun := if ok then s.power.okRun + 1 else 0 }
  let last := if ok && !s.dev.inputOk && !poweredOn s then 0 else s.dev.lastReset
  let s := putDev s { s.dev with inputOk := ok, lastReset := last }
  if !poweredOn s then .next (if s.dev.phase = .off && mayStart s then beginCold s last else s)
  else
    let s := inputBands s v
    let c := inputCause s
    let s := if c ≠ 0 && s.power.faultCause = 0 then
        putPower s { s.power with faultCause := c, faultValue := if c = 3 then a else v }
      else s
    let total := sumOf (s.power.samples.map Prod.snd)
    .next (if s.power.samples.length = 100 && decide (110000 * 100 < total) && decide (s.power.stage < 3)
      then setStage s 3 else s)

/-- INPUT_FAULT (R412): the fault that the samples showed: raised, every switched domain except MGMT OFF, T0 and T1
lost; the hold-up store carries the kennel save. -/
def execInputFault (s : State) : Host.Outcome State Fault Refusal :=
  if s.power.faultCause = 0 || !poweredOn s then .next s
  else
    let s := raise (addCtr s 0x4F00 7 1) 0x0103 0xFF 0 [s.power.faultCause, s.power.faultValue]
    .next (shutDown (putPower s { s.power with faultCause := 0, lowRun := 0, overRun := 0, faulted := true }))

/-- KENNEL_SAVE_DONE (R412 steps 4 and 5): the persistent region is in flash; MGMT and AO are off. With the input in range
and PWR_EN high again a cold start begins (R435). What the store has left it keeps (log 60, DESIGN CHOICE). -/
def execKennelSaveDone (s : State) : Host.Outcome State Fault Refusal :=
  if s.dev.phase = .saving then
    let s := domainsOff s false
    let s := putDev (putDap s { s.dap with sessions := [], out := [] }) { s.dev with phase := .off }
    .next (if mayStart s then beginCold s s.dev.lastReset else s)
  else .next s

/-! ## The power cap (R426 to R429) -/

/-- The coolant limit in mW (R431). -/
def coolantMw (s : State) : Int :=
  (4200000 * min 4500 s.power.flow / 4500 : Nat) - 100 * max 0 (s.power.inlet - 40000)

/-- The effective cap in mW (R426). -/
def capMw (s : State) : Nat := (min (1000 * (setting s 0x2200 1 : Int)) (coolantMw s)).toNat

/-- P + Δ stays below the cap less its margin; everything times 66 * 41 * 100 (R428). -/
def mayStepUp (s : State) : Bool :=
  let k := 66 * 41 * 100
  let a := s.power.arrayMw
  let d := match s.power.stage with
    | 1 => a * 34 * 41 * 100
    | 2 => a * 25 * 66 * 100
    | _ => a * 122 * 66 * 41
  decide (inputMw s * k + d + 1000 * setting s 0x2200 2 * k < capMw s * k)

/-- POWER_EVALUATION (R428): every 100 µs; `array` is the measured array-rail power in mW. -/
def execPowerEvaluation (array : BitVec 32) (s : State) : Host.Outcome State Fault Refusal :=
  let s := putPower s { s.power with arrayMw := array.toNat }
  let above := decide (capMw s < inputMw s)
  let v := s.power
  let s := putPower s { v with
    overCap := if above then v.overCap + 1 else 0
    underCap := if v.stage ≠ 0 && mayStepUp s then v.underCap + 1 else 0, sinceStep := v.sinceStep + 1
    unmet := if above && v.stage = 3 then v.unmet + 1 else 0
    unmetRaised := v.unmetRaised && above && v.stage = 3 }
  let v := s.power
  if 10 ≤ v.overCap && v.stage < 3 && 10 ≤ v.sinceStep then .next (setStage s (v.stage + 1))
  else if 1000 ≤ v.underCap then .next (setStage s (v.stage - 1))
  else if 100 ≤ v.unmet && !v.unmetRaised then
    .next (raise (putPower s { v with unmetRaised := true }) 0x0105 0xFF 0 [inputW s, capMw s / 1000])
  else .next s

/-! ## Thermal limits (R430 to R432) -/

/-- Readings in m°C at which the levels of a die begin (R430). -/
def levelAt (die : Nat) : List Int :=
  if die < 4 then [90000, 95000, 100000, 103000] else if die < 8 then [90000, 100000] else [90000]

/-- Thermal stage of a compute die's level (R430). -/
def thermalStage (s : State) (d : Nat) : Nat := mget 0 s.power.level d - 1

/-- Stage at which a compute die runs (R429). -/
def dieStage (s : State) (d : Nat) : Nat := max s.power.stage (thermalStage s d)

/-- Moves a die's level and reports it. -/
def setLevel (s : State) (d l : Nat) (c : Int) : State :=
  let old := thermalStage s d
  let rise := decide (mget 0 s.power.level d < l)
  let s := putPower s { s.power with
    level := mset 0 s.power.level d l, coolRun := mdrop (fun k => k / 8 == d && decide (l < k % 8)) s.power.coolRun }
  let s := if l = 1 && rise then raise s 0x0201 0xFF 0 [d, c.toNat] else s
  if d < 4 && thermalStage s d ≠ old then raise (addCtr s 0x4F00 6 1) 0x0202 0xFF 0 [d, thermalStage s d] else s

/-- Reports in a row at which the reading was 5 °C below each level that a die is at. -/
def coolRuns (s : State) (d : Nat) (c : Int) : Map Nat :=
  (upFrom 1 (mget 0 s.power.level d)).foldl (fun m l =>
    let th := ((levelAt d)[l - 1]?).getD 0
    mset 0 m (8 * d + l) (if c ≤ th - 5000 then mget 0 m (8 * d + l) + 1 else 0)) s.power.coolRun

/-- THERMAL_REPORT (R430): every 10 µs a die, 0 to 10 in thermal.die_c order, reports its highest reading in m°C; 11 to
50 are the GDDR7 devices. A die moves one level at a time. -/
def execThermalReport (sensor : Fin 51) (milliC : Int) (s : State) : Host.Outcome State Fault Refusal :=
  let d := sensor.val
  if 11 ≤ d then .next (putPower s { s.power with gddrC := mset 0 s.power.gddrC (d - 11) milliC })
  else
    let s := putPower s { s.power with dieC := mset 0 s.power.dieC d milliC, coolRun := coolRuns s d milliC }
    let l := mget 0 s.power.level d
    match (levelAt d)[l]? with
    | some th =>
      if th ≤ milliC then .next (setLevel s d (l + 1) milliC)
      else if 0 < l && 10000 ≤ mget 0 s.power.coolRun (8 * d + l) then .next (setLevel s d (l - 1) milliC)
      else .next s
    | none => .next (if 0 < l && 10000 ≤ mget 0 s.power.coolRun (8 * d + l) then setLevel s d (l - 1) milliC else s)

/-- COOLANT_SAMPLE (R431): flow in mL/min and inlet temperature in m°C; each crossing is raised once. -/
def execCoolantSample (flow : BitVec 32) (inlet : Int) (s : State) : Host.Outcome State Fault Refusal :=
  let f := flow.toNat
  let low := decide (f < 4500)
  let high := decide (40000 < inlet)
  let was := s.power
  let s := putPower s { s.power with flow := f, inlet := inlet, flowLow := low, inletHigh := high }
  let s := if low && !was.flowLow then raise s 0x0203 0xFF 0 [f] else s
  .next (if high && !was.inletHigh then raise s 0x0204 0xFF 0 [inlet.toNat] else s)

/-- The critical condition holds (R430 to R432); its time has run out when the command comes (log 5, DESIGN CHOICE). -/
def isCritical (s : State) (kind unit : Nat) : Bool :=
  match kind with
  | 0 => decide (unit < 11) && decide (110000 ≤ mget 0 s.power.dieC unit)
  | 1 => decide (unit < 40) && decide (100000 ≤ mget 0 s.power.gddrC unit)
  | _ => decide (s.power.flow < 1500)

/-- THERMAL_CRITICAL (R432): a die (0), a GDDR7 device (1) or the flow (2) is critical: raised, every switched domain
except MGMT OFF, T0 and T1 lost. A module that has FAILED leaves that state only by a reset (R444). -/
def execThermalCritical (kind : Fin 3) (unit : Fin 64) (s : State) : Host.Outcome State Fault Refusal :=
  if !poweredOn s || s.dev.phase = .critical || !isCritical s kind.val unit.val then .next s
  else
    let s := raise s 0x0205 0xFF 0 [kind.val + 1, if kind.val = 2 then 0 else unit.val]
    let s := domainsOff (wipe s) true
    .next (putDev s { s.dev with
      phase := if s.dev.phase = .failed || s.dev.phase = .failedRom then s.dev.phase else .critical })

/-- Every die reads below 85 °C (R432, R446). -/
def allCool (s : State) : Bool := s.power.dieC.all (fun e => decide (e.2 < 85000))

/-- HOLDUP_CHARGED (R443): the store reaches 85 %; settings kept in kennel memory are written to flash. -/
def execHoldupCharged (s : State) : Host.Outcome State Fault Refusal :=
  let s := if s.power.holdup < 85 then putPower s { s.power with holdup := 85, holdupAt := s.ao } else s
  .next (if s.settings.flashWaiting.isEmpty then s
    else addCtr (putSettings s { s.settings with flashWaiting := [] }) 0x4000 5 1)

end Sys2Proof.Machine
end

