-- ==== Sys2Proof/Machine/Partition.lean ====
section
/-! DEFINITION. Machine/Partition.lean: partitions: forming, commands, the step boundary, pre-emption, restart and hold
(17 R388 to R399, R406; 01 R21 to R24). -/

namespace Sys2Proof.Machine

/-! ## Committed resources (R388) -/

/-- The work cores that the committed settings give a partition (R302). -/
def committedCores (s : State) (p : Nat) : List Nat :=
  (upFrom 0 4).flatMap (fun d =>
    ((upFrom 0 24).filter (fun c => bitSet (setting s (0x3603 + d) (p + 1)) c)).map (fun c => 24 * d + c))

/-- The partition that the committed settings describe, FORMING. -/
def committedPart (s : State) (p : Nat) : Part :=
  let share := setting s 0x3002 (p + 1)
  let range := setting s 0x3500 (p + 1)
  { Part.reset with
    state := .forming, groups := setting s 0x3000 (p + 1), memGroups := setting s 0x3001 (p + 1) % 2 ^ 20
    landFirst := bits share 15 0, landCount := bits share 31 16, ctrFirst := bits range 15 0, ctrCount := bits range 31 16
    cores := committedCores s p, ucode := s.fw.ucodeVer }

/-- Compute dies that hold a tile group of a partition. -/
def computeDiesOf (q : Part) : List Nat := (upFrom 0 4).filter (fun d => (upFrom (4 * d) 4).any (bitSet q.groups))

/-- Two ranges, of first and count, overlap; an empty one overlaps none. -/
def rangesMeet (a n b m : Nat) : Bool := n != 0 && m != 0 && decide (a < b + m) && decide (b < a + n)

/-- Two partitions share a resource (R388). -/
def partsClash (a b : Part) : Bool :=
  (a.groups &&& b.groups) != 0 || (a.memGroups &&& b.memGroups) != 0 || a.cores.any (b.cores.contains ·) ||
    rangesMeet a.landFirst a.landCount b.landFirst b.landCount || rangesMeet a.ctrFirst a.ctrCount b.ctrFirst b.ctrCount

/-- The resources may be formed: the rules of R388, usable interface groups (R390, R441), none held by another. -/
def mayForm (s : State) (p : Nat) (q : Part) : Bool :=
  q.groups != 0 && q.memGroups != 0 && decide (1 ≤ q.ctrCount) &&
    (computeDiesOf q).all (fun d => q.cores.any (fun c => c / 24 == d)) &&
    (q.memGroups &&& s.dev.groups) == q.memGroups &&
    (upFrom 0 16).all (fun o => o == p || !isFormed (getPart s o) || !partsClash q (getPart s o))

/-- A command is refused (R390): raised with the command and the state. -/
def refuseCmd (s : State) (p cmd : Nat) : State :=
  raise s 0x0A06 p 0 [cmd, partStateNo (getPart s p).state]

/-- Partition commands act from READY on (R443). -/
def cmdReady (s : State) : Bool := s.dev.phase == .ready

/-! ## FORM (R391) -/

/-- The power domains of a partition: of its tile groups and of the spares that serve in them (R414). -/
def partDoms (s : State) (q : Part) : List Nat :=
  ((upFrom 0 16).filter (bitSet q.groups) ++ (tilesOf q).map (tileDom s)).dedup

/-- The power state of a partition's domains. -/
def setGroups (s : State) (q : Part) (st : Nat) : State :=
  (partDoms s q).foldl (fun s g => switchDom s g st) s

/-- Zeroes what a partition holds: tile stores, its landing share on every die, and T1 where `t1` is set. -/
def zeroPart (s : State) (q : Part) (t1 : Bool) : State :=
  let s := (tilesOf q).foldl (fun s t => zeroRange s (tileAddr t 0) (tileAddr t storeBytes)) s
  let s := (upFrom 0 4).foldl (fun s d =>
    zeroRange s (landAddr d (65536 * q.landFirst)) (landAddr d (65536 * (q.landFirst + q.landCount)))) s
  if t1 then ((upFrom 0 20).filter (bitSet q.memGroups)).foldl (fun s g => zeroRange s (g * 2 ^ 37) ((g + 1) * 2 ^ 37)) s
  else s

/-- The trace ring lies in a group of the partition; FORM stops tracing first (R491). -/
def stopTraceIn (s : State) (q : Part) : State :=
  let a := setting s 0x8000 3
  if s.trace.state ≠ 0 && bitSet q.memGroups (a / 2 ^ 37) then putTrace s { s.trace with state := 0 } else s

/-- Sets or clears the partition's bit of num.force_per_block (R128, R391). -/
def forceBit (s : State) (p : Nat) (on : Bool) : State :=
  let v := setting s 0x3800 4
  let w := v - v / 2 ^ p % 2 * 2 ^ p + (if on then 2 ^ p else 0)
  putSettings s { s.settings with committed := mput s.settings.committed (objKey 0x3800 4) (.num w) }

/-- Counter objects that forming a partition clears (R54, R160, R391). -/
def clearPartCtrs (s : State) (p : Nat) (q : Part) : State :=
  let s := (tilesOf q).foldl (fun s t => clearCtrs s (0x4100 + t)) s
  [0x4300, 0x4400, 0x4500, 0x4600, 0x4700, 0x4B00, 0x4D00].foldl (fun s b => clearCtrs s (b + p)) s

/-- The physical tiles under test that serve a partition. -/
def testsOf (s : State) (q : Part) : List Nat :=
  ((tilesOf q).filter (tilePresent s)).map (physOf s) |>.filter (s.units.testing.contains ·)

/-- Job control has loaded the partition area of a core, as it does before each job: when the partition becomes STOPPED, so
that what its cores wrote there before is gone (R288; log 59, DESIGN CHOICE). -/
def loadCore (s : State) (c : Nat) : State :=
  putSched { s with free := s.free + 1 } { s.sched with
    loaded := s.sched.loaded.filter (fun e => e.1 != c) ++ [(c, s.free)]
    sram := mdrop (fun k => k / 2 ^ 20 == c && decide (k % 2 ^ 20 < 0xE0000)) s.sched.sram }

/-- FORM ends when the last of its self-tests has and no tile that failed its own waits for a pool tile under test (R391
steps 3 to 5, R402). -/
def finishForm (s : State) (p : Nat) : State :=
  let q := getPart s p
  if q.state != .forming || !(testsOf s q).isEmpty || (tilesOf q).any (s.units.owed.contains ·) then s
  else
    let s := forceBit s p false
    let s := (countersOf q).foldl (ownCounter p) s
    putPart (q.cores.foldl loadCore (clearPartCtrs s p q)) p { q with state := .stopped }

/-- Objects that a partition takes at FORM (R388). -/
def formObjects : List Nat := [0x3000, 0x3001, 0x3002, 0x3500, 0x3603, 0x3604, 0x3605, 0x3606]

/-- Stage counter ranges, which a partition takes when it is formed (R356). -/
def stageObjects : List Nat := [0x3505, 0x3506]

/-- Objects that a partition takes at its job's start (R136, R192, R234). -/
def jobObjects : List Nat := [0x3200, 0x3403, 0x3701]

/-- FORM of an accepted partition: steps 1 to 3. -/
def beginForm (s : State) (p : Nat) (q : Part) : State :=
  let s := freeTrailSlots (dropPlans s p) p (fun _ => true)
  let s := stopTraceIn (takeSettings (putPart s p q) (1 + p) (formObjects ++ stageObjects)) q
  let s := zeroPart (setGroups s q 0) q (setting s 0x300B (p + 1) == 1)
  let s := (tilesOf q).foldl (fun s t => discardTile s t Tile.reset) s
  let s := putUnits s { s.units with
    testing := s.units.testing ++ ((tilesOf q).filter (tilePresent s)).map (physOf s) }
  finishForm (forceBit s p true) p

/-- FORM (R390, R391). -/
def formCmd (s : State) (p : Nat) : State :=
  let q := committedPart s p
  if cmdReady s && (getPart s p).state == .unformed && mayForm s p q then beginForm s p q else refuseCmd s p 1

/-- FORM (R390, R391): the committed resources become the partition's, unless a rule of R388 forbids it. -/
def execForm (p : Fin 16) (s : State) : Host.Outcome State Fault Refusal := .next (formCmd s p.val)

/-! ## The start of a step (R109, R128, R131, R393, R464) -/

/-- Objects that a partition takes at its step start (R134, R227, R285, R409). -/
def stepObjects : List Nat := [0x3007, 0x3503, 0x3800, 0x3900]

/-- A compute die that holds one of the partition's groups is at stage 3 (R429). -/
def atStage3 (s : State) (q : Part) : Bool := (computeDiesOf q).any (fun d => dieStage s d == 3)

/-- The snapshots of a step's start: numerics mode, step-down, frozen groups, seeds. -/
def takeSnapshots (s : State) (p : Nat) : State :=
  let s := takeSettings s (1 + p) stepObjects
  let q := getPart s p
  let per := decide (q.bornSteps < settingAt s (1 + p) 0x3800 1) || q.replay ||
    (q.sinceReplay != 0 && decide (q.sinceReplay ≤ settingAt s (1 + p) 0x3800 2)) ||
    bitSet (setting s 0x3800 4) p
  putPart s p { q with
    perBlock := per, steppedDown := bitSet (settingAt s (1 + p) 0x3800 5) p && atStage3 s q
    frozen := frozenGroups s p, srSeed := setting s 0x3800 6, auditSeed := setting s 0x3900 3 }

/-! ## START (R390) -/

/-- The streams of a partition that are RUNNING, by tile. -/
def runningStreams (s : State) (q : Part) : List (Nat × Stream) :=
  (tilesOf q).flatMap (fun t =>
    (streams.filter (fun x => (getCtl (getTile s t) x).state == .running)).map (fun x => (t, x)))

/-- The first step that the partition's started streams agree on; none where they differ. -/
def agreedFirst (s : State) (q : Part) : Option Nat :=
  match (runningStreams s q).map (fun e => (getCtl (getTile s e.1) e.2).firstStep) with
  | [] => some 0
  | a :: l => if l.all (· == a) then some a else none

/-- Wakes the tile groups of a partition: a partition command (R417). -/
def wakeGroups (s : State) (q : Part) : State :=
  (partDoms s q).foldl wakeDomain s

/-- The step counts of a partition's effects and the ledger's full marks start anew (log 20, DESIGN CHOICE). -/
def dropOrdinals (s : State) (p : Nat) (gone : Nat → Bool) : State :=
  putLft s { s.lft with
    ordinals := mdrop (fun k => (tilesOf (getPart s p)).contains (k / 2 ^ 64 / 16) && gone (k % 2 ^ 64)) s.lft.ordinals
    ledgerFull := s.lft.ledgerFull.filter (fun e => !(e.1 == p && gone e.2)) }

/-- Requester who asks nothing of a partition any more. -/
def unaskPreempt (who : Nat) (s : State) (p : Nat) : State :=
  putPart s p { getPart s p with preemptBy := (getPart s p).preemptBy.filter (· != who) }

/-- A partition becomes RUNNING by a command: the quiesce state returns to 0 (R521), and its request with it. -/
def endQuiesce (s : State) : State :=
  (upFrom 0 16).foldl (unaskPreempt 1) (putFront s { s.panel with quiesce := 0 })

/-- Lines delivered poisoned are read afresh by a partition's next job or replay (R254). -/
def dropDelivered (s : State) (p : Nat) : State :=
  putMemErr s { s.memErr with delivered := s.memErr.delivered.filter (fun l => lineOwner s l != some p) }

/-- The job starts at step s0. -/
def startJob (s : State) (p s0 : Nat) : State :=
  let s := freeTrailSlots (updFresh s p) p (fun b => decide (b < s0))
  let s := takeSettings (retrForget s p) (1 + p) jobObjects
  let s := putRetr s { s.retr with regAddr := mset 0 s.retr.regAddr p (setting s 0x3403 (p + 1)) }
  let q := getPart s p
  let s := putPart s p { q with
    state := .running, step := s0, firstStep := s0, replay := false, attempts := 0, causes := [], recur := []
    preemptAsked := false, preemptBy := [], stepStopped := [], bornSteps := 0, sinceReplay := 0, replaced := 0
    resumePreempted := false, rolling := false, ucode := s.fw.ucodeVer }
  let s := dropOrdinals (clearPartials (dropDelivered s p) p) p (fun _ => true)
  endQuiesce (placeStart (takeSnapshots (wakeGroups s q) p) p)

/-- START of a STOPPED partition whose tables can be read (R390, R136, R234, R236). -/
def startTables (p : Nat) (s : State) : State :=
  let u := readUpdTable s p
  if !u.2 then refuseCmd u.1 p 2
  else
    let l := loadTable u.1 p
    if !l.2 then refuseCmd l.1 p 2
    else
      match agreedFirst s (getPart s p) with
      | none => refuseCmd l.1 p 2
      | some s0 => startJob l.1 p s0

/-- The levels of runs that START reads: the update table with what frozen flags and die partials need of its groups, and the
placement table. -/
def startTableLevels (s : State) (p : Nat) : List (List (Nat × Nat)) :=
  let a := setting s 0x3701 (p + 1)
  let n := bits (readNat s a 64) 31 16
  let groups := (upFrom 0 n).map (fun i => readNat s (a + 64 + 8 * i) 8)
  [(a, 64)] :: [(a + 64, 8 * n)] :: groups.map (fun g => (g, 128)) ::
    groups.map (fun g => (bits (readNat s g 128) 255 192, 64 * bits (readNat s g 128) 31 16)) ::
    placeLevels s (setting s 0x3200 (p + 1))

/-- START (R390, R136, R234, R236, R522): refused, or carried out once its tables can be read (R251). -/
def startCmd (s : State) (p : Nat) : State :=
  if !cmdReady s || (getPart s p).state != .stopped || s.panel.removal ≠ 0 then refuseCmd s p 2
  else atDoorbell s 4 p 2 (startTableLevels s p) (startTables p)

/-- START (R390): every started stream dispatches from the same TILE cycle. -/
def execStart (p : Fin 16) (s : State) : Host.Outcome State Fault Refusal := .next (startCmd s p.val)

/-! ## Stopping work (R395 steps 2 and 3) -/

/-- Streams and queues of a tile are emptied; `idle` also makes every stream IDLE (R390, R395 step 6, R447). -/
def emptyTile (v : Tile) (idle : Bool) : Tile :=
  let c := fun (c : StreamCtl) =>
    if idle then { c with state := .idle, ended := false, dwSkip := false, buf := [] } else { c with buf := [] }
  { v with
    sf := c v.sf, sb := c v.sb, su := c v.su, stopped := false, waiting := [], inflight := [], tokens := [], starve := []
    active := .reset, shadow := .reset, panels := [], halves := [], vec := .reset, watches := []
    lastAcc := none }

/-- A flow of the partition keeps what was accepted and the rest of a chunk whose first packets were, and drops what was not
(R346, R349, R395 step 2; log 108, DEDUCED). -/
def dropUnaccepted (s : State) (p : Nat) : State :=
  putLft s { s.lft with
    flows := s.lft.flows.map (fun e => if e.1 % 16 = p then
      (e.1, { e.2 with sendq := e.2.sendq.takeWhile (fun o => o.origin.any (fun x => !x.begins)) }) else e)
    reads := s.lft.reads.filter (fun r => !(r.part == p && r.seq.isNone)) }

/-- The signals of a partition's units that are on their way are gone from there. -/
def dropSignals (s : State) (p : Nat) : State :=
  putSync s { s.sync with signals := s.sync.signals.filter (fun g => g.part != p) }

/-- The signals of a partition's units that are on their way reach their hubs (R395 step 3). -/
def landSignals (s : State) (p : Nat) : State :=
  (s.sync.signals.filter (fun g => g.part == p)).foldl hubApply (dropSignals s p)

/-- The doorbells of a partition's work that wait are abandoned. -/
def dropWork (s : State) (p : Nat) : State := (upFrom 0 4).foldl (fun s k => dropDoorbells s k p) s

/-- Step 2: the work of a partition is stopped; what was issued goes on to land. -/
def stopWork (s : State) (p : Nat) : State :=
  let s := maskAbandon (retrAbandon (houndAbandon (cancelItems s p) p) p) p
  let s := dropUnaccepted (updAbandon (dropWork s p) p) p
  putSync s { s.sync with
    fired := s.sync.fired.filter (fun w => match w.1 with | .gate q _ => q != p | _ => true) }

/-- Steps 2 and 3 without a wait: a signal lands where what it covers is visible, else it is dropped (R264, R395). -/
def stopAtOnce (s : State) (p : Nat) : State :=
  let s := stopWork s p
  if settled s p then landSignals s p else dropSignals s p

/-- STOP of an accepted partition (R390, R447): its counters are orphaned, then OWNED at 0. -/
def stopPart (s : State) (p : Nat) : State :=
  let s := retrWriteBack (placeStop (stopAtOnce s p) p) p
  let s := freeTrailSlots (updFresh s p) p (fun _ => true)
  let q := getPart s p
  let s := (tilesOf q).foldl (fun s t => discardTile s t (emptyTile (getTile s t) true)) s
  let s := q.cores.foldl loadCore (orphanAll s p)
  let s := (countersOf q).foldl (ownCounter p) s
  let s := putLft s { s.lft with ledger := s.lft.ledger.filter (fun l => l.part != p) }
  let s := dropOrdinals s p (fun _ => true)
  let s := putLft s { s.lft with
    reductions := s.lft.reductions.filter (fun r => r.part != p), early := s.lft.early.filter (fun e => e.1 != p) }
  wakeGroups (putPart s p { getPart s p with
    state := .stopped, replay := false, causes := [], recur := [], preemptAsked := false, preemptBy := []
    stepStopped := [], resumePreempted := false, rolling := false }) q

/-- STOP (R390). -/
def stopCmd (s : State) (p : Nat) : State :=
  match (getPart s p).state with
  | .running | .preempted | .held => if cmdReady s then stopPart s p else refuseCmd s p 3
  | _ => refuseCmd s p 3

/-- STOP (R390): partition reset without undo. -/
def execStop (p : Fin 16) (s : State) : Host.Outcome State Fault Refusal := .next (stopCmd s p.val)

/-! ## Pre-emption (R406) -/

/-- Who pre-empts: 0 a command, 1 a quiesce, 2 a removal. -/
def askPreempt (s : State) (p who : Nat) : State :=
  let q := getPart s p
  putPart s p { q with
    preemptAsked := true, preemptStep := if q.preemptAsked then q.preemptStep else q.step
    preemptBy := insertNew q.preemptBy who }

/-- Every stream of the partition has stopped at its mark, or runs no more. -/
def allStopped (s : State) (q : Part) : Bool :=
  (runningStreams s q).all (fun e => q.stepStopped.contains (streamKey e.1 e.2) || (getCtl (getTile s e.1) e.2).ended)

/-- A partition asked to pre-empt becomes PREEMPTED once the boundary of its step has passed and its streams have
stopped (R406). -/
def tryPreempt (s : State) (p : Nat) : State :=
  let q := getPart s p
  if q.state == .running && q.preemptAsked && decide (q.preemptStep < q.step) && allStopped s q then
    putPart (addCtr s (0x4D00 + p) 5 1) p { q with state := .preempted, preemptNs := nowNs s }
  else s

/-- PREEMPT (R390, R406). -/
def preemptCmd (s : State) (p : Nat) : State :=
  if cmdReady s && (getPart s p).state == .running then tryPreempt (wakeGroups (askPreempt s p 0) (getPart s p)) p
  else refuseCmd s p 4

/-- PREEMPT (R406): the partition pauses at the boundary of its current step. -/
def execPreempt (p : Fin 16) (s : State) : Host.Outcome State Fault Refusal := .next (preemptCmd s p.val)

/-- A PREEMPTED partition runs again (R299, R406). -/
def resumePart (s : State) (p : Nat) : State :=
  let q := getPart s p
  let s := resumeItems s p q.preemptNs
  wakeGroups (putPart s p { q with
    state := .running, preemptAsked := false, preemptBy := [], stepStopped := [], resumePreempted := false }) q

/-- RESUME (R390, R406, R521, R522). -/
def resumeCmd (s : State) (p : Nat) : State :=
  if cmdReady s && (getPart s p).state == .preempted && s.panel.removal = 0 then endQuiesce (resumePart s p)
  else refuseCmd s p 5

/-- RESUME (R406): every stream may dispatch again. -/
def execResume (p : Fin 16) (s : State) : Host.Outcome State Fault Refusal := .next (resumeCmd s p.val)

/-! ## RESTART and DISSOLVE (R390) -/

/-- RESTART (R390): the cause has no event code of its own (log 25, DESIGN CHOICE); from HELD the attempts start again at 0. -/
def restartCmd (s : State) (p : Nat) : State :=
  let q := getPart s p
  let f := freshFree s
  let code := f.1 % 65536
  match q.state with
  | .running => if cmdReady s then addCause (wakeGroups f.2 q) p code else refuseCmd s p 6
  | .held =>
    if cmdReady s then
      putPart (endQuiesce (wakeGroups f.2 q)) p { q with state := .restarting, attempts := 0, causes := [code] }
    else refuseCmd s p 6
  | _ => refuseCmd s p 6

/-- RESTART (R390): the current step is restarted. -/
def execRestart (p : Fin 16) (s : State) : Host.Outcome State Fault Refusal := .next (restartCmd s p.val)

/-- DISSOLVE of an accepted partition (R278, R390): every resource is returned. -/
def dissolvePart (s : State) (p : Nat) : State :=
  let q := getPart s p
  let s := dropSignals (stopWork s p) p
  let s := orphanAll s p
  let s := (countersOf q).foldl releaseCounter s
  let s := freeTrailSlots (dropPlans (updForget (retrForget s p) p) p) p (fun _ => true)
  let s := (tilesOf q).foldl (fun s t => discardTile s t Tile.reset) (putPlace s p Placement.reset)
  let s := takeSettings s (1 + p) (stepObjects ++ jobObjects)
  putPart (setGroups s q 4) p Part.reset

/-- DISSOLVE (R390). -/
def dissolveCmd (s : State) (p : Nat) : State :=
  if cmdReady s && (getPart s p).state == .stopped then dissolvePart s p else refuseCmd s p 7

/-- DISSOLVE (R390): the partition becomes UNFORMED. -/
def execDissolve (p : Fin 16) (s : State) : Host.Outcome State Fault Refusal := .next (dissolveCmd s p.val)

/-- part.command (R390): codes 1 to 7; another code is refused. -/
def partCommand (s : State) (p code : Nat) : State :=
  match code with
  | 1 => formCmd s p | 2 => startCmd s p | 3 => stopCmd s p | 4 => preemptCmd s p | 5 => resumeCmd s p
  | 6 => restartCmd s p | 7 => dissolveCmd s p
  | c => refuseCmd s p c

/-! ## The step boundary (R21 to R24, R403) -/

/-- The boundary of the current step: every group step counter has advanced, the boundary counter has reached its target,
no row write is held for a migration, and what the step wrote is visible (R21, R136, R146, R201, R253). -/
def boundaryReached (s : State) (p : Nat) : Bool :=
  let q := getPart s p
  !holdsRows s p && settled s p &&
  match updTable s p with
  | none => true
  | some t =>
    decide (t.groups.length * (q.step + 1 - q.firstStep) ≤ ctrValue s (updHdr s p 127 96)) &&
      t.groups.all (fun a => decide (q.step + 1 ≤ ctrValue s (bits (groupDesc s a) 543 512)))

/-- The levels of runs that a boundary reads: group descriptors and unit entries (R109, R149), registry entries with a
publish due (R204), the placement table where it is to be reread (R234). -/
def boundaryLevels (s : State) (p : Nat) : List (List (Nat × Nat)) :=
  let groups := match updTable s p with
    | none => []
    | some t => tableLevels s t
  groups ++ [publishRuns s p] ++ (if (getPart s p).reload then placeLevels s (setting s 0x3200 (p + 1)) else [])

/-- Retirement of logical tile t (R401, R403): its physical tile leaves service and is tested. -/
def dropTile (s : State) (t : Nat) : State :=
  let ph := physOf s t
  if !tilePresent s t then s
  else
    let s := takeSettings s (1 + t) [0x3110]
    putUnits s { s.units with
    map := mset (17 * (t / 16) + t % 16) s.units.map t 999, testing := insertNew s.units.testing ph
    tags := mset 1 s.units.tags t (if tagOf s t = 0xFFFF then 1 else tagOf s t + 1) }

/-- After step 3 of a restart, or of no partition at once, the retirement switch of a unit that left service removes its
power: of physical tiles that wait for their test and serve no slot, and of other dead units, numbered as SELF_TEST_DONE
numbers them (R401; log 100, DESIGN CHOICE). -/
def openSwitches (s : State) (dies : List Nat) : State :=
  let serves := fun (ph : Nat) => (upFrom 0 64).any (fun t => physOf s t == ph)
  let pooled := fun (ph : Nat) => bitSet (mget 0x10000 s.units.pool (ph / 17)) (ph % 17)
  let tiles := s.units.testing.filter (fun ph => dies.contains (ph / 17) && !serves ph && !pooled ph)
  putUnits s { s.units with
    switched := (tiles ++ s.units.dead.map (4 + ·)).foldl insertNew s.units.switched }

/-- Pending retirements start a restart of the new step (R403). -/
def startRetirements (s : State) (p : Nat) : State :=
  let q := getPart s p
  if q.retire.isEmpty then s
  else
    let f := freshFree s
    let s := q.retire.foldl dropTile f.2
    addCause (putPart s p { q with retire := [], awaiting := q.awaiting ++ q.retire }) p (f.1 % 65536)

/-- The boundary of step s passes: the trail slot of its batch is freed, and a trail that waited for it begins (R24). -/
def passBoundary (s : State) (p : Nat) : State :=
  let q := getPart s p
  let st := q.step
  let s := placeBoundary (retrBoundary (updBoundary s p st) p st) p
  let s := if q.reload then reloadTable s p else s
  let s := (countersOf q).foldl (clearSum st) s
  let s := putLft s { s.lft with ledger := s.lft.ledger.filter (fun l => !(l.part == p && l.step == st)) }
  let s := dropOrdinals s p (fun n => n == st)
  let s := takeSettings s (1 + p) stepObjects
  let q := getPart s p
  let s := putPart s p { q with
    step := st + 1, replay := false, attempts := 0, recur := [], reload := false, bornSteps := q.bornSteps + 1
    sinceReplay := if q.replay then 1 else if q.sinceReplay = 0 then 0 else q.sinceReplay + 1 }
  let s := beginTrail (freeTrailSlots (takeSnapshots s p) p (fun b => decide (b ≤ st))) p
  tryPreempt (startRetirements s p) p

/-- STEP_BOUNDARY (R21): the boundary of the current step of a RUNNING partition, once it is reached and what it reads can be
read (R251). -/
def execStepBoundary (p : Fin 16) (s : State) : Host.Outcome State Fault Refusal :=
  let p := p.val
  if (getPart s p).state == .running then
    .next (onceLevels s (boundaryLevels s p) fun s => if boundaryReached s p then passBoundary s p else s)
  else .next s

/-! ## Holding (R393) -/

/-- The partition is HELD: its work is stopped as in steps 2 and 3, its own watches are cancelled. Signals whose covered writes
are not visible yet land after them. -/
def holdPart (s : State) (p cause : Nat) : State :=
  let s := placeAbandon (stopWork s p) p
  let s := if settled s p then landSignals s p else s
  let s := cancelWatches s p
  let q := getPart s p
  let s := (tilesOf q).foldl (fun s t => putTile s t { getTile s t with stopped := true, inflight := [] }) s
  let s := putPart s p { q with
    state := .held, causes := [], lastCause := cause % 65536, preemptAsked := false, resumePreempted := false
    rolling := false }
  raise (addCtr s (0x4D00 + p) 2 1) 0x0A05 p 0 [cause % 65536, q.step]

/-! ## The restart sequence (R395 to R398) -/

/-- The mark of step st of a stream; none when it is not recorded (R310). -/
def markOf (c : StreamCtl) (st : Nat) : Option Nat :=
  if !c.marked then none
  else if c.step = st then some c.mark1
  else if c.step = st + 1 && c.firstStep < c.step then some c.mark0
  else none

/-- A stream goes back to its mark (R310). -/
def rewind (c : StreamCtl) (st pc : Nat) : StreamCtl :=
  { c with state := .running, pc := pc, nextSeq := 0, step := st - 1, ended := false, dwSkip := false
           marked := decide (c.firstStep < st), buf := [] }

/-- Where a restart of step st takes a stream: its mark; of a stream that a pre-emption stopped before that mark, the mark's
place, at which it stands (R310, R394, R406; log 99, DEDUCED). -/
def restartMark (q : Part) (t : Nat) (x : Stream) (c : StreamCtl) (st : Nat) : Option Nat :=
  (markOf c st).orElse fun _ =>
    if (q.state == .preempted || q.resumePreempted) && q.stepStopped.contains (streamKey t x) && c.step + 1 = st then some c.pc
    else none

/-- The streams of a partition that a restart of step st cannot rewind, a dead tile's among them (R310). -/
def unmarked (s : State) (q : Part) (st : Nat) : List (Nat × Stream) :=
  (tilesOf q).flatMap (fun t =>
    (streams.filter (fun x =>
      let c := getCtl (getTile s t) x
      c.state != .idle && (restartMark q t x c st).isNone)).map (fun x => (t, x)))

/-- A tile's streams at their marks of step st. -/
def rewindTile (q : Part) (t : Nat) (v : Tile) (st : Nat) : Tile :=
  streams.foldl (fun v x =>
    let c := getCtl v x
    match c.state, restartMark q t x c st with
    | .idle, _ => v
    | _, some pc => putCtl v x (rewind c st pc)
    | _, none => v) (emptyTile v false)

/-- The streams of a partition that are at their marks, as a pre-emption leaves them. -/
def marksOf (s : State) (q : Part) : List Nat := (runningStreams s q).map (fun e => streamKey e.1 e.2)

/-- The restart item (R396): a copy of the item at part.restart_item_addr, at level 7 on the die of the partition's lowest
tile group. -/
def restartItem (s : State) (p : Nat) : State :=
  let a := setting s 0x3006 (p + 1)
  let q := getPart s p
  if a = 0 then s
  else
    let d := ((computeDiesOf q).head?).getD 0
    let w := BitVec.ofNat 512 (readNat s a 64)
    let set := fun (w : BitVec 512) (hi lo v : Nat) => withBits w hi lo v
    let w := set (set (set (set w 6 4 7) 319 256 q.step) 383 320 q.lastCause) 447 384 q.replaced
    let s := (enqueue s d p .module true w).1
    putPart s p { getPart s p with replaced := 0 }

/-- Step 9 (R395): the streams run from their marks. The replay runs PER-BLOCK; the step's other snapshots stay as its start
took them, since the spec names no new taking (R128; log 74, DESIGN CHOICE). The progress counter's P0 is taken here
(R243). -/
def beginReplay (p : Nat) (s : State) : State :=
  let q := getPart s p
  let s := addCtr s (0x4D00 + p) 3 (nowNs s - q.restartNs)
  let back := q.resumePreempted
  restartItem (placeStart (putPart (dropDelivered s p) p { q with
    state := if back then .preempted else .running, replay := true, perBlock := true, resumePreempted := false
    preemptNs := nowNs s, stepStopped := if back then marksOf s q else [] }) p) p

/-- Steps 3 to 6: signals land, bias, undo, tile state (R395). -/
def rollBack (p : Nat) (s : State) : State :=
  let s := landSignals s p
  let q := getPart s p
  let st := q.step
  let s := (countersOf q).foldl addBias s
  let s := cancelWatches s p
  let s := undoReplay s p st
  let s := freeTrailSlots (clearPartials (retrRestart s p st) p) p (fun b => decide (st < b))
  let s := dropOrdinals s p (fun n => decide (st ≤ n))
  let s := (tilesOf q).foldl (fun s t => discardTile s t (rewindTile q t (getTile s t) st)) s
  putPart (openSwitches s (computeDiesOf q)) p { getPart s p with rolling := false }

/-- The runs that the undo of a restart reads: table descriptors and undo entries (R157), and the structures from which the
die partials to be cleared follow (R149). -/
def rollLevels (s : State) (p : Nat) : List (List (Nat × Nat)) :=
  let l := undoOf s p (getPart s p).step
  (l.map (fun r => (bits (regEntry s r.part r.table) 511 448, 128)) ++ undoRuns s p (getPart s p).step) ::
    (match updTable s p with | none => [] | some t => tableLevels s t)

/-- A restart goes on (R395): once the writes that step 2 left have landed, steps 4 to 6; once replacements are there, the undo
is written and every bound flow is UP, step 9. A flow that does not come UP within lft.peer_timeout_ms holds the
partition (R378). -/
def finishRestart (s : State) (p : Nat) : State :=
  let q := getPart s p
  if q.state != .restarting || !q.causes.isEmpty then s
  else if !flowsUp s p && decide (q.restartNs + setting s 0x1120 8 * 1000000 ≤ nowNs s) then holdPart s p 0x0909
  else if !settled s p then s
  else if q.rolling then onceLevels s (rollLevels s p) (rollBack p)
  else if !flowsUp s p || !q.awaiting.isEmpty then s
  else
    let a := setting s 0x3006 (p + 1)
    onceRead s [(a, if a = 0 then 0 else 64)] (beginReplay p)

/-- A restart of the current step under a cause (R393 to R395); a cause during RESTARTING joins the restart. -/
def restartPart (s : State) (p cause : Nat) : State :=
  let q := getPart s p
  let st := q.step
  let again := q.state == .restarting
  let was := q.state == .preempted || q.resumePreempted
  let s := if again then s else raise (addCtr s (0x4D00 + p) 1 1) 0x0A04 p 0 [cause % 65536, st]
  let lost := if again then [] else unmarked s q st
  let s := putPart s p { getPart s p with
    state := .restarting, causes := [], lastCause := cause % 65536, resumePreempted := was
    attempts := if again then q.attempts else q.attempts + 1, restartNs := if again then q.restartNs else nowNs s
    stepStopped := if was then q.stepStopped else [], rolling := true }
  let s := placeRestart (stopWork s p) p
  let full := s.lft.ledgerFull.any (fun e => e.1 == p && (e.2 == st || e.2 == st + 1))
  match lost with
  | (t, x) :: _ =>
    holdPart (raise s 0x0A03 p (tileUnit s t .fetch) [streamNo x, st]) p 0x0A03
  | [] =>
    if full then holdPart s p 0x090C
    else finishRestart (putPart s p { getPart s p with ucode := s.fw.ucodeVer }) p

/-- The causes waiting at a partition are acted on: one that holds it, or more restarts than the limit, makes it HELD;
otherwise they make one restart (R392 to R394). -/
def actOnCauses (s : State) (p : Nat) : State :=
  let q := getPart s p
  match q.causes with
  | [] => s
  | c :: _ =>
    let s := if q.state == .restarting && q.attempts = 0 then
        putPart s p { q with state := .running } else s
    match q.causes.find? (fun c => decide (65536 ≤ c)) with
    | some h => holdPart s p h
    | none =>
      if q.state != .restarting && settingAt s (1 + p) 0x3007 (p + 1) < q.attempts + 1 then holdPart s p c
      else restartPart s p c

/-- PARTITION_RESTART (R392 to R397): the causes that have arisen for a partition are carried out. -/
def execPartitionRestart (p : Fin 16) (s : State) : Host.Outcome State Fault Refusal :=
  .next (finishRestart (actOnCauses s p.val) p.val)

end Sys2Proof.Machine
end

