-- ==== Sys2Proof/Machine/Units.lean ====
section
/-! DEFINITION. Machine/Units.lean: probes, dead units, tags, replacement, retirement and self-tests (17 R400 to R404). -/

namespace Sys2Proof.Machine

/-! ## Units (R400) -/

/-- Kind and index of a unit number: 0 tile, 1 core, 2 sampler, 3 Retriever engine, 4 Update engine, 5 merge unit. -/
def unitKind (u : Nat) : Nat × Nat :=
  if u < 64 then (0, u) else if u < 160 then (1, u - 64) else if u < 192 then (2, u - 160)
  else if u < 256 then (3, u - 192) else if u < 260 then (4, u - 256) else (5, u - 260)

/-- Memory die of a memory-side unit: 8 samplers, 16 Retriever engines, one Update engine, one merge unit per die. -/
def unitDie (u : Nat) : Nat :=
  match unitKind u with
  | (2, i) => i / 8
  | (3, i) => i / 16
  | (_, i) => i

/-- Unit identity of a unit number. -/
def unitIdOf (s : State) (u : Nat) : Nat := unitId (tagOf s u) (unitKind u).1 0 (unitKind u).2

/-- The partitions that a unit serves: samplers and Retriever engines those whose placement table names their die (R16,
R234), Update engines and merge units those that hold groups of it. -/
def servedBy (s : State) (u : Nat) : List Nat :=
  match unitKind u with
  | (0, t) => (partOfTile s t).toList
  | (1, c) => (partOfCore s c).toList
  | (2, _) | (3, _) => (upFrom 0 16).filter (fun p => isFormed (getPart s p) && (serveDies s p).contains (unitDie u))
  | _ => (upFrom 0 16).filter (fun p => isFormed (getPart s p) && (memDiesOf (getPart s p)).contains (unitDie u))

/-- Power domain of a unit. -/
def unitDom (s : State) (u : Nat) : Nat :=
  match unitKind u with
  | (0, t) => tileDom s t
  | (1, c) => 20 + c / 24
  | _ => 24 + unitDie u

/-- A tag advances by 1, from 0xFFFF to 1 (R400). -/
def advanceTag (s : State) (u : Nat) : State :=
  putUnits s { s.units with tags := mset 1 s.units.tags u (if tagOf s u = 0xFFFF then 1 else tagOf s u + 1) }

/-! ## The pool (R402) -/

/-- Pool mask of a compute die; t16 at delivery. -/
def poolOf (s : State) (d : Nat) : Nat := mget 0x10000 s.units.pool d

/-- Sets or clears a physical tile's bit in its die's pool. -/
def setPool (s : State) (ph : Nat) (on : Bool) : State :=
  let d := ph / 17
  let m := poolOf s d
  let m := m - m / 2 ^ (ph % 17) % 2 * 2 ^ (ph % 17) + (if on then 2 ^ (ph % 17) else 0)
  putUnits s { s.units with pool := mset 0x10000 s.units.pool d m }

/-- Power of the spare of a die where the physical tile is it (R415). -/
def powerSpare (s : State) (ph st : Nat) : State := if ph % 17 = 16 then switchDom s (16 + ph / 17) st else s

/-- Retires a physical tile for good (R401): masked, raised, and due for its fuse row. -/
def retirePhys (s : State) (ph : Nat) : State :=
  let s := setPool s ph false
  let d := ph / 17
  let s := putUnits s { s.units with
    retired := mset 0 s.units.retired d (mget 0 s.units.retired d ||| 2 ^ (ph % 17)) }
  let s := putDap s { s.dap with remapDue := insertNew s.dap.remapDue (d * 32 + ph % 17) }
  raise (powerSpare s ph 4) 0x0A0A 0xFF 0 [ph]

/-- The pool tile of a die that is next to serve: one that is not under test (R402). -/
def poolNext (s : State) (d : Nat) : Option Nat :=
  (upFrom 0 17).find? (fun nn => bitSet (poolOf s d) nn && !s.units.testing.contains (17 * d + nn))

/-- A pool tile of a die is under test, and serves once it has passed. -/
def poolBusy (s : State) (d : Nat) : Bool :=
  (upFrom 0 17).any (fun nn => bitSet (poolOf s d) nn && s.units.testing.contains (17 * d + nn))

/-- The reset of a tile that joins or leaves the pool (R447): all of it, but for the streams of a partition in a restart,
which step 5 of the restart has rewound (R395). -/
def resetTile (s : State) (t : Nat) : Tile :=
  let v := getTile s t
  match partOfTile s t with
  | some p => if (getPart s p).state == .restarting then { Tile.reset with sf := v.sf, sb := v.sb, su := v.su } else Tile.reset
  | none => Tile.reset

/-- A tile of the pool takes the place of a logical tile (R402): zeroed and mapped, its tile counters kept, since no tile is
assigned to a partition by it (R54, R397); with none left the logical tile is absent, and owed a pool tile that is still
under test (log 102, DEDUCED). The answer says whether one was found. -/
def takeReplacement (s : State) (t p : Nat) : State × Bool :=
  let d := t / 16
  match poolNext s d with
  | none => (putUnits s { s.units with
      map := mset (17 * d + t % 16) s.units.map t 999
      owed := if poolBusy s d then insertNew s.units.owed t else s.units.owed }, false)
  | some nn =>
    let ph := 17 * d + nn
    let s := powerSpare (setPool s ph false) ph 0
    let s := putUnits s { s.units with
      map := mset (17 * d + t % 16) s.units.map t ph, owed := s.units.owed.filter (· != t) }
    let s := zeroRange s (tileAddr t 0) (tileAddr t storeBytes)
    (raise (discardTile s t (resetTile s t)) 0x0A08 p 0 [t, ph], true)

/-- The logical tiles of a die that are owed a pool tile take those that are there; with none under test any more they stay
absent (R402). -/
def serveOwed (s : State) (d : Nat) : State :=
  let l := s.units.owed.filter (fun t => t / 16 == d)
  let s := l.foldl (fun s t =>
    if (poolNext s d).isSome then (takeReplacement s t ((partOfTile s t).getD 0xFF)).1 else s) s
  let s := if poolBusy s d then s else putUnits s { s.units with owed := s.units.owed.filter (fun t => t / 16 != d) }
  (l.filterMap (partOfTile s)).dedup.foldl finishForm s

/-- REPLACEMENT_READY (R402, R395 step 7): logical tile t, dead or retired, gets a pool tile once the restart has rolled back
(no cause still waits for it); it waits for one under test, and with none left its partition is HELD. -/
def execReplacementReady (t : Fin 64) (s : State) : Host.Outcome State Fault Refusal :=
  match (upFrom 0 16).find? (fun p => (getPart s p).awaiting.contains t.val) with
  | none => .next s
  | some p =>
    let q := getPart s p
    if !q.causes.isEmpty || q.rolling || ((poolNext s (t.val / 16)).isNone && poolBusy s (t.val / 16)) then .next s
    else
      let r := takeReplacement (putPart s p { q with awaiting := q.awaiting.filter (· != t.val) }) t.val p
      if r.2 then
        let s := addCtr r.1 (0x4D00 + p) 4 1
        let q := getPart s p
        .next (finishRestart (putPart s p { q with replaced := q.replaced ||| 2 ^ t.val }) p)
      else .next (addHold (raise r.1 0x0A09 p 0 [t.val]) p 0x0A09)

/-! ## Probes (R400, R402, R422) -/

/-- The engines of a kind on a die that are in service. -/
def enginesLeft (s : State) (kind d : Nat) : List Nat :=
  let l := if kind = 2 then (upFrom (8 * d) 8).map (unitNo 2) else (upFrom (16 * d) 16).map (unitNo 3)
  l.filter (fun u => !s.units.out.contains u)

/-- What a dead unit costs the partitions that it serves (R402). -/
def loseUnit (s : State) (u : Nat) (ps : List Nat) : State :=
  match unitKind u with
  | (0, t) =>
    ps.foldl (fun s p => putPart s p { getPart s p with awaiting := (getPart s p).awaiting ++ [t] }) (dropTile s t)
  | (1, c) =>
    let s := putUnits (advanceTag s u) { (advanceTag s u).units with out := insertNew s.units.out u }
    ps.foldl (fun s p =>
      let q := getPart s p
      let s := putPart s p { q with cores := q.cores.filter (· != c) }
      if (computeDiesOf q).contains (c / 24) && (coresOn s p (c / 24)).isEmpty then addHold s p 0x0A07 else s) s
  | (k, _) =>
    let s := putUnits (advanceTag s u) { (advanceTag s u).units with out := insertNew s.units.out u }
    let d := unitDie u
    if k ≤ 3 then
      if (enginesLeft s k d).isEmpty then
        ps.foldl (fun s p => if (serveDies s p).contains d then addHold s p 0x0A07 else s) s
      else s
    else ps.foldl (fun s p => addHold s p 0x0A07) s

/-- A unit is declared dead (R400): its tag advances, part.unit_dead is raised, the partitions that it serves restart. -/
def declareDead (s : State) (u : Nat) : State :=
  let ps := servedBy s u
  let tag := if tagOf s u = 0xFFFF then 1 else tagOf s u + 1
  let s := raise s 0x0A07 (ps.head?.getD 0xFF) (unitIdOf s u) [tag]
  let s := putUnits s { s.units with
    dead := if u < 64 then s.units.dead else insertNew s.units.dead u, misses := mset 0 s.units.misses u 0 }
  ps.foldl (fun s p => addCause s p 0x0A07) (loseUnit s u ps)

/-- HEALTH_PROBE (R400, R422): a probe of a unit that serves a job; the unit answers or misses. A change of the probe
settings counts from this probe on (R409, R464). -/
def execHealthProbe (u : Fin 264) (answered : Bool) (s : State) : Host.Outcome State Fault Refusal :=
  let n := u.val
  let s := takeSettings s 0 [0x300A]
  if !(servedBy s n).any (jobRuns s) || 2 ≤ getDom s (unitDom s n) || s.units.out.contains n ||
      (n < 64 && !tilePresent s n) then .next s
  else if answered then .next (putUnits s { s.units with misses := mset 0 s.units.misses n 0 })
  else
    let m := mget 0 s.units.misses n + 1
    if settingAt s 0 0x300A 2 ≤ m then .next (declareDead s n)
    else .next (putUnits s { s.units with misses := mset 0 s.units.misses n m })

/-! ## Retirement and tests (R401, R403, R404) -/

/-- RETIRE_REQUEST (R403): a logical tile number written to tile.retire_request; a tile of a partition is retired at the
partition's next boundary, one of no partition at once. -/
def retireRequest (s : State) (t : Nat) : State :=
  if !tilePresent s t then s
  else
    match partOfTile s t with
    | some p => putPart s p { getPart s p with retire := insertNew (getPart s p).retire t }
    | none => openSwitches (takeReplacement (dropTile s t) t 0xFF).1 [t / 16]

/-- RETIRE_REQUEST (R403). -/
def execRetireRequest (t : BitVec 8) (s : State) : Host.Outcome State Fault Refusal := .next (retireRequest s t.toNat)

/-- A physical tile of a pool begins its self-test (R404, R415). -/
def testPool (s : State) (ph : Nat) : State :=
  if ph < 68 && bitSet (poolOf s (ph / 17)) (ph % 17) && !s.units.testing.contains ph then
    powerSpare (putUnits s { s.units with testing := s.units.testing ++ [ph] }) ph 0
  else s

/-- TEST_REQUEST (R404): a physical tile code written to tile.test_request. -/
def execTestRequest (ph : BitVec 8) (s : State) : Host.Outcome State Fault Refusal := .next (testPool s ph.toNat)

/-- POOL_TEST_TIMER (R404): the daily test of every pool tile of a die. -/
def execPoolTestTimer (d : Fin 4) (s : State) : Host.Outcome State Fault Refusal :=
  .next ((upFrom (17 * d.val) 17).foldl testPool s)

/-- The logical tile that a physical tile serves. -/
def logicalOf (s : State) (ph : Nat) : Option Nat := (upFrom 0 64).find? (fun t => physOf s t == ph)

/-- The end of a physical tile's self-test (R391, R401, R402). -/
def tileTested (s : State) (ph : Nat) (pass : Bool) : State :=
  let s := putUnits s { s.units with
    testing := s.units.testing.filter (· != ph), switched := s.units.switched.filter (· != ph) }
  let s := if s.units.testing.isEmpty then stepDone s 1 8 else s
  match logicalOf s ph with
  | some t =>
    let p := partOfTile s t
    let s := match p with | some p => addCtr s (0x4D00 + p) 6 1 | none => s
    let s := if pass then s else (takeReplacement (retirePhys s ph) t (p.getD 0xFF)).1
    match p with
    | some p => finishForm s p
    | none => s
  | none => serveOwed (if pass then powerSpare (setPool s ph true) ph 4 else retirePhys s ph) (ph / 17)

/-- SELF_TEST_DONE (R401, R404): the self-test of physical tile u (0 to 67), or of unit number u - 4 (64 to 263), ends. -/
def execSelfTestDone (u : Fin 268) (pass : Bool) (s : State) : Host.Outcome State Fault Refusal :=
  if u.val < 68 then .next (if s.units.testing.contains u.val then tileTested s u.val pass else s)
  else
    let n := u.val - 4
    if !s.units.dead.contains n then .next s
    else if pass then .next (putUnits s { s.units with
      dead := s.units.dead.filter (· != n), out := s.units.out.filter (· != n)
      switched := s.units.switched.filter (· != u.val) })
    else .next (raise (putUnits s { s.units with dead := s.units.dead.filter (· != n) }) 0x0A0A 0xFF
      (unitIdOf s n) [n])

end Sys2Proof.Machine
end

