-- ==== Sys2Proof/Machine/Reduction.lean ====
section
/-! DEFINITION. Machine/Reduction.lean: reductions over LFT (16 R375, R376). -/

namespace Sys2Proof.Machine

/-! ## The schedule (R376) -/

/-- Largest power of two at or below D. -/
def foldP (d : Nat) : Nat := 2 ^ Nat.log2 d

/-- A move of a member: send the own values to a rank, combine a rank's values, or take them as the result. -/
inductive RedMove where
  | send (rank round : Nat)
  | comb (rank round : Nat)
  | take (rank round : Nat)
  deriving DecidableEq, Repr

/-- Number of exchange k in the packets: folding in is round 0 where D is no power of two (log 20, DESIGN CHOICE). -/
def exchRound (d k : Nat) : Nat := if foldP d = d then k else k + 1

/-- Number of the round that sends a result out. -/
def lastRound (d : Nat) : Nat := Nat.log2 d + 1

/-- The moves of a rank among D members. -/
def redMoves (d r : Nat) : List RedMove :=
  let p := foldP d
  if p ≤ r then [.send (r - p) 0, .take (r - p) (lastRound d)]
  else
    (if r + p < d then [RedMove.comb (r + p) 0] else []) ++
      (upFrom 0 (Nat.log2 d)).flatMap (fun k =>
        let o := r ^^^ 2 ^ k
        [RedMove.send o (exchRound d k), .comb o (exchRound d k)]) ++
      (if r + p < d then [RedMove.send (r + p) (lastRound d)] else [])

/-- Op i of a reduction on two values, the lower rank's first. -/
def redOp (op lo hi : Nat) : Nat :=
  match op with
  | 1 => f64add lo hi
  | 2 => f64pick true lo hi
  | 3 => f64pick false lo hi
  | 4 => lo ||| hi
  | 5 => (lo + hi) % 2 ^ 64
  | 6 => max lo hi
  | _ => lo

/-- Combines eight values (R376). -/
def redComb (ops : Nat) (lo hi : List Nat) : List Nat :=
  (upFrom 0 8).map (fun i => redOp (bits ops (4 * i + 3) (4 * i)) (lo.getD i 0) (hi.getD i 0))

/-! ## Running -/

/-- Replaces a reduction. -/
def putRed (s : State) (r : Reduction) : State :=
  putLft s { s.lft with reductions := s.lft.reductions.map (fun x =>
    if x.part = r.part ∧ x.tag = r.tag then r else x) }

/-- Sends a member's values to a rank, each most significant byte first (R10). -/
def sendRed (s : State) (r : Reduction) (rank round : Nat) : State :=
  let n := r.members.getD rank 0
  let u := queuePkts s n r.part [(none, { headFor s n r.part 5 with
    aux := round, addr := r.tag, payload := r.vals.flatMap (toBytesBE 8) })]
  pump u.2 n r.part

/-- The contribution of a rank for a round, if it has come. -/
def foundRed (r : Reduction) (rank round : Nat) : Option (List Nat) :=
  ((r.early.find? (fun e => e.1 == r.members.getD rank 0 && e.2.1 == round)).map (fun e => e.2.2))

/-- A contribution of other `ops` breaks the reduction (R376): no result, and the partition is held. -/
def redMismatch (s : State) (r : Reduction) : State :=
  let s := putLft s { s.lft with reductions := s.lft.reductions.filter (fun x => !(x.part == r.part && x.tag == r.tag)) }
  addHold (raise s 0x090B r.part (unitId 0 6 0 (selfPeer s)) [r.tag, r.rank]) r.part 0x090B

/-- Makes the moves of a reduction as far as contributions have come; `fuel` bounds them. -/
def runRed : Nat → State → Reduction → State
  | 0, s, _ => s
  | k + 1, s, r =>
    match (redMoves r.members.length r.rank)[r.round]? with
    | none => s
    | some (.send o n) =>
      let r' := { r with round := r.round + 1 }
      runRed k (putRed (sendRed s r o n) r') r'
    | some (.comb o n) =>
      match foundRed r o n with
      | none => s
      | some v =>
        if v.getD 8 0 ≠ r.ops then redMismatch s r
        else
          let r' := { r with
            round := r.round + 1, vals := if r.rank < o then redComb r.ops r.vals v else redComb r.ops v r.vals }
          runRed k (putRed s r') r'
    | some (.take o n) =>
      match foundRed r o n with
      | none => s
      | some v =>
        if v.getD 8 0 ≠ r.ops then redMismatch s r
        else
          let r' := { r with round := r.round + 1, vals := v.take 8 }
          putRed s r'

/-- Moves of a reduction at most. -/
abbrev redFuel : Nat := 32

/-! ## The doorbell (R375) -/

/-- The descriptor keeps its rules; one that breaks them has no effect (log 20, DESIGN CHOICE). -/
def redOk (s : State) (p a d : Nat) : Bool :=
  bits d 3 0 == 1 && bits d 229 4 == 0 && decide (1 ≤ bits d 255 240) && decide (bits d 255 240 ≤ 1024) &&
    decide (bits d 239 230 < bits d 255 240) && (upFrom 0 8).all (fun i => decide (bits d (256 + 4 * i + 3) (256 + 4 * i) ≤ 6)) &&
    a % 8 == 0 && inGroups s p a && inGroups s p (a + 127) &&
    runOk s p (bits d 511 448) (2 * bits d 255 240) && counterOk (bits d 319 288) && destOk s p (bits d 447 384) 64 && !partClosed s p

/-- A reduction descriptor's address reaches the partition's doorbell (R375). -/
def reduceStore (p a : Nat) (s : State) : State :=
  let d := readNat s a 128
  let members := if redOk s p a d then [(bits d 511 448, 2 * bits d 255 240)] else []
  atDoorbell s 2 p a [[(a, 128)], members] (fun s =>
  let d := readNat s a 128
  if !redOk s p a d then s
  else
    let tag := bits d 383 320
    let mine := fun (e : Nat × Nat × Nat × Nat × List Nat) => e.1 == p && e.2.1 == tag
    let r : Reduction :=
      { part := p, tag := tag, ops := bits d 287 256, rank := bits d 239 230
        members := (upFrom 0 (bits d 255 240)).map (fun i => readNat s (bits d 511 448 + 2 * i) 2)
        result := bits d 447 384, done := bits d 319 288, round := 0
        vals := (upFrom 0 8).map (fun i => bits d (512 + 64 * i + 63) (512 + 64 * i))
        early := (s.lft.early.filter mine).map (fun e => e.2.2) }
    if s.lft.reductions.any (fun x => x.part == p && x.tag == tag) then s
    else
      let s := putLft s { s.lft with
        reductions := s.lft.reductions ++ [r], early := s.lft.early.filter (fun e => !mine e) }
      runRed redFuel s r)

/-- REDUCE_DOORBELL (R375, R288): a work core stores a reduction descriptor's address to the doorbell of partition p. -/
def execReduceDoorbell (door : Door) (addr : BitVec 64) (s : State) : Host.Outcome State Fault Refusal :=
  .next (byCore s door.core.val door.part.val (reduceStore door.part.val addr.toNat))

/-- A contribution reaches its reduction, or waits for it. -/
def contribute (s : State) (p tag peer round : Nat) (vals : List Nat) : State :=
  match s.lft.reductions.find? (fun r => r.part == p && r.tag == tag) with
  | some r =>
    let r := { r with early := r.early ++ [(peer, round, vals)] }
    runRed redFuel (putRed s r) r
  | none => putLft s { s.lft with early := s.lft.early ++ [(p, tag, peer, round, vals)] }

/-- LFT_REDUCE_RECEIVED (R376, R371, R373): a REDUCE packet's contribution; `ops` is the sender's (log 20, DESIGN CHOICE). -/
def execLftReduceReceived (h : LftPacket) (ops : BitVec 32) (s : State) : Host.Outcome State Fault Refusal :=
  .next (fromPeer s h (fun s =>
    let k := packetOf 5 h
    let n := h.srcPeer.val
    let fresh := !isOld (getFlow s n h.dstPart.val) k.seq && !isHeldSeq s n k && refusalCode s n k == 0
    let s := receiveSeq s n k
    if fresh then
      contribute s h.dstPart.val k.addr n (k.aux % 65536)
        ((upFrom 0 8).map (fun i => ofBytesBE ((h.payload.drop (8 * i)).take 8)) ++ [ops.toNat])
    else s))

/-- The eight values of a result: a free value for each that the reduction leaves unused (R375, log 20, DESIGN CHOICE). -/
def resultVals (s : State) (r : Reduction) : List Nat × State :=
  (upFrom 0 8).foldl (fun acc i =>
    if bits r.ops (4 * i + 3) (4 * i) = 0 then
      let f := freshFree acc.2
      (acc.1 ++ [f.1 % 2 ^ 64], f.2)
    else (acc.1 ++ [r.vals.getD i 0], acc.2)) ([], s)

/-- REDUCTION_DONE (R376): the k-th reduction, all its moves made: the result is written, done_counter signalled. -/
def execReductionDone (k : Nat) (s : State) : Host.Outcome State Fault Refusal :=
  match s.lft.reductions[k]? with
  | none => .next s
  | some r =>
    if r.round < (redMoves r.members.length r.rank).length then .next s
    else
      let f := resultVals s r
      let s := writeBytes f.2 r.result (f.1.flatMap (toBytes 8))
      let s := lftCtr (putLft s { s.lft with reductions := dropAt s.lft.reductions k }) 9 1
      .next (signalOne s r.part r.done (unitId 0 6 0 (selfPeer s)))

end Sys2Proof.Machine
end

