-- ==== Sys2Proof/Machine/Ports.lean ====
section
/-! DEFINITION. Machine/Ports.lean: the Ethernet ports, priority flow control, the front optics and PTP (16 R358 to R362,
R380 to R383; 21 R487). -/

namespace Sys2Proof.Machine

/-- A setting of a port (R384). -/
def portSet (s : State) (port sub : Nat) : Nat := setting s (0x5000 + 16 * port) sub

/-- Bumps a port's counter (R385). -/
def portCtr (s : State) (port sub n : Nat) : State := addCtr s (0x5001 + 16 * port) sub n

/-- Sub-ports of a mode (R359). -/
def subCount (mode : Nat) : Nat := 2 ^ mode

/-- The mode of a port; the ROM serves E0.0 in mode 0 (R502). -/
def portMode (s : State) (p : Nat) : Nat := if s.dev.phase = .recovery then 0 else portSet s p 1

/-- Sub-port `8 * port + y` exists in its port's mode and is enabled; in ROM recovery E0.0 alone is (R502). -/
def subOn (s : State) (l : Nat) : Bool :=
  if s.dev.phase = .recovery then l == 0
  else decide (l % 8 < subCount (portMode s (l / 8))) && bitSet (portSet s (l / 8) 2) (l % 8)

/-- A sub-port's medium is ready: a backplane always, a copper cable that is not refused, an optic that is ready and has
initialised the data path of the sub-port's lane group (R360, R362). -/
def mediumReady (s : State) (l : Nat) : Bool :=
  if l / 8 < 4 then
    let o := mget Optic.reset s.ports.optics (l / 8)
    o.state == 3 && (o.medium == 1 || (o.medium == 2 && bitSet o.paths (l % 8)))
  else true

/-! ## Addresses of the ports (R480) -/

/-- dev.mac_base: bits [7:0] and [63:48] are zero (R480). -/
def macBase : Nat := Config.madeNum (objKey 0x1000 8) % 2 ^ 40 * 256

/-- The MAC address that a sub-port, or the management port (128), sends from (R480). -/
def portMac (port : Nat) : Nat := macBase + port

/-- The clock identity that a MAC address makes: 0xFFFE after its first three bytes (R480). -/
def identityOf (mac : Nat) : Nat := mac / 2 ^ 24 * 2 ^ 40 + 0xFFFE * 2 ^ 24 + mac % 2 ^ 24

/-- ptp.clock_identity (R480). -/
def clockIdentity : Nat := identityOf macBase

/-- The PTP port identity of a sub-port, or of the management port (128): port 8 p + y + 1, or 129 (R480). -/
def ptpPort (port : Nat) : Nat := clockIdentity * 2 ^ 16 + (port + 1)

/-! ## Links (R360, R377) -/

/-- LINK_UP (R360): a sub-port achieves FEC alignment and PCS lock; every peer that may use it is sent a HELLO (R369). In a
start it completes step 10 (R438; log 24, DEDUCED). -/
def execLinkUp (l : Fin 128) (s : State) : Host.Outcome State Fault Refusal :=
  let n := l.val
  if s.ports.links.contains n || !subOn s n || s.ports.holding.contains n || !mediumReady s n ||
      4 ≤ getDom s (28 + n / 8) then .next s
  else
    let s := wakeDomain (putPorts s { s.ports with links := s.ports.links ++ [n] }) (28 + n / 8)
    let s := stepDone (raise s 0x0901 0xFF 0 [n]) 2 10
    .next ((if s.dev.phase = .recovery then [] else peersOn s n).foldl (fun s p =>
      sendHello (if peerFld s p 33 32 = 0 then setPeerState s p 1 else s) p n) s)

/-- A sub-port goes down: its packets go to other paths; the eleventh loss within 60 s holds it (R360, R372, R377). -/
def linkLost (s : State) (n : Nat) : State :=
  if !s.ports.links.contains n then s
  else
    let recent := (s.ports.downs.filter (fun e => e.1 == n && decide (nowNs s < e.2 + 60000000000))).length
    let hold := decide (10 ≤ recent)
    let s := putPorts s { s.ports with
      links := s.ports.links.filter (· != n)
      downs := s.ports.downs.filter (fun e => decide (nowNs s < e.2 + 60000000000)) ++ [(n, nowNs s)]
      holding := if hold then insertNew s.ports.holding n else s.ports.holding
      paused := s.ports.paused.filter (fun x => x / 8 != n), ignored := s.ports.ignored.filter (fun x => x / 8 != n)
      asking := s.ports.asking.filter (fun x => x / 8 != n) }
    let s := if hold then portCtr s (n / 8) 0x0A 1 else s
    let s := raise s 0x0902 0xFF 0 [n]
    (peersOn s n).foldl (fun s p =>
      let s := removePath s n p
      if peerFld s p 33 32 = 1 then setPeerState s p (idlePeerState s p) else s) s

/-- LINK_DOWN (R360): loss of FEC alignment, or 8 uncorrectable codewords in a row; a link event wakes the port (R417). -/
def execLinkDown (l : Fin 128) (s : State) : Host.Outcome State Fault Refusal :=
  .next (linkLost (wakeDomain s (28 + l.val / 8)) l.val)

/-- LINK_HOLD_EXPIRY (R360): the 10 s hold of a sub-port ends. -/
def execLinkHoldExpiry (l : Fin 128) (s : State) : Host.Outcome State Fault Refusal :=
  .next (putPorts s { s.ports with holding := s.ports.holding.filter (· != l.val) })

/-- Every sub-port of a port goes down: a change of its mode, or its optic's removal. -/
def portDown (s : State) (port : Nat) : State := (upFrom (8 * port) 8).foldl linkLost s

/-! ## Frames and priority flow control (R359, R361) -/

/-- Code of a priority of a sub-port. -/
def prioKey (l k : Nat) : Nat := 8 * l + k

/-- The sender of a priority is asked to pause when its receive buffer says so, and released when it no longer does, by a PFC
frame for a priority that port.pfc_mask names (R361; log 104, DESIGN CHOICE). -/
def pfcAsk (s : State) (l k : Nat) (full : Bool) : State :=
  let x := prioKey l k
  if !bitSet (portSet s (l / 8) 4) k || full == s.ports.asking.contains x then s
  else
    portCtr (putPorts s { s.ports with
      asking := if full then s.ports.asking ++ [x] else s.ports.asking.filter (· != x) }) (l / 8) 9 1

/-- FRAME_RECEIVED (R359, R361, R385): a frame of `len` bytes on a sub-port; oversize frames and those that fail their FCS
are dropped and counted. An untagged frame has priority 0. -/
def execFrameReceived (l : Fin 128) (len : BitVec 16) (check : FrameCheck) (s : State) :
    Host.Outcome State Fault Refusal :=
  let p := l.val / 8
  if !s.ports.links.contains l.val then .next s
  else
    let s := wakeDomain s (28 + p)
    let s := portCtr (portCtr s p 5 check.corrected.toNat) p 6 check.uncorrectable.toNat
    if 9216 < len.toNat then .next (portCtr s p 0x0C 1)
    else if !check.fcsOk then .next (portCtr s p 7 1)
    else .next (pfcAsk (portCtr (portCtr s p 1 1) p 3 len.toNat) l.val ((check.pcp.map BitVec.toNat).getD 0) check.full)

/-- PFC_FRAME_RECEIVED (R361): each priority that the frame's class-enable vector names is paused, or released where its
time is 0; a priority whose pause is ignored stays free. The ROM runs no PFC (R502). -/
def execPfcFrameReceived (l : Fin 128) (enable times : BitVec 8) (s : State) : Host.Outcome State Fault Refusal :=
  if !s.ports.links.contains l.val || s.dev.phase = .recovery then .next s
  else
    let s := portCtr s (l.val / 8) 8 1
    .next (putPorts s { s.ports with
      paused := (upFrom 0 8).foldl (fun m k =>
        let x := prioKey l.val k
        if !bitSet enable.toNat k || s.ports.ignored.contains x then m
        else if bitSet times.toNat k then insertNew m x else m.filter (· != x)) s.ports.paused })

/-- PFC_WATCHDOG (R361): a priority of a sub-port has been paused for port.pfc_watchdog_ms: its pause is ignored for 1 s. -/
def execPfcWatchdog (l : Fin 128) (k : Fin 8) (s : State) : Host.Outcome State Fault Refusal :=
  let x := prioKey l.val k.val
  if !s.ports.paused.contains x then .next s
  else
    let s := putPorts s { s.ports with
      paused := s.ports.paused.filter (· != x), ignored := insertNew s.ports.ignored x }
    .next (raise (portCtr s (l.val / 8) 0x0B 1) 0x0903 0xFF 0 [l.val, k.val])

/-- PAUSE_IGNORE_EXPIRY (R361): pause is honoured again. -/
def execPauseIgnoreExpiry (l : Fin 128) (k : Fin 8) (s : State) : Host.Outcome State Fault Refusal :=
  .next (putPorts s { s.ports with ignored := s.ports.ignored.filter (· != prioKey l.val k.val) })

/-! ## Front optics (R362, R487) -/

/-- Writes a cage's optic. -/
def putOptic (s : State) (p : Nat) (o : Optic) : State :=
  putPorts s { s.ports with optics := mset Optic.reset s.ports.optics p o }

/-- A refused optic stays in low power (R362); reason 1 power, 2 no Application. -/
def refuseOptic (s : State) (p reason : Nat) (o : Optic) : State :=
  raise (putOptic s p { o with state := 6, paths := 0 }) 0x0906 0xFF 0 [p, reason]

/-- The sub-ports of a port that are there and enabled, as a mask. -/
def subMask (s : State) (p : Nat) : Nat := sumOf (((upFrom 0 8).filter (fun y => subOn s (8 * p + y))).map (2 ^ ·))

/-- Steps 2 and 3 of R362 for the optic in a cage: its power is checked, then the Application of the port's mode selected;
one refused before leaves low power once both hold, and the data paths of a ready one are those of the sub-ports enabled
now (log 103, DESIGN CHOICE). -/
def selectApp (s : State) (p : Nat) : State :=
  let o := mget Optic.reset s.ports.optics p
  let why := if o.medium = 2 && decide (1000 * portSet s p 9 < o.powerMw) then 1
    else if !bitSet o.apps (portMode s p) then 2 else 0
  if o.medium = 0 then s
  else if why ≠ 0 then (if o.state = 6 then s else refuseOptic s p why o)
  else
    let st := if o.medium = 1 then 3 else if o.state = 1 || o.state = 6 then 2 else o.state
    putOptic s p { o with state := st, paths := if st = 3 then subMask s p else 0 }

/-- A CMIS name without its trailing spaces (R487). -/
def cmisName (l : List Byte) : List Byte := (l.reverse.dropWhile (· == 0x20)).reverse

/-- OPTIC_INSERTED (R362): an optic or copper cable in cage p: identity, advertised maximum power in mW, and the port modes
for which it lists an Application (bit m). -/
def execOpticInserted (p : Fin 4) (copper : Bool) (powerMw : BitVec 32) (apps : BitVec 4)
    (vendor part serial : List Byte) (s : State) : Host.Outcome State Fault Refusal :=
  if (mget Optic.reset s.ports.optics p.val).medium ≠ 0 || 4 ≤ getDom s (28 + p.val) then .next s
  else
    let s := wakeDomain s (28 + p.val)
    let o : Optic := { Optic.reset with
      medium := if copper then 1 else 2, state := if copper then 3 else 1
      powerMw := if copper then 0 else powerMw.toNat, apps := apps.toNat, vendor := cmisName vendor, part := part
      serial := serial }
    .next (selectApp (raise (putOptic s p.val o) 0x0904 0xFF 0 [p.val, o.powerMw]) p.val)

/-- OPTIC_REMOVED (R362, R487): the cage's sub-ports go down, its values and latched alarms clear. -/
def execOpticRemoved (p : Fin 4) (s : State) : Host.Outcome State Fault Refusal :=
  if (mget Optic.reset s.ports.optics p.val).medium = 0 then .next s
  else
    let s := portDown (wakeDomain s (28 + p.val)) p.val
    .next (raise (putOptic s p.val Optic.reset) 0x0905 0xFF 0 [p.val])

/-- OPTIC_MONITOR_READ (R362, R487): once per second the monitors of a front optic are read and its flags latched, with the
state of its module state machine; one that becomes ready has the data paths of the enabled sub-ports initialised (log 103,
DESIGN CHOICE). A refused optic stays refused. -/
def execOpticMonitorRead (p : Fin 4) (temp supply : BitVec 32) (lanes : List Byte) (reading : OpticReading) (s : State) :
    Host.Outcome State Fault Refusal :=
  let o := mget Optic.reset s.ports.optics p.val
  if o.medium = 0 || 3 ≤ getDom s (28 + p.val) then .next s
  else
    let s := wakeDomain s (28 + p.val)
    let st := if o.medium = 1 || o.state = 6 || reading.state.val = 0 then o.state else reading.state.val
    .next (putOptic s p.val { o with
      temp := temp, supply := supply, lanes := lanes.take 96, flags := o.flags ||| reading.flags.toNat, state := st
      paths := if st ≠ 3 then 0 else if o.state = 3 then o.paths else subMask s p.val })

/-- The cage and port of an ETH domain lose their power while port.enable is 0, and have it again when it is not; the links
come up anew (R415). -/
def ethPower (s : State) (p : Nat) : State :=
  let i := 28 + p
  if portSet s p 2 = 0 then
    if getDom s i = 4 then s
    else
      let s := switchDom (portDown s p) i 4
      putPorts s { s.ports with optics := mset Optic.reset s.ports.optics p (coldOptic (mget Optic.reset s.ports.optics p)) }
  else if getDom s i = 4 then selectApp (switchDom s i 0) p
  else s

/-- Clears the latched alarms of a front optic (R487). -/
def alarmClear (s : State) (p v : Nat) : State :=
  if v = 1 then putOptic s p { mget Optic.reset s.ports.optics p with flags := 0 } else s

/-- ALARM_CLEAR (R487): a write to optic.alarm_clear. -/
def execAlarmClear (p : Fin 4) (v : BitVec 8) (s : State) : Host.Outcome State Fault Refusal :=
  .next (alarmClear s p.val v.toNat)

/-! ## Device time (R380 to R382) -/

/-- Adds a signed number of nanoseconds to device time. -/
def shiftTime (s : State) (d : Int) : State :=
  let n := ((nowNs s : Int) + d).toNat
  putTime s { s.time with s := n / 1000000000 % 2 ^ 48, ns := n % 1000000000 }

/-- Device time advances by an AO cycle: 10 ns and the correction (R382). -/
def advanceTime (s : State) : State :=
  let f := s.time.frac + s.time.corr
  let k := f / 2 ^ 32
  shiftTime (putTime s { s.time with frac := f - k * 2 ^ 32 }) (10 + k)

/-- Largest correction per AO cycle: 100 ppm of 10 ns, in 2^-32 ns. -/
abbrev corrLimit : Nat := 4294967

/-- The servo's correction, within its limit: the spec states no law for it, so it is free (R382, log 26, DESIGN CHOICE). -/
def servoCorr (s : State) : State :=
  let f := freshFree s
  let c : Int := (f.1 % (2 * corrLimit + 1) : Nat) - (corrLimit : Int)
  let now := nowNs f.2
  putTime f.2 { f.2.time with
    corr := c, hist := f.2.time.hist.filter (fun e => decide (now < e.1 + 60000000000)) ++ [(now, c)] }

/-- The average correction over the last 60 s LOCKED (R382). -/
def meanCorr (t : Time) : Int :=
  match t.hist with
  | [] => t.corr
  | l => (l.foldl (fun a e => a + e.2) 0) / (l.length : Int)

/-- Entry to HOLDOVER (R382); reason 1 Announce timeout, 2 SLEEP. -/
def enterHoldover (s : State) (why : Nat) : State :=
  let s := putTime s { s.time with
    state := 3, corr := meanCorr s.time, hist := [], holdoverFrom := s.ao, holdoverCause := why }
  raise s 0x090F 0xFF 0 [why]

/-- Entry to LOCKED (R382). -/
def enterLocked (s : State) (offset : Int) : State :=
  let s := stepDone (putTime s { s.time with state := 2, locked := true, hist := [] }) 3 11
  raise s 0x090E 0xFF 0 [s.time.gm, toField 64 offset]

/-- The accuracy of LOCKED in ns: 25 with the grandmaster directly attached, 40 behind a boundary clock (R382, R383; log 110, DEDUCED). -/
def lockedNs (s : State) : Nat :=
  match s.time.parent with
  | some p => if p.clock.steps = 0 then 25 else 40
  | none => 25

/-- A completed measurement of the offset from the time transmitter (R382). -/
def measured (s : State) (offset : Int) : State :=
  let s := putTime s { s.time with offset := offset }
  let far := decide ((setting s 0x1200 4 : Int) < offset.natAbs)
  let near := decide (offset.natAbs ≤ lockedNs s)
  let step := fun (_ : Unit) => raise (shiftTime s (-offset)) 0x0911 0xFF 0 [toField 64 (-offset)]
  match s.time.state with
  | 1 =>
    if !s.time.locked then enterLocked (shiftTime s (-offset)) offset
    else if far then step ()
    else if near then enterLocked s offset
    else servoCorr s
  | 2 => if far then step () else servoCorr (if near then s else putTime s { s.time with state := 1 })
  | _ => s

/-! ## PTP messages (R380, R381): IEEE 1588-2019 gives what the exchange computes (log 105, PRESUMED) -/

/-- Replaces the PTP exchange. -/
def putPtp (s : State) (v : PtpExchange) : State := putTime s { s.time with ptp := v }

/-- A timestamp in 2^-16 ns. -/
def stampTime (t : BitVec 80) : Int := ((t.toNat / 2 ^ 32 * 1000000000 + t.toNat % 2 ^ 32 : Nat) : Int) * 65536

/-- The timestamp of an event message that is sent or received now, in 2^-16 ns (R381). -/
def stampNow (s : State) : Int := (nowNs s : Int) * 65536

/-- The known asymmetry of a port's path in 2^-16 ns (R381, R384); the management port has no such setting. -/
def asymmetry (s : State) (port : Nat) : Int :=
  if port < 128 then (match settingV s (0x5000 + 16 * (port / 8)) 7 with | .num n => n * 65536 | .bytes _ => 0) else 0

/-- A message's correction in 2^-16 ns. -/
def corrOf (h : PtpHead) : Int := asSigned 64 h.corr.toNat

/-- A PTP message of `len` bytes is sent, at PCP 7 and never paused, with the headers of its transport (R361, R380, R385). -/
def ptpSend (s : State) (port len : Nat) : State :=
  if port < 128 then
    let s := wakeDomain s (28 + port / 8)
    let head := match setting s 0x1200 8 with | 1 => 28 | 2 => 48 | _ => 0
    portCtr (portCtr s (port / 8) 2 1) (port / 8) 4 (max 68 (22 + head + len))
  else s

/-- The order of the best master clock algorithm: the lower is better (R380). -/
def clockRank (p : PtpParent) : Nat :=
  let c := p.clock
  c.priority1.toNat * 2 ^ 216 + c.cls.toNat * 2 ^ 208 + c.accuracy.toNat * 2 ^ 200 + c.variance.toNat * 2 ^ 184 +
    c.priority2.toNat * 2 ^ 176 + c.gm.toNat * 2 ^ 112 + c.steps.toNat * 2 ^ 96 + p.source * 2 ^ 16 + p.port

/-- An Announce: its sender is selected where none is or it is better than the one selected, whose own Announce renews it. -/
def announced (s : State) (c : PtpParent) : State :=
  let same := match s.time.parent with | some p => p.port == c.port && p.source == c.source | none => false
  let better := match s.time.parent with | some p => decide (clockRank c < clockRank p) | none => true
  if !same && !better then s
  else
    let s := if same then s else putPtp s { PtpExchange.reset with seq := s.time.ptp.seq }
    let gm := c.clock.gm.toNat
    putTime s { s.time with
      parent := some c, gm := gm, state := if s.time.state = 2 && s.time.gm = gm then 2 else 1 }

/-- The module asks for the path's delay: a Delay_Req, or a Pdelay_Req in the peer-to-peer profile; with which Sync the spec
does not say: with each (log 109, DESIGN CHOICE). -/
def askDelay (s : State) (port len : Nat) : State :=
  let v := s.time.ptp
  ptpSend (putPtp s { v with asked := some (v.seq, stampNow s), resp := none, seq := (v.seq + 1) % 65536 }) port len

/-- The offset that the latest Sync gives with a path delay. -/
def useDelay (s : State) (delay : Int) : State :=
  let v := s.time.ptp
  match v.sync with
  | none => putPtp s { v with delay := some delay }
  | some (t1, t2) => measured (putPtp s { v with delay := some delay, sync := none }) ((t2 - t1 - delay) / 65536)

/-- A Sync is complete: its time of sending, corrected, and of receipt. -/
def synced (s : State) (port : Nat) (t1 t2 : Int) : State :=
  let s := putPtp s { s.time.ptp with sync := some (t1 + asymmetry s port, t2), waiting := none }
  if setting s 0x1200 7 = 0 then askDelay s port 44
  else askDelay (match s.time.ptp.delay with | some d => useDelay s d | none => s) port 54

/-- A message of the time transmitter or, in the peer-to-peer profile, of the link's other end. -/
def ptpExchange (s : State) (port : Nat) (m : PtpMsg) : State :=
  let v := s.time.ptp
  let p2p := setting s 0x1200 7 = 1
  let mine := fun (h : PtpHead) =>
    match s.time.parent with | some p => p.port == port && p.source == h.source.toNat | none => false
  let answers := fun (h : PtpHead) (asker : BitVec 80) =>
    match v.asked with | some a => a.1 == h.seq.toNat && asker.toNat == ptpPort port | none => false
  let sent := (v.asked.map Prod.snd).getD 0
  match m with
  | .sync h twoStep origin =>
    if !mine h then s
    else if twoStep then putPtp s { v with waiting := some (h.seq.toNat, stampNow s - corrOf h), sync := none }
    else synced s port (stampTime origin + corrOf h) (stampNow s)
  | .followUp h origin =>
    match v.waiting with
    | some (q, t2) => if mine h && q == h.seq.toNat then synced s port (stampTime origin + corrOf h) t2 else s
    | none => s
  | .delayResp h received asker =>
    if p2p || !mine h || !answers h asker then s
    else match v.sync with
      | none => s
      | some (t1, t2) =>
        let t4 := stampTime received - corrOf h + asymmetry s port
        useDelay (putPtp s { v with asked := none }) (((t2 - t1) + (t4 - sent)) / 2)
  | .pdelayReq _ => if p2p then ptpSend (ptpSend s port 54) port 54 else s
  | .pdelayResp h twoStep received asker =>
    if !p2p || !answers h asker then s
    else if twoStep then putPtp s { v with resp := some (stampTime received, stampNow s - corrOf h) }
    else putPtp s { v with asked := none, delay := some ((stampNow s - sent - corrOf h) / 2) }
  | .pdelayFollow h out asker =>
    match v.resp with
    | some (t2, t4) =>
      if !p2p || !answers h asker then s
      else putPtp s { v with
        asked := none, resp := none, delay := some (((t4 - sent) - (stampTime out - t2) - corrOf h) / 2) }
    | none => s
  | .announce _ _ | .management _ => s

/-- What a PTP message carries in common. -/
def ptpHead (m : PtpMsg) : PtpHead :=
  match m with
  | .announce h _ | .sync h _ _ | .followUp h _ | .delayResp h _ _ | .pdelayReq h | .pdelayResp h _ _ _
  | .pdelayFollow h _ _ | .management h => h

/-- PTP_MESSAGE (R380 to R382): a message on a sub-port, or on the management port (128), that takes part; other domains and
transports and management messages are ignored, and the ROM runs no PTP (R502). -/
def execPtpMessage (port : Fin 129) (m : PtpMsg) (s : State) : Host.Outcome State Fault Refusal :=
  let on := if port.val < 128 then bitSet (portSet s (port.val / 8) 6) (port.val % 8) else setting s 0x1200 9 == 1
  let h := ptpHead m
  if !on || s.dev.phase == .recovery || h.domain.toNat ≠ setting s 0x1200 6 || h.transport.val ≠ setting s 0x1200 8 then
    .next s
  else match m with
    | .announce h c => .next (announced s ⟨port.val, h.source.toNat, c⟩)
    | m => .next (ptpExchange s port.val m)

/-- No time transmitter is selected any more. -/
def dropParent (s : State) : State := putTime s { s.time with parent := none, ptp := .reset }

/-- ANNOUNCE_TIMEOUT (R382): Announce messages have stopped: a clock with a time transmitter enters HOLDOVER. -/
def execAnnounceTimeout (s : State) : Host.Outcome State Fault Refusal :=
  match s.time.state with
  | 1 | 2 => .next (enterHoldover (dropParent s) 1)
  | _ => .next (dropParent s)

/-- HOLDOVER_LIMIT (R382): HOLDOVER has lasted time.holdover_limit_s. -/
def execHoldoverLimit (s : State) : Host.Outcome State Fault Refusal :=
  if s.time.state = 3 then
    let s' := putTime s { s.time with state := 0, locked := false, gm := 0, parent := none, ptp := .reset }
    .next (raise s' 0x0910 0xFF 0 [max (setting s 0x1200 5) ((s.ao - s.time.holdoverFrom) / 100000000)])
  else .next s

end Sys2Proof.Machine
end

