-- ==== Sys2Proof/Machine/Panel.lean ====
section
/-! DEFINITION. Machine/Panel.lean: front panel, quiesce and removal, handling, insertion, tracing (21 R488 to R491; 23 R512
to R523). -/

namespace Sys2Proof.Machine

/-- The management firmware runs. -/
def firmwareRuns (s : State) : Bool :=
  match s.dev.phase with
  | .bringup | .ready | .failed | .critical => true
  | _ => false

/-! ## Identify and LED test (R488, R518) -/

/-- Seconds of identify remaining. -/
def identifyLeft (s : State) : Nat := ceilDiv (s.panel.identify - s.ao) 100000000

/-- Starts identify for a number of seconds, or stops it. -/
def setIdentify (s : State) (v : Nat) : State :=
  if v = 0 then putFront s { s.panel with identify := 0 }
  else raise (putFront s { s.panel with identify := s.ao + 100000000 * v }) 0x0C01 0xFF 0 [v]

/-- IDENTIFY_WRITE (R488): a write to panel.identify_s, 0 to 3,600. -/
def execIdentifyWrite (v : BitVec 16) (s : State) : Host.Outcome State Fault Refusal :=
  if v.toNat ≤ 3600 then .next (setIdentify s v.toNat) else .next s

/-- IDENTIFY_EXPIRY (R488): the countdown reaches 0. -/
def execIdentifyExpiry (s : State) : Host.Outcome State Fault Refusal :=
  .next (putFront s { s.panel with identify := 0 })

/-- SVC_SHORT_PRESS (R518): identify becomes 60 s if it was 0, and 0 otherwise. -/
def execSvcShortPress (s : State) : Host.Outcome State Fault Refusal :=
  if firmwareRuns s && bitSet (setting s 0x6000 2) 0 then .next (setIdentify s (if identifyLeft s = 0 then 60 else 0))
  else .next s

/-- A write to panel.led_test (R488). -/
def ledTest (s : State) (v : Nat) : State := if v = 1 then putFront s { s.panel with ledTest := true } else s

/-- LED_TEST (R488): 1 lights every LED for 3 s. -/
def execLedTest (v : BitVec 8) (s : State) : Host.Outcome State Fault Refusal := .next (ledTest s v.toNat)

/-- LED_TEST_EXPIRY (R488): every LED returns to its pattern. -/
def execLedTestExpiry (s : State) : Host.Outcome State Fault Refusal :=
  .next (putFront s { s.panel with ledTest := false })

/-! ## Quiesce and removal (R521 to R523) -/

/-- The partition rests: PREEMPTED, STOPPED, HELD, or not formed. -/
def partRests (q : Part) : Bool :=
  match q.state with
  | .preempted | .stopped | .held | .unformed => true
  | _ => false

/-- Every formed partition rests. -/
def allRest (s : State) : Bool := (upFrom 0 16).all (fun p => partRests (getPart s p))

/-- Applies PREEMPT for a request to every RUNNING partition that it has not reached (R521). -/
def pushPreempts (s : State) (who : Nat) : State :=
  (upFrom 0 16).foldl (fun s p =>
    let q := getPart s p
    if q.state == .running && !q.preemptBy.contains who then tryPreempt (askPreempt s p who) p else s) s

/-- Withdraws a request: partitions that only it pre-empted resume, or are no longer asked; while a
removal is in force the RESUME is refused (R522; log 53, DEDUCED). -/
def dropPreempts (s : State) (who : Nat) : State :=
  (upFrom 0 16).foldl (fun s p =>
    let q := getPart s p
    if !q.preemptBy.contains who then s
    else
      let rest := q.preemptBy.filter (· != who)
      let s := putPart s p { q with preemptBy := rest }
      if !rest.isEmpty then s
      else if q.state == .preempted then if s.panel.removal = 0 then resumePart s p else refuseCmd s p 5
      else putPart s p { getPart s p with preemptAsked := false, stepStopped := [], resumePreempted := false }) s

/-- Quiesce and removal requests reach partitions that become RUNNING; removal's state follows (R521, R522). -/
def followRequests (s : State) : State :=
  let s := if s.panel.quiesce ≠ 0 then pushPreempts s 1 else s
  if s.panel.removal = 0 then s
  else
    let s := pushPreempts s 2
    let pend := (upFrom 0 16).any (fun p =>
      match (getPart s p).state with | .restarting | .forming => true | _ => false)
    if s.panel.removal = 1 && !pend then putFront s { s.panel with removal := 2 } else s

/-- A quiesce request (R521). -/
def quiesceRequest (s : State) : State :=
  followRequests (raise (putFront s { s.panel with quiesce := 1 }) 0x0C02 0xFF 0 [])

/-- QUIESCE_REQUEST (R521): without effect while one is in force. -/
def execQuiesceRequest (s : State) : Host.Outcome State Fault Refusal :=
  if s.panel.quiesce = 0 then .next (quiesceRequest s) else .next s

/-- SVC_HOLD (R518, R521): a 5 s hold requests a quiesce, or cancels one. -/
def execSvcHold (s : State) : Host.Outcome State Fault Refusal :=
  if !firmwareRuns s || !bitSet (setting s 0x6000 2) 1 then .next s
  else if s.panel.quiesce = 0 then .next (quiesceRequest s)
  else .next (dropPreempts (putFront s { s.panel with quiesce := 0 }) 1)

/-- QUIESCED (R521): every formed partition rests. -/
def execQuiesced (s : State) : Host.Outcome State Fault Refusal :=
  if s.panel.quiesce = 1 && allRest s then
    .next (raise (putFront s { s.panel with quiesce := 2 }) 0x0C03 0xFF 0 [])
  else .next s

/-- A removal request (R489, R522); reason 1 pad, 2 lever, 3 dictionary. -/
def removalRequest (s : State) (why : Nat) : State :=
  if s.panel.removal ≠ 0 then s
  else followRequests (raise (putFront s { s.panel with removal := 1 }) 0x0C04 0xFF 0 [why])

/-- A cancel of the removal (R523). -/
def removalCancel (s : State) : State :=
  if s.panel.removal = 0 then s
  else dropPreempts (raise (putFront s { s.panel with removal := 0 }) 0x0C06 0xFF 0 []) 2

/-- REMOVAL_REQUEST (R522): panel.removal_request written 1. -/
def execRemovalRequest (s : State) : Host.Outcome State Fault Refusal := .next (removalRequest s 3)

/-- REMOVAL_CANCEL (R523): panel.removal_request written 2. -/
def execRemovalCancel (s : State) : Host.Outcome State Fault Refusal := .next (removalCancel s)

/-- The conditions of removal state 3 (R522). -/
def removalOk (s : State) : Bool :=
  allRest s && s.settings.flashWaiting.isEmpty && s.fw.queue.isEmpty && s.dap.remapDue.isEmpty && s.fw.update != 4

/-- REMOVAL_SAFE (R522): every condition holds: the blue LED lights. -/
def execRemovalSafe (s : State) : Host.Outcome State Fault Refusal :=
  if s.panel.removal = 2 && removalOk s then
    .next (raise (putFront s { s.panel with removal := 3 }) 0x0C05 0xFF 0 [])
  else .next s

/-- A condition that ceases to hold takes state 3 back to 2 (R522). -/
def checkRemoval (s : State) : State :=
  if s.panel.removal = 3 && !removalOk s then putFront s { s.panel with removal := 2 } else s

/-- HANDLE_PAD_TOUCH (R519): a touch of 2 s; `began` is the removal state when it began. -/
def execHandlePadTouch (began : Fin 4) (s : State) : Host.Outcome State Fault Refusal :=
  if firmwareRuns s && bitSet (setting s 0x6000 2) 2 && began.val = 0 then .next (removalRequest s 1) else .next s

/-- LEVER_OPEN (R520): never masked. -/
def execLeverOpen (s : State) : Host.Outcome State Fault Refusal :=
  if s.panel.lever then .next s
  else .next (removalRequest (raise (putFront s { s.panel with lever := true }) 0x0C07 0xFF 0 []) 2)

/-- LEVER_CLOSED (R520): cancels nothing. -/
def execLeverClosed (s : State) : Host.Outcome State Fault Refusal :=
  if s.panel.lever then .next (raise (putFront s { s.panel with lever := false }) 0x0C08 0xFF 0 []) else .next s

/-! ## Handling (R520) -/

/-- HANDLING_SAMPLE (R520): an accelerometer sample in mg, gravity excluded; raised at most once per minute. -/
def execHandlingSample (mg : BitVec 16) (s : State) : Host.Outcome State Fault Refusal :=
  if mg.toNat ≤ setting s 0x6000 0x0A then .next (putFront s { s.panel with handling := false })
  else
    let now := 10 * s.ao
    let quiet := match s.panel.raisedNs with | none => true | some t => decide (t + 60000000000 ≤ now)
    let s := putFront s { s.panel with
      handling := true, handledNs := some now, raisedNs := if quiet then some now else s.panel.raisedNs }
    .next (if quiet then raise s 0x0C09 0xFF 0 [mg.toNat] else s)

/-- panel.handling_age_s (R488). -/
def handlingAge (s : State) : Nat :=
  if s.panel.handling then 0
  else match s.panel.handledNs with
    | none => 0xFFFFFFFF
    | some t => min 0xFFFFFFFF ((10 * s.ao - t) / 1000000000)

/-! ## Insertion and the management port (R512, R516) -/

/-- LIVE_INSERTION (R512): the module is seated in a live slot; it draws inrush current only until a cold start begins. -/
def execLiveInsertion (s : State) : Host.Outcome State Fault Refusal :=
  if s.dev.phase = .off then .next (putDev s { s.dev with seated := true }) else .next s

/-- MANAGEMENT_PORT_LINK_UP (R516). -/
def execManagementPortLinkUp (s : State) : Host.Outcome State Fault Refusal :=
  .next (wakeDomain (putDev s { s.dev with mgmtLink := true }) 46)

/-- MANAGEMENT_PORT_LINK_DOWN (R516). -/
def execManagementPortLinkDown (s : State) : Host.Outcome State Fault Refusal :=
  .next (putDev s { s.dev with mgmtLink := false })

/-! ## Tracing (R491) -/

/-- The debug-disable fuse is blown (R466). -/
def debugOff (s : State) : Bool := setting s 0x1304 1 != 0

/-- The trace ring is well placed: aligned, of a legal size, in usable groups that no formed partition holds (R490,
R491). -/
def ringOk (s : State) : Bool :=
  let a := setting s 0x8000 3
  let n := setting s 0x8000 4
  a % 65536 == 0 && n % 65536 == 0 && decide (65536 ≤ n) && decide (n ≤ 2 ^ 31) &&
    [a, a + n - 1].all (fun x =>
      match placeOf x with
      | .t1 g => bitSet s.dev.groups g && (partOfMemGroup s g).isNone
      | _ => false)

/-- A write to dbg.trace_arm (R491): 1 arms, 0 stops; the answer is a status of R458, 0 or 6 STATE. -/
def traceArm (s : State) (v : Nat) : State × Nat :=
  if v = 1 then
    if ringOk s then (putTrace s { state := 1, records := 0, lost := 0 }, 0) else (s, 6)
  else if v = 0 then (putTrace s { s.trace with state := 0 }, 0)
  else (s, 0)

/-- TRACE_ARM (R491): absent once debug is disabled (R466). -/
def execTraceArm (v : BitVec 8) (s : State) : Host.Outcome State Fault Refusal :=
  if debugOff s then .next s else .next (traceArm s v.toNat).1

end Sys2Proof.Machine
end

