-- ==== Sys2Proof/Machine/Firmware.lean ====
section
/-! DEFINITION. Machine/Firmware.lean: flash, firmware update and activation, fuse rows, attestation (22; 20 R462, R465 to
R467; 21 R481 to R484). -/

namespace Sys2Proof.Machine

/-- Replaces the firmware record. -/
def putFw (s : State) (v : Firmware) : State := { s with fw := v }

/-- The session of a number. -/
def getSession (s : State) (n : Nat) : Option Session := s.dap.sessions.find? (fun x => x.number == n)

/-- Replaces a session. -/
def putSession (s : State) (x : Session) : State :=
  putDap s { s.dap with sessions := s.dap.sessions.map (fun y => if y.number = x.number then x else y) }

/-- The session is open with the OWNER role. -/
def isOwner (s : State) (n : Nat) : Bool :=
  match getSession s n with
  | some x => x.ready && x.role == 3
  | none => false

/-! ## The update (R498, R499) -/

/-- Why an update step is refused now, lowest code; 0 none (R499, R502). -/
def updateRefusal (s : State) : Nat :=
  let rom := s.dev.phase == .recovery
  if s.panel.lever then 1
  else if handlingAge s < 10 then 2
  else if s.power.holdup < 85 then 3
  else if s.power.mv < 40500 then 4
  else if !rom && setting s 0x1301 1 = 1 then 5
  else if !rom && s.dev.phase != .ready && s.dev.phase != .failed then 6
  else 0

/-- A refused update step is raised and its reason kept (R499). -/
def refuseUpdate (s : State) (code : Nat) : State :=
  raise (putFw s { s.fw with refuse := code }) 0x0B07 0xFF 0 [code]

/-- State of a slot: 0 empty, 1 receiving, 2 received, 3 verified, 4 failed. -/
def slotState (s : State) (k : Nat) : Nat := mget 0 s.fw.states k

/-- Sets a slot's state. -/
def setSlotState (s : State) (k v : Nat) : State := putFw s { s.fw with states := mset 0 s.fw.states k v }

/-- A slot is emptied: it holds no image and no version (R483, R498). -/
def emptySlot (s : State) (k : Nat) : State :=
  setSlotState (putFw s { s.fw with versions := mset 0 s.fw.versions k 0 }) k 0

/-- Another session may not write to 0x1401 while an update runs (R484). -/
def notOwnUpdate (s : State) (sess : Nat) : Bool := s.fw.update != 0 && s.fw.owner != sess

/-- fw.update_begin (R484, R498, R499); the answer is a status of R458. -/
def fwBegin (s : State) (sess slot len : Nat) : State × Nat :=
  if s.fw.update ≠ 0 then (s, 6)
  else if 1 < slot || (slot = s.fw.active && s.dev.phase != .recovery) || len < 65536 || 31457280 < len ||
      len % 65536 ≠ 0 then (s, 5)
  else if updateRefusal s ≠ 0 then (refuseUpdate s (updateRefusal s), 0)
  else
    (setSlotState (putFw s { s.fw with
      update := 1, target := slot, length := len, owner := sess, halves := [], queue := [], counted := []
      manifest := [] }) slot 1, 0)

/-- One bit of CRC-32C, reflected. -/
def crcBit (c : BitVec 32) : BitVec 32 := if c.getLsbD 0 then (c >>> 1) ^^^ 0x82F63B78 else c >>> 1

/-- CRC-32C of bytes. -/
def crc32c (l : List Byte) : Nat :=
  let r := l.foldl (fun (c : BitVec 32) b =>
    let x := c ^^^ b.setWidth 32
    crcBit (crcBit (crcBit (crcBit (crcBit (crcBit (crcBit (crcBit x)))))))) (0xFFFFFFFF : BitVec 32)
  (r ^^^ 0xFFFFFFFF).toNat

/-- fw.update_block (R484, R498, R499): one half of a block; a block whole with a matching CRC waits to be programmed. -/
def fwBlock (s : State) (sess block half crc : Nat) (data : List Byte) : State × Nat :=
  if notOwnUpdate s sess || s.fw.update ≠ 1 then (s, 6)
  else if data.length ≠ 32768 then (s, 4)
  else if 1 < half || s.fw.length / 65536 ≤ block then (s, 5)
  else if updateRefusal s ≠ 0 then (refuseUpdate s (updateRefusal s), 0)
  else if 8 ≤ s.fw.queue.length then (s, 6)
  else
    let v := s.fw
    match mfind v.halves (2 * block + (1 - half)) with
    | none => (putFw s { v with halves := mput v.halves (2 * block + half) (crc, data) }, 0)
    | some (crc', other) =>
      let whole := if half = 0 then data ++ other else other ++ data
      let left := mdel v.halves (2 * block + (1 - half))
      if crc = crc' && crc32c whole = crc then
        (putFw s { v with halves := mdel left (2 * block + half), queue := v.queue ++ [(block, whole)] }, 0)
      else (putFw s { v with halves := mdel left (2 * block + half) }, 0)

/-- fw.update_manifest (R498): written whole; a second write replaces the first. -/
def fwManifest (s : State) (sess : Nat) (m : List Byte) : State × Nat :=
  if notOwnUpdate s sess || s.fw.update ≠ 1 then (s, 6) else (putFw s { s.fw with manifest := m }, 0)

/-- The handover's checks and the start of activation (R498 step 5). -/
def handover (s : State) : State :=
  if updateRefusal s ≠ 0 then refuseUpdate s (updateRefusal s) else putFw s { s.fw with update := 4 }

/-- fw.update_activate (R498): starts verification, or repeats the handover's checks. -/
def fwActivate (s : State) (sess v : Nat) : State × Nat :=
  if notOwnUpdate s sess then (s, 6)
  else if v ≠ 1 then (s, 0)
  else
    match s.fw.update with
    | 1 =>
      if updateRefusal s ≠ 0 then (refuseUpdate s (updateRefusal s), 0)
      else (setSlotState (putFw s { s.fw with update := 2 }) s.fw.target 2, 0)
    | 3 => (handover s, 0)
    | _ => (s, 6)

/-- The update is abandoned and its slot marked empty (R498). -/
def dropUpdate (s : State) : State :=
  emptySlot (putFw s { s.fw with
    update := 0, halves := [], queue := [], counted := [], manifest := [] }) s.fw.target

/-- fw.update_abort (R498): accepted in states 1 to 3. -/
def fwAbort (s : State) (sess v : Nat) : State × Nat :=
  if notOwnUpdate s sess || s.fw.update = 0 || s.fw.update = 4 then (s, 6)
  else if v ≠ 1 then (s, 0)
  else (dropUpdate s, 0)

/-- FW_UPDATE_BEGIN (R498): by an OWNER session. -/
def execFwUpdateBegin (sess : BitVec 32) (slot : BitVec 8) (len : BitVec 32) (s : State) :
    Host.Outcome State Fault Refusal :=
  if isOwner s sess.toNat then .next (fwBegin s sess.toNat slot.toNat len.toNat).1 else .next s

/-- FW_UPDATE_BLOCK (R498). -/
def execFwUpdateBlock (sess : BitVec 32) (block : BitVec 16) (half : BitVec 8) (crc : BitVec 32) (data : List Byte)
    (s : State) : Host.Outcome State Fault Refusal :=
  if isOwner s sess.toNat then .next (fwBlock s sess.toNat block.toNat half.toNat crc.toNat data).1 else .next s

/-- FW_UPDATE_MANIFEST (R498). -/
def execFwUpdateManifest (sess : BitVec 32) (m : List Byte) (s : State) : Host.Outcome State Fault Refusal :=
  if isOwner s sess.toNat then .next (fwManifest s sess.toNat m).1 else .next s

/-- FW_UPDATE_ACTIVATE (R498). -/
def execFwUpdateActivate (sess : BitVec 32) (v : BitVec 8) (s : State) : Host.Outcome State Fault Refusal :=
  if isOwner s sess.toNat then .next (fwActivate s sess.toNat v.toNat).1 else .next s

/-- FW_UPDATE_ABORT (R498). -/
def execFwUpdateAbort (sess : BitVec 32) (v : BitVec 8) (s : State) : Host.Outcome State Fault Refusal :=
  if isOwner s sess.toNat then .next (fwAbort s sess.toNat v.toNat).1 else .next s

/-- FW_BLOCK_PROGRAMMED (R498): the oldest waiting block is erased, programmed, read back and counted once. -/
def execFwBlockProgrammed (s : State) : Host.Outcome State Fault Refusal :=
  match s.fw.queue with
  | [] => .next s
  | (b, data) :: r =>
    .next (putFw s { s.fw with
      queue := r, blocks := mput s.fw.blocks (512 * s.fw.target + b) data, counted := insertNew s.fw.counted b })

/-! ## Verification and activation (R496, R497, R500) -/

/-- The manifest of a slot; slot A is delivered with one whose bytes the spec does not give (log 27, DESIGN CHOICE). -/
def slotManifest (s : State) (k : Nat) : List Byte :=
  match mfind s.fw.manifests k with
  | some m => m
  | none => if k = 0 then Config.deliveredManifest else []

/-- The 128-byte header of a manifest. -/
def manHead (m : List Byte) : Nat := ofBytesBE (m.take 128)

/-- Two components lie within an image of n blocks and do not overlap. -/
def componentsOk (h n : Nat) : Bool :=
  let mf := bits h 175 160; let mb := bits h 191 176; let uf := bits h 207 192; let ub := bits h 223 208
  decide (1 ≤ mb) && decide (1 ≤ ub) && decide (mf + mb ≤ n) && decide (uf + ub ≤ n) &&
    (decide (mf + mb ≤ uf) || decide (uf + ub ≤ mf))

/-- The first check of R497 that an image in a slot fails, with the block for code 7; code 0 when it passes. `len` is the
length given at begin, `counted` the blocks received. -/
def imageCheck (s : State) (slot : Nat) (m : List Byte) (len : Option Nat) (counted : Nat) : Nat × Nat :=
  let h := manHead m
  let n := bits h 95 80
  let signed := m.take (128 + 64 * n)
  if m.length ≠ 128 + 64 * n + 4627 || bits h 3 0 ≠ 1 || bits h 71 4 ≠ 0 || bits h 135 128 ≠ 0 ||
      bits h 1023 288 ≠ 0 || n = 0 || 480 < n || !componentsOk h n then (1, 0)
  else if bits h 79 72 ≠ 1 || Config.madeNum (objKey 0x1000 9) % 2 ^ 16 < bits h 159 144 then (2, 0)
  else if (match len with | some l => n * 65536 != l | none => false) then (3, 0)
  else if bits h 143 136 < setting s 0x1302 1 then (4, 0)
  else if !Config.verifies "LZ-FW-1" Config.firmwareKey (Config.sha3 signed) (m.drop (128 + 64 * n)) then (5, 0)
  else if counted ≠ n then (6, 0)
  else
    match (upFrom 0 n).find? (fun b =>
      Config.sha3 (mget [] s.fw.blocks (512 * slot + b)) != (m.drop (128 + 64 * b)).take 64) with
    | some b => (7, b)
    | none => (0, 0)

/-- An image is rejected (R497). -/
def rejectImage (s : State) (slot code block : Nat) : State :=
  raise (setSlotState s slot 4) 0x0B08 0xFF 0 [code, if code = 7 then block else 0]

/-- FW_VERIFY_DONE (R497, R498): verification ends; a verified image goes on to the handover. -/
def execFwVerifyDone (s : State) : Host.Outcome State Fault Refusal :=
  if s.fw.update ≠ 2 then .next s
  else
    let v := s.fw
    match imageCheck s v.target v.manifest (some v.length) v.counted.length with
    | (0, _) =>
      let s := setSlotState (putFw s { v with
        update := 3, manifests := mput v.manifests v.target v.manifest
        versions := mset 0 v.versions v.target (bits (manHead v.manifest) 127 96) }) v.target 3
      .next (handover s)
    | (7, b) =>
      let s := rejectImage s v.target 7 b
      .next (putFw s { s.fw with update := 1, counted := s.fw.counted.filter (· != b) })
    | (c, _) =>
      let s := rejectImage s v.target c 0
      .next (putFw s { s.fw with update := 0, halves := [], queue := [], counted := [], manifest := [] })

/-- Every session ends: staged values, subscriptions and keys go, and an update that is not activating (R455, R484). -/
def endSessions (s : State) : State :=
  let s := if s.fw.update ≠ 0 && s.fw.update ≠ 4 then dropUpdate s else s
  putDap s { s.dap with sessions := [] }

/-- A slot still holds the image that it was delivered with, which verifies (log 27, DESIGN CHOICE). -/
def isDelivered (s : State) (k : Nat) : Bool :=
  k == 0 && (mfind s.fw.manifests 0).isNone && s.fw.blocks.all (fun e => decide (512 ≤ e.1))

/-- Versions that a slot's manifest gives the running firmware. -/
def runSlot (s : State) (slot : Nat) : State :=
  let h := manHead (slotManifest s slot)
  putFw s { s.fw with running := slot, mgmtVer := bits h 255 224, ucodeVer := bits h 287 256 }

/-- FW_ACTIVATION (R500, R502): the boot record names the new slot, the standby microcode is loaded, and the management
complex is handed over; in ROM recovery E0 is off again and the cold start runs from step 4. -/
def execFwActivation (s : State) : Host.Outcome State Fault Refusal :=
  if s.fw.update ≠ 4 then .next s
  else
    let slot := s.fw.target
    let s := putFw s (writeBootRecord s.fw slot)
    if s.dev.phase = .recovery then
      .next (putDev (switchDom (endSessions (putFw s { s.fw with update := 0 })) 28 4) { s.dev with phase := .romStart })
    else
      let s := runSlot (putFw s { s.fw with update := 0 }) slot
      .next (endSessions (raise s 0x0B09 0xFF 0 [slot, s.fw.mgmtVer, s.fw.ucodeVer]))

/-! ## Fuse rows (R465 to R467, R482, R504, R506) -/

/-- Owner-key slot k reads all zeros: unwritten. -/
def slotKey (s : State) (k : Nat) : List Byte := match settingV s 0x1300 k with | .bytes b => b | .num _ => []

/-- A key slot is written and not revoked. -/
def slotLive (s : State) (k : Nat) : Bool := (slotKey s k).any (· != 0) && !(slotKey s k).all (· == 0xFF)

/-- own.active_slot: the highest written slot that is not revoked. -/
def activeKeySlot (s : State) : Nat := (((upFrom 1 4).filter (slotLive s)).getLast?).getD 0

/-- Programming attempts that a fuse row has (R461). -/
def fuseWrites (idx : Nat) : Nat :=
  match idx with
  | 0x1300 => 2 | 0x1302 => 128 | 0x1303 => 8 | _ => 1

/-- Writes left of a fuse row. -/
def fuseLeft (s : State) (idx sub : Nat) : Nat := fuseWrites idx - mget 0 s.dap.fuseUsed (objKey idx sub)

/-- The module lets fuses be programmed now (R467). -/
def fuseReady (s : State) : Bool :=
  decide (85 ≤ s.power.holdup) && decide (40500 ≤ s.power.mv) && s.dev.phase == .ready

/-- The one bit that a new spare-remap row adds; none unless it adds exactly one, from 0 to 16 (R506). -/
def addedBit (old new : Nat) : Option Nat := (upFrom 0 17).find? (fun n => !bitSet old n && new == old + 2 ^ n)

/-- Status of a write to a fuse row (R467, R504, R506): 7 CONFIRM when it may be programmed. -/
def fuseCheck (s : State) (idx sub : Nat) (v : Value) : Nat :=
  if !fuseReady s then 6
  else if fuseLeft s idx sub = 0 then 8
  else
    match idx, v with
    | 0x1300, .bytes b =>
      if (slotKey s sub).all (· == 0) then (if sub = activeKeySlot s + 1 && b.any (· != 0) then 7 else 5)
      else if b.all (· == 0xFF) && ((upFrom 1 4).any (fun k => decide (sub < k) && slotLive s k)) then 7 else 5
    | 0x1302, .num n =>
      if n.toNat = setting s 0x1302 1 + 1 && n.toNat ≤ bits (manHead (slotManifest s s.fw.running)) 143 136 then 7
      else 5
    | 0x1303, .num n =>
      match addedBit (setting s 0x1303 sub) n.toNat with
      | none => 5
      | some nn => if bitSet (poolOf s (sub - 1)) nn || bitSet (mget 0 s.units.retired (sub - 1)) nn then 7 else 6
    | 0x1304, .num n => if n = 1 then 7 else 5
    | _, _ => 5

/-- What a programmed fuse row does (R506). -/
def fuseEffect (s : State) (idx sub : Nat) (v : Value) : State :=
  match idx, v with
  | 0x1303, .num n =>
    let d := sub - 1
    (upFrom 0 17).foldl (fun s nn =>
      if bitSet n.toNat nn && !bitSet (mget 0 s.units.retired d) nn then
        let s := retirePhys s (17 * d + nn)
        putDap s { s.dap with remapDue := s.dap.remapDue.filter (· != d * 32 + nn) }
      else s) s
  | 0x1304, _ => switchDom (putTrace s { s.trace with state := 0 }) 47 4
  | _, _ => s

/-- Programs a fuse row and reads it back (R467); the answer is a status of R458. What a row that reads back wrong holds
is free within its width, the reserved bits of fuse.remap reading zero (R11); the one bit of fuse.debug_disable then reads
0. -/
def programFuse (s : State) (idx sub : Nat) (v : Value) : State × Nat :=
  let k := objKey idx sub
  let s := putDap s { s.dap with fuseUsed := mset 0 s.dap.fuseUsed k (mget 0 s.dap.fuseUsed k + 1) }
  let good := Config.fuseGood s.free
  let got : Value := if good then v else match v with
    | .num _ => .num ((ofBytes (Config.fuseBack s.free) %
        (if idx = 0x1303 then 2 ^ 17 else if idx = 0x1302 then 2 ^ 8 else 1) : Nat) : Int)
    | .bytes _ => .bytes (toBytesBE 64 (ofBytes (Config.fuseBack s.free)))
  let s := (freshFree s).2
  let s := putSettings s { s.settings with committed := mput s.settings.committed k got }
  if good then (fuseEffect (raise s 0x0B05 0xFF 0 [k, fuseLeft s idx sub]) idx sub v, 0)
  else (raise s 0x0B06 0xFF 0 [k, fuseLeft s idx sub], 14)

/-- MODULE_REMAP_WRITE (R482, R506): the oldest retirement of die d that is due is programmed; it waits for the hold-up
store and the input, and stays in flash only when no row is left. -/
def execModuleRemapWrite (d : Fin 4) (s : State) : Host.Outcome State Fault Refusal :=
  match s.dap.remapDue.find? (fun x => x / 32 == d.val) with
  | none => .next s
  | some x =>
    let drop := putDap s { s.dap with remapDue := s.dap.remapDue.filter (· != x) }
    let old := setting s 0x1303 (d.val + 1)
    if fuseLeft s 0x1303 (d.val + 1) = 0 || bitSet old (x % 32) then .next drop
    else if s.power.holdup < 85 || s.power.mv < 40500 then .next s
    else .next (programFuse drop 0x1303 (d.val + 1) (.num ((old + 2 ^ (x % 32) : Nat) : Int))).1

/-- FLASH_SETTINGS_PROGRAM (R462, R443): the settings that wait are written, once the store holds 85 %. -/
def execFlashSettingsProgram (s : State) : Host.Outcome State Fault Refusal :=
  if s.settings.flashWaiting.isEmpty || s.power.holdup < 85 then .next s
  else .next (addCtr (putSettings s { s.settings with flashWaiting := [] }) 0x4000 5 1)

/-! ## Attestation (R481, R508) -/

/-- dev.state (R448). -/
def devState (s : State) : Nat :=
  match s.dev.phase with
  | .recovery => 1 | .bringup => 2 | .ready => 3 | .failed | .failedRom => 4 | .critical => 5 | _ => 0

/-- The 256-byte body of an attestation report (R508). -/
def attBody (s : State) (nonce : List Byte) : List Byte :=
  let k := activeKeySlot s
  let man := slotManifest s s.fw.running
  let signed := man.take (128 + 64 * bits (manHead man) 95 80)
  let left := sumOf ((upFrom 0 4).map (fun d => fuseLeft s 0x1303 (d + 1) * 2 ^ (4 * d)))
  let formed := sumOf ((upFrom 0 16).map (fun p => if isFormed (getPart s p) then 2 ^ p else 0))
  let flag := fun (i : Nat) (b : Bool) => if b then 2 ^ i else 0
  let flags := flag 0 (debugOff s) + flag 1 (setting s 0x1301 1 == 1) + flag 2 (s.fw.running == 1) +
    flag 3 s.dev.fallback + flag 4 (s.time.state == 2)
  nonce ++ (if k = 0 then List.replicate 64 0 else slotKey s k) ++ Config.sha3 signed ++
    toBytesBE 8 Config.moduleId.toNat ++ toBytesBE 8 s.lft.incarnation ++ toBytesBE 6 s.time.s ++ toBytesBE 4 s.time.ns ++
    toBytesBE 4 s.fw.mgmtVer ++ toBytesBE 4 s.fw.ucodeVer ++ toBytesBE 4 (mget 0 s.fw.versions 0) ++
    toBytesBE 4 (mget 0 s.fw.versions 1) ++ toBytesBE 4 (Config.madeNum (objKey 0x1000 0x0B)) ++
    toBytesBE 2 (Config.madeNum (objKey 0x1000 9)) ++ toBytesBE 1 (setting s 0x1302 1) ++ toBytesBE 1 k ++
    toBytesBE 2 left ++ toBytesBE 1 (devState s) ++ toBytesBE 2 formed ++ toBytesBE 1 flags ++ List.replicate 38 0 ++
    toBytesBE 1 1 ++ toBytesBE 1 1

/-- A write of att.nonce (R481): the session's earlier report is discarded and a new one begins. -/
def attNonce (s : State) (sess : Nat) (nonce : List Byte) : State :=
  match getSession s sess with
  | none => s
  | some x => putSession s { x with attState := 1, attNonce := nonce, attReport := [] }

/-- ATT_NONCE (R481): 32 bytes. -/
def execAttNonce (sess : BitVec 32) (nonce : BitVec 256) (s : State) : Host.Outcome State Fault Refusal :=
  .next (attNonce s sess.toNat (toBytesBE 32 nonce.toNat))

/-- ATT_REPORT_BUILT (R508): the report is signed and ready, or cannot be signed. -/
def execAttReportBuilt (sess : BitVec 32) (signed : Bool) (s : State) : Host.Outcome State Fault Refusal :=
  match getSession s sess.toNat with
  | none => .next s
  | some x =>
    if x.attState ≠ 1 then .next s
    else if !signed then .next (putSession s { x with attState := 3 })
    else
      let b := attBody s x.attNonce
      .next (putSession s { x with attState := 2, attReport := b ++ Config.identitySign "LZ-ATT-1" (Config.sha3 b) })

end Sys2Proof.Machine
end

