-- ==== Sys2Proof/Machine/Boot.lean ====
section
/-! DEFINITION. Machine/Boot.lean: cold start, warm reset and the sideband pins (19 R435 to R448; 22 R495, R502). -/

namespace Sys2Proof.Machine

/-! ## What a reset clears (R447, R542) -/

/-- Volatile settings take their defaults (R447, R462). -/
def dropVolatile (s : State) : State :=
  putSettings s { s.settings with
    committed := mdrop (fun k =>
      match findRow (k / 256) (k % 256) objRows with
      | some r => r.pers == 0
      | none => false) s.settings.committed
    held := [] }

/-- Counters are cleared, but for 0x4000:02 to 0x4000:05 (R542). -/
def clearAllCtrs (s : State) : State := putCtrs s (mdrop (fun k => k / 256 != 0x4000) s.ctr)

/-- Sessions end (R455), an update in progress is dropped and an interrupted slot is emptied (R495), the reason of the last
refusal is gone (R479); an activation that has begun has its boot record written (R499). Answers on their way to the
transport stay there (R445). -/
def endService (s : State) : State :=
  let s := finishFlash s
  let s := putDap s { s.dap with sessions := [], segs := [] }
  (upFrom 0 2).foldl (fun s k => if slotState s k = 1 || slotState s k = 2 then emptySlot s k else s)
    (putFw s { s.fw with update := 0, halves := [], queue := [], counted := [], manifest := [], refuse := 0 })

/-- Every work core is without an item from now on (R301). -/
def stampCores (s : State) : State :=
  putSched s { s.sched with cores := (upFrom 0 96).foldl (fun m c =>
    mset Core.reset m c { mget Core.reset m c with idleFromNs := nowNs s }) s.sched.cores }

/-- What every start does with the management complex's state (R447). -/
def resetState (s : State) : State :=
  let s := stampCores (endService (clearAllCtrs (dropVolatile s)))
  putFront s { s.panel with identify := 0, removal := 0, quiesce := 0, ledTest := false }

/-! ## Failures and recovery (R444, R502) -/

/-- A step fails (R444); before step 5 no firmware runs, so that only recovery reaches the module. -/
def failStep (s : State) (k detail : Nat) : State :=
  raise (putDev s { s.dev with phase := if k < 5 then .failedRom else .failed }) 0x0B03 0xFF 0 [k, detail]

/-- The ROM enters recovery and powers E0 (R502); cause 1 no slot verifies, 2 SVC. -/
def enterRecovery (s : State) (cause : Nat) : State :=
  selectApp (switchDom (raise (putDev s { s.dev with phase := .recovery }) 0x0B0A 0xFF 0 [cause]) 28 0) 0

/-- ROM_RECOVERY (R440): SVC is still pressed 10 s after step 1. -/
def execRomRecovery (s : State) : Host.Outcome State Fault Refusal :=
  if s.dev.phase = .heldSvc then .next (enterRecovery s 2) else .next s

/-! ## The start sequence (R438 to R443) -/

/-- Step 2 of a cold start: device time 0 in FREERUN, SLOT_ID sampled, every interface group may be trained again. -/
def step2 (s : State) (slot : Nat) : State :=
  let s := putTime s { State.reset.time with s := 0 }
  let s := putMemErr s { s.memErr with failedIf := [] }
  stampStep (putDev s { s.dev with slotId := slot, groups := 0xFFFFF }) 2

/-- The ROM's check of a slot's image (R439, R497). -/
def romCheck (s : State) (k : Nat) : Nat :=
  let m := slotManifest s k
  if isDelivered s k then (if bits (manHead m) 143 136 < setting s 0x1302 1 then 4 else 0)
  else (imageCheck s k m none (bits (manHead m) 95 80)).1

/-- Step 5: the management firmware of slot k runs (R438, R495, R447). A start that RST_N held at step 2 after this step has
counted already (R436). -/
def step5 (s : State) (k : Nat) (fallback : Option Nat) : State :=
  let s := runSlot (resetState s) k
  let s := if s.dev.begun then s
    else addCtr (putLft s { s.lft with incarnation := (s.lft.incarnation + 1) % 2 ^ 64 }) 0x4000
      (if s.dev.warm then 4 else 2) 1
  let s := putDev s { s.dev with phase := .bringup, bootSlot := k, fallback := fallback.isSome, begun := true }
  let s := stampStep s 5
  match fallback with
  | none => s
  | some why =>
    let s := raise s 0x0B02 0xFF 0 [1 - k, why]
    setSlotState (putFw s (writeBootRecord s.fw k)) (1 - k) 4

/-- Domains that are OFF after step 6: DBG once debug is disabled, and ports whose port.enable is 0 (R415). -/
def offAfterStep6 (s : State) : Map Nat :=
  ((upFrom 0 16).filter (fun p => portSet s p 2 == 0)).map (fun p => (28 + p, 4)) ++
    (if debugOff s then [(47, 4)] else [])

/-- Step 6: FAB, MEM, NETC and ETH power up; step 8 starts the self-tests of all physical tiles that are not retired; optics
in the front cages are brought up (R362). With no sub-port enabled step 10 has nothing to wait for, else it ends when an
enabled sub-port is up (log 24, DEDUCED); a PTP wait of 0 ends step 11. -/
def step6 (s : State) : State :=
  let s := putPower s { s.power with
    dom := offAfterStep6 s, entering := [], exiting := [], woken := [], blocked := [], resting := [] }
  let l := (upFrom 0 68).filter (fun ph => !bitSet (mget 0 s.units.retired (ph / 17)) (ph % 17))
  let s := (upFrom 0 4).foldl selectApp (stampStep (putUnits s { s.units with testing := l }) 6)
  let s := if (upFrom 0 128).any (subOn s) then s else stepDone s 2 10
  if setting s 0x1010 4 = 0 then stepDone s 3 11 else s

/-- Steps 4 to 6; a later step that cannot complete fails the start after them (R444). -/
def runFrom4 (s : State) (fail detail : Nat) : State :=
  let a := s.fw.active
  let r := romCheck s a
  let go := fun (s : State) =>
    if fail = 5 || fail = 6 then failStep s fail detail
    else if 7 ≤ fail then failStep (step6 s) fail detail
    else step6 s
  if fail = 4 then failStep s 4 detail
  else
    let s := stampStep s 4
    if r = 0 then go (step5 s a none)
    else if romCheck s (1 - a) = 0 then go (step5 s (1 - a) (some r))
    else enterRecovery s 1

/-- Steps 3 to 6; MGMT is ACTIVE from step 3 on, where the boot ROM runs on it (R438); SVC pressed at step 3 holds the ROM
there (R440). -/
def runFrom3 (s : State) (svc : Bool) (fail detail : Nat) : State :=
  let s := putDev s { s.dev with svc := svc }
  if fail = 2 || fail = 3 then failStep s fail detail
  else
    let s := stampStep (setDom s 46 0) 3
    if svc then putDev s { s.dev with phase := .heldSvc } else runFrom4 s fail detail

/-- COLD_START (R438): the sequence runs on: from step 2 after power-up, from step 3 after a hold by RST_N, from step 4
after a hold by SVC or in ROM recovery after an update. SLOT_ID and SVC as the steps sample them; a step that fails and its
detail (0: none), any of them (R444). -/
def execColdStart (slot : BitVec 6) (svc : Bool) (fail : Fin 13) (detail : BitVec 32) (s : State) :
    Host.Outcome State Fault Refusal :=
  match s.dev.phase with
  | .powered =>
    let s := step2 s slot.toNat
    .next (if s.dev.rstN then runFrom3 s svc fail.val detail.toNat else putDev s { s.dev with phase := .heldReset })
  | .sensed => .next (if s.dev.warm then s else runFrom3 s svc fail.val detail.toNat)
  | .romStart => .next (runFrom4 s fail.val detail.toNat)
  | _ => .next s

/-- SVC_POWER_UP_RELEASE (R440): SVC is released before 10 s: the sequence continues from step 4. -/
def execSvcPowerUpRelease (s : State) : Host.Outcome State Fault Refusal :=
  if s.dev.phase = .heldSvc then .next (putDev s { s.dev with phase := .romStart, svc := false }) else .next s

/-- GDDR7_TRAINING_DONE (R441, R444, R445): step 7 ends. In a cold start every interface is trained, and those of the mask
failed both attempts. In a warm reset the values that kennel memory holds are loaded; of the interfaces whose values fail
the check and which are trained, those of the mask failed. Their groups are unusable until the next cold start; the values
of the good ones stand in kennel memory; T1 is zeroed. -/
def execGddr7TrainingDone (failed : BitVec 160) (s : State) : Host.Outcome State Fault Refusal :=
  if s.dev.phase ≠ .bringup || bitSet s.dev.steps 0 then .next s
  else
    let l := (upFrom 0 160).filter (fun i => bitSet failed.toNat i && (!s.dev.warm || bitSet s.dev.trained i))
    let s := l.foldl (fun s i => raise s 0x0307 0xFF 0 [i]) s
    let lost := (upFrom 0 20).filter (fun g => l.any (fun i => i / 8 == g))
    let mask := sumOf (((upFrom 0 20).filter (fun g => bitSet s.dev.groups g && !lost.contains g)).map (2 ^ ·))
    let had := if s.dev.warm then s.dev.trained else 2 ^ 160 - 1
    let s := putDev s { s.dev with groups := mask, trained := had - had &&& failed.toNat }
    if mask = 0 then .next (failStep s 7 0) else .next (stampStep (stepDone s 0 7) 9)

/-- PTP_WAIT_EXPIRY (R442): dev.ptp_wait_s seconds have passed since step 5. -/
def execPtpWaitExpiry (s : State) : Host.Outcome State Fault Refusal := .next (stepDone s 3 11)

/-- BOOT_READY (R443): steps 7 to 11 are complete: READY; tiles of no partition go OFF (R415). -/
def execBootReady (s : State) : Host.Outcome State Fault Refusal :=
  if s.dev.phase ≠ .bringup || s.dev.steps ≠ 15 then .next s
  else
    let s := (upFrom 0 20).foldl (fun s i => switchDom s i 4) s
    let s := stampStep (putDev s { s.dev with phase := .ready }) 12
    let ms := mget 0 s.dev.stepMs 12
    .next (raise (putDev s { s.dev with readyMs := ms }) 0x0B01 0xFF 0 [ms, s.time.state])

/-! ## Power enable (R435) -/

/-- PWR_EN_HIGH (R435): with the input in range a cold start begins. -/
def execPwrEnHigh (s : State) : Host.Outcome State Fault Refusal :=
  if s.dev.pwrEn then .next s
  else
    let last := if poweredOn s then s.dev.lastReset else 1
    let s := putDev s { s.dev with pwrEn := true, lastReset := last }
    .next (if s.dev.phase = .off && mayStart s then beginCold s last else s)

/-- PWR_EN_LOW (R435): the module powers down by steps 2 to 5 of R412, with no input fault. -/
def execPwrEnLow (s : State) : Host.Outcome State Fault Refusal :=
  let on := poweredOn s
  let s := putDev s { s.dev with pwrEn := false }
  .next (if on then shutDown s else s)

/-! ## Warm reset (R436, R445, R446) -/

/-- A warm-reset request (R445); refused while a die of a module in CRITICAL_OFF reads 85 °C or more (R446). -/
def requestReset (s : State) (why : Nat) : State :=
  if s.dev.phase = .critical then
    (if allCool s then putDev s { s.dev with resetDue := 4 } else raise s 0x0B03 0xFF 0 [0, 0])
  else putDev s { s.dev with resetDue := why }

/-- RST_N_LOW (R436): low for 1 µs or more: a warm-reset request, or a hold of a cold start at step 2. -/
def execRstNLow (s : State) : Host.Outcome State Fault Refusal :=
  let s := putDev s { s.dev with rstN := false }
  match s.dev.phase with
  | .off | .saving | .powered | .heldReset => .next s
  | .sensed | .heldSvc | .romStart =>
    .next (putDev (domainsOff s false) { s.dev with phase := .heldReset, steps := 0 })
  | .bringup =>
    if s.dev.warm then .next (requestReset s 2)
    else .next (putDev (domainsOff (wipe s) false) { s.dev with phase := .heldReset, steps := 0 })
  | _ => .next (requestReset s 2)

/-- RST_N_HIGH (R436): a held start may go on at step 3. -/
def execRstNHigh (s : State) : Host.Outcome State Fault Refusal :=
  let s := putDev s { s.dev with rstN := true }
  if s.dev.phase = .heldReset then .next (putDev s { s.dev with
    phase := .sensed, startAo := if s.dev.warm then s.ao else s.dev.startAo }) else .next s

/-- A write to dev.reset (R445, R448): 1 requests a warm reset once it has been answered. -/
def devReset (s : State) (v : Nat) : State :=
  match v, s.dev.phase with
  | 1, .bringup | 1, .ready | 1, .failed | 1, .critical | 1, .recovery => requestReset s 3
  | _, _ => s

/-- DEV_RESET (R445): a write to dev.reset. -/
def execDevReset (v : BitVec 8) (s : State) : Host.Outcome State Fault Refusal := .next (devReset s v.toNat)

/-- Steps 1 and 2 of R445: flash operations under way are complete, every switched domain goes OFF; AO and the kennel
region run on; a LOCKED clock becomes HOLDOVER for a reason that the spec does not number (log 26, DESIGN CHOICE). -/
def warmOff (s : State) : State :=
  let r := s.dev.resetDue
  let s := endService (domainsOff (wipe s) false)
  let s := putPower s { s.power with stage := 0 }
  let f := freshFree s
  let s := if s.time.state = 2 then enterHoldover f.2 f.1 else s
  putDev s { s.dev with
    readyMs := 0, begun := false
    phase := if s.dev.rstN then .sensed else .heldReset, warm := true, lastReset := r, resetDue := 0, steps := 0
    stepMs := [], startAo := s.ao }

/-- WARM_RESET (R445): a request that waits is carried out; with RST_N high the start sequence runs from step 3, with
SLOT_ID sampled and SVC as the ROM samples it (R437, R440). -/
def execWarmReset (slot : BitVec 6) (svc : Bool) (fail : Fin 13) (detail : BitVec 32) (s : State) :
    Host.Outcome State Fault Refusal :=
  let s := if s.dev.resetDue ≠ 0 then warmOff s else s
  if s.dev.phase = .sensed && s.dev.warm then
    .next (runFrom3 (putDev s { s.dev with slotId := slot.toNat }) svc fail.val detail.toNat)
  else .next s

end Sys2Proof.Machine
end

