-- ==== Sys2Proof/Machine/Dict.lean ====
section
/-! DEFINITION. Machine/Dict.lean: the object dictionary: presence, types, reads, writes by access class, COMMIT (20 R458 to
R467, R477, R478; the object tables that 21 R476 names; 23 R525, R526). -/

namespace Sys2Proof.Machine

/-! ## Presence and types (R460, R466, R475, R502) -/

/-- Highest subindex of an index that the object tables list; 0 when the index is absent. -/
def highSub (idx : Nat) : Nat :=
  let r := (objRows.filter (fun r => (upFrom 0 r.count).any (fun i => idx == r.index + i * r.stride))).map ObjRow.last
  let c := (ctrFamilies.filter (fun f => (upFrom 0 f.2.2.1).any (fun i => idx == f.1 + i * f.2.1))).map
    (fun f => f.2.2.2.length)
  maxOf (r ++ c)

/-- The object at an index and subindex (R460, R475, R486); port.optic_power_max_w is of the front ports only (R384). -/
def objInfo (idx sub : Nat) : Option ObjRow :=
  if sub = 0 then
    let h := highSub idx
    if h = 0 then none
    else some { index := idx, stride := 0, count := 1, first := 0, last := 0, typ := 2, acc := 0, lw := 0, pers := 0
                dflt := .num (h : Int), name := "max_subindex", lo := 0, hi := 255 }
  else
    match findRow idx sub objRows with
    | some r => if r.index = 0x5000 && sub = 9 && 0x5040 ≤ idx then none else some r
    | none => (findCtr idx sub ctrFamilies).map (fun n =>
        { index := idx, stride := 0, count := 1, first := sub, last := sub, typ := 5, acc := 0, lw := 0, pers := 0
          dflt := .num 0, name := n, lo := 0, hi := 2 ^ 64 - 1 })

/-- Objects that ROM recovery serves to a READ or to a WRITE (R502). -/
def romServes (idx sub : Nat) (write : Bool) : Bool :=
  if write then idx == 0x1401 || (idx == 0x1010 && sub == 1)
  else [0x1000, 0x1010, 0x1300, 0x1302, 0x1400, 0x1401].contains idx

/-- The object as a session meets it now. -/
def objFor (s : State) (idx sub : Nat) (write : Bool) : Option ObjRow :=
  if s.dev.phase = .recovery && !romServes idx sub write then none
  else if debugOff s && decide (0x8000 ≤ idx) && idx != 0x8100 then none
  else objInfo idx sub

/-- Bytes of a value of a type (R460); none for STR and BLOB. -/
def typeLen (typ : Nat) : Option Nat :=
  match typ with
  | 1 | 2 => some 1
  | 3 => some 2
  | 4 | 6 | 8 => some 4
  | 5 | 7 => some 8
  | 9 => some 10
  | _ => none

/-- A value as DAP carries it (R450, R460). -/
def encodeVal (typ : Nat) (v : Value) : List Byte :=
  match v with
  | .bytes b => b
  | .num n => let k := (typeLen typ).getD 0; toBytesBE k (toField (8 * k) n)

/-- The value that bytes of the right length hold. -/
def decodeVal (typ : Nat) (b : List Byte) : Value :=
  match typ with
  | 6 => .num (asSigned 32 (ofBytesBE b))
  | 7 => .num (asSigned 64 (ofBytesBE b))
  | 9 | 10 | 11 => .bytes b
  | _ => .num (ofBytesBE b : Nat)

/-- A number of thousandths as FP32. -/
def milli (n : Int) : Value :=
  .num ((f32of (fpDiv 24 (.fin (decide (n < 0)) n.natAbs 0) (.fin false 1000 0))).toNat : Int)

/-- A natural number as a value. -/
def vNat (n : Nat) : Value := .num (n : Int)

/-- A truth value as BOOL or bit. -/
def vBool (b : Bool) : Value := .num (if b then 1 else 0)

/-! ## What RO objects read -/

/-- dev.identity_key: 2,592 bytes (R480). -/
def identityKey : List Byte := toBytesBE 2592 Config.identityKey

/-- dev.serial: at most 32 characters (R480). -/
def serialBytes : List Byte := (Config.madeBytes (objKey 0x1000 5)).take 32 |>.map (fun b => b &&& 0x7F)

/-- dev.identity_cert: a count of one byte, then each certificate behind its length of two bytes (R507). -/
def identityCert : List Byte :=
  let l := Config.identityCerts.take 255
  toBytesBE 1 l.length ++ l.flatMap (fun c => toBytesBE 2 (c.take 65535).length ++ c.take 65535)

/-- dev.made: seconds and nanoseconds (R460, R480). -/
def madeTime : List Byte :=
  let n := Config.madeNum (objKey 0x1000 0x0C)
  toBytesBE 6 (n / 1000000000) ++ toBytesBE 4 (n % 1000000000)

/-- Objects 0x1000 to 0x1121 (R448, R473, R480, R481, R386). -/
def readDev (s : State) (x : Session) (idx sub : Nat) : Option Value :=
  match idx, sub with
  | 0x1000, 5 => some (.bytes serialBytes)
  | 0x1000, 6 => some (vNat Config.moduleId.toNat)
  | 0x1000, 8 => some (vNat macBase)
  | 0x1000, 9 => some (vNat (Config.madeNum (objKey 0x1000 9) % 2 ^ 16))
  | 0x1000, 0x0A => some (.bytes (toBytesBE 11 (Config.madeNum (objKey 0x1000 0x0A))))
  | 0x1000, 0x0B => some (vNat (Config.madeNum (objKey 0x1000 0x0B) % 2 ^ 32))
  | 0x1000, 0x0C => some (.bytes madeTime)
  | 0x1000, 0x0D => some (.bytes identityKey)
  | 0x1000, 0x0E => some (.bytes identityCert)
  | 0x1010, 2 => some (vNat (devState s))
  | 0x1010, 3 => some (vNat s.dev.bootSlot)
  | 0x1010, 5 => some (vNat s.dev.lastReset)
  | 0x1010, 6 => some (vNat s.dev.readyMs)
  | 0x1010, 7 => some (vNat s.dev.groups)
  | 0x1010, 8 => some (vNat s.dev.slotId)
  | 0x1011, k => some (vNat (mget 0 s.dev.stepMs k))
  | 0x1020, 2 => some (vNat x.attState)
  | 0x1020, 3 => some (.bytes x.attReport)
  | 0x1100, 0x0D => some (vNat (s.dap.sessions.filter Session.ready).length)
  | 0x1102, 1 => some (vNat s.log.next)
  | 0x1102, 2 => some (vNat (s.log.next - s.log.ring.length))
  | 0x1120, 1 => some (vNat Config.peerTable.toNat)
  | 0x1120, 9 => some (vNat s.lft.incarnation)
  | 0x1121, k => some (vNat (Config.reduceDoorbell (k - 1)).toNat)
  | _, _ => none

/-- Objects 0x1200 to 0x1402 (R386, R480, R482, R483). -/
def readFw (s : State) (idx sub : Nat) : Option Value :=
  match idx, sub with
  | 0x1200, 1 => some (.bytes (toBytesBE 6 s.time.s ++ toBytesBE 4 s.time.ns))
  | 0x1200, 2 => some (vNat s.time.state)
  | 0x1200, 3 => some (.num s.time.offset)
  | 0x1200, 0x0A => some (vNat s.time.gm)
  | 0x1200, 0x0B => some (vNat clockIdentity)
  | 0x1300, 5 => some (vNat (activeKeySlot s))
  | 0x1400, 1 => some (vNat s.fw.active)
  | 0x1400, 2 => some (vNat (mget 0 s.fw.versions 0))
  | 0x1400, 3 => some (vNat (mget 0 s.fw.versions 1))
  | 0x1400, 4 => some (vNat (slotState s 0))
  | 0x1400, 5 => some (vNat (slotState s 1))
  | 0x1400, 6 => some (vNat s.fw.mgmtVer)
  | 0x1400, 7 => some (vNat s.fw.ucodeVer)
  | 0x1401, 6 => some (vNat s.fw.update)
  | 0x1401, 7 => some (vNat s.fw.counted.length)
  | 0x1401, 8 => some (vNat s.fw.refuse)
  | 0x1402, k => some (vNat (getPart s (k - 1)).ucode)
  | _, _ => none

/-- ARITH clock of a stage in MHz (R427). -/
def arithMhz (st : Nat) : Nat := match st with | 0 => 4000 | 1 => 3200 | _ => 2400

/-- Objects 0x2000 to 0x2204 (R433). -/
def readPower (s : State) (idx sub : Nat) : Option Value :=
  let v := s.power
  let k := sub - 1
  match idx, sub with
  | 0x2000, 1 => some (milli v.mv)
  | 0x2000, 2 => some (milli v.ma)
  | 0x2000, 3 => some (milli (inputMw s))
  | 0x2000, 4 => some (milli v.arrayMw)
  | 0x2000, 5 => some (vNat v.holdup)
  | 0x2001, _ =>
    some (vNat (getDom s k + if (mfind v.entering k).isSome || v.exiting.contains k then 128 else 0))
  | 0x2200, 3 => some (vNat (capMw s / 1000))
  | 0x2200, 4 => some (vNat v.stage)
  | 0x2200, 5 => some (milli v.inlet)
  | 0x2200, 6 => some (milli v.flow)
  | 0x2201, _ => some (milli (mget 0 v.dieC k))
  | 0x2202, _ => some (vNat (thermalStage s k))
  | 0x2203, _ => some (vNat (arithMhz (dieStage s k)))
  | 0x2204, _ => some (milli (mget 0 v.gddrC k))
  | _, _ => none

/-- The partitions for which a condition holds, as a mask. -/
def partMask (s : State) (f : Part → Bool) : Nat :=
  sumOf ((upFrom 0 16).map (fun p => if isFormed (getPart s p) && f (getPart s p) then 2 ^ p else 0))

/-- tile.map of a logical tile (R409); an absent tile's physical code reads 0 (log 62, DESIGN CHOICE). -/
def tileMap (s : State) (t : Nat) : Nat :=
  let ph := if tilePresent s t then physOf s t else 0
  tagOf s t + ph % 17 * 2 ^ 16 + ph / 17 * 2 ^ 21 + (if tilePresent s t then 2 ^ 23 else 0)

/-- Objects 0x3000 to 0x3901 (R134, R179, R209, R227, R257, R302, R409). -/
def readPart (s : State) (idx sub : Nat) : Option Value :=
  let k := sub - 1
  let q := getPart s k
  match idx, sub with
  | 0x3003, _ => some (vNat (partStateNo q.state))
  | 0x3005, _ => some (vNat q.step)
  | 0x3008, _ => some (vNat q.lastCause)
  | 0x3009, _ => some (vNat (sumOf (((tilesOf q).filter (tilePresent s)).map (2 ^ ·))))
  | 0x3101, _ => some (vNat (tileMap s k))
  | 0x3102, _ => some (vNat (poolOf s k))
  | 0x3103, _ => some (vNat (mget 0 s.units.retired k))
  | 0x3202, _ => some (vNat Config.windowTable.toNat)
  | 0x3300, 3 => some (vNat s.memErr.retiredPages.length)
  | 0x3301, _ => some (vNat (1024 - mget 0 s.memErr.spareUsed k))
  | 0x3401, _ => some (vNat (Config.houndDoorbell k).toNat)
  | 0x3404, _ => some (vNat (Config.publishDoorbell k).toNat)
  | 0x3601, _ => some (vNat (Config.enqueueAddr k).toNat)
  | 0x3800, 8 => some (vNat (partMask s Part.perBlock + 2 ^ 16 * partMask s Part.steppedDown))
  | 0x3901, _ => some (vNat (Config.maskDoorbell k).toNat)
  | _, _ => none

/-- Objects of port p, 0x5000 + 16 p, and of its optic (R384, R487). -/
def readPort (s : State) (idx sub : Nat) : Option Value :=
  let p := (idx - 0x5000) / 16
  let o := mget Optic.reset s.ports.optics p
  match idx % 16, sub with
  | 0, 3 => some (vNat (if p < 4 then (if o.medium = 2 then 3 else o.medium) else 2))
  | 0, 8 => some (vNat (sumOf ((s.ports.links.filter (fun l => l / 8 == p)).map (fun l => 2 ^ (l % 8)))))
  | 2, 1 => some (vNat o.medium)
  | 2, 2 => some (.bytes o.vendor)
  | 2, 3 => some (.bytes o.part)
  | 2, 4 => some (.bytes o.serial)
  | 2, 5 => some (milli o.powerMw)
  | 2, 6 => some (vNat o.state)
  | 2, 7 => some (vNat o.temp.toNat)
  | 2, 8 => some (vNat o.supply.toNat)
  | 2, 9 => some (.bytes o.lanes)
  | 2, 0x0A => some (vNat o.flags)
  | _, _ => none

/-- The status LED (R525). -/
def statusLed (s : State) : Nat :=
  let st := devState s
  if getDom s 46 = 4 then 0
  else if s.panel.ledTest then 7
  else if 0 < identifyLeft s then 6
  else if st = 4 || st = 5 then 3
  else if st = 0 || st = 1 then 5
  else if st = 2 then 2
  else if (upFrom 0 16).any (fun p => (getPart s p).state == .held) ||
      (upFrom 0 4).any (fun d => thermalStage s d != 0) || s.power.lowBand || s.power.highBand then 4
  else 1

/-- The LED of front port p (R526). -/
def portLed (s : State) (p : Nat) : Nat :=
  let o := mget Optic.reset s.ports.optics p
  let en := (upFrom (8 * p) 8).filter (subOn s)
  let up := en.filter (s.ports.links.contains ·)
  if s.panel.ledTest then 5
  else if s.dev.phase = .recovery && p ≠ 0 then 0
  else if o.state = 5 || o.state = 6 then 4
  else if o.medium = 0 || en.isEmpty then 0
  else if up.isEmpty then 3
  else if up.length < en.length then 2
  else 1

/-- Objects 0x6000 (R488). -/
def readFront (s : State) (sub : Nat) : Option Value :=
  match sub with
  | 1 => some (vNat (identifyLeft s))
  | 3 => some (vNat (statusLed s))
  | 4 => some (vNat (sumOf ((upFrom 0 4).map (fun p => portLed s p * 2 ^ (4 * p)))))
  | 5 => some (vNat s.panel.removal)
  | 7 => some (vNat s.panel.quiesce)
  | 8 => some (vBool s.panel.lever)
  | 9 => some (vNat (handlingAge s))
  | _ => none

/-- Objects 0x8000 to 0x8100 (R282, R284, R490). -/
def readDebug (s : State) (idx sub : Nat) : Option Value :=
  let c := s.sync.snap.ctr
  match idx, sub with
  | 0x8000, 6 => some (vNat s.trace.state)
  | 0x8000, 7 => some (vNat s.trace.records)
  | 0x8000, 8 => some (vNat s.trace.lost)
  | 0x8001, _ => some (.bytes ((upFrom 0 264).flatMap (fun u => toBytesBE 4 (unitIdOf s u))))
  | 0x8002, k =>
    let l := sortBy (fun a b => decide (a < b)) ((s.memErr.retiredPages.filter (fun a => a / 2 ^ 37 == k - 1)).dedup)
    some (.bytes (l.flatMap (toBytesBE 8)))
  | 0x8100, 1 => some (vNat s.sync.snap.sel)
  | 0x8100, 2 => some (vNat c.value)
  | 0x8100, 3 => some (vNat (c.state + 16 * c.owner))
  | 0x8100, 4 => some (vNat s.sync.snap.waiters)
  | 0x8100, 5 => some (vNat c.lastUnit)
  | 0x8100, 6 => some (.bytes (toBytesBE 6 c.lastS ++ toBytesBE 4 c.lastNs))
  | 0x8100, 7 => some (vNat c.lastOp)
  | 0x8100, 8 => some (vNat c.lastOperand)
  | 0x8100, 9 => some (.bytes s.sync.snap.list)
  | 0x8100, 0x0A => some (vNat c.bias)
  | _, _ => none

/-- The gauges of a die's scheduler: READY items by level, WATCHING items, slots held (R301). -/
def schedGauge (s : State) (d sub : Nat) : Nat :=
  let l := itemsOn s d
  if sub ≤ 8 then (l.filter (fun i => i.state == 2 && i.level + 1 == sub)).length
  else if sub = 9 then (l.filter (fun i => i.state == 1)).length
  else l.length

/-- The partition that owns a work core, 0xFF for none (R301). -/
def coreOwner (s : State) (c : Nat) : Nat :=
  match (upFrom 0 16).find? (fun p => isFormed (getPart s p) && (getPart s p).cores.contains c) with
  | some p => p
  | none => 0xFF

/-- A work core's time RUNNING an item and time with none, the stretch under way included (R301). -/
def coreTime (s : State) (c sub : Nat) : Nat :=
  let now := if sub = 1 then ((runningItem s c).map (fun i => nowNs s - i.startNs)).getD 0
    else if coreActive s c then 0
    else nowNs s - (mget Core.reset s.sched.cores c).idleFromNs
  min (getCtr s (0x4A00 + c) sub + now) (2 ^ 64 - 1)

/-- Counters: 0x4000:01 counts the seconds since the last start (R485), gauges show the present state (R542), the rest
stand in `ctr`. -/
def readCtr (s : State) (idx sub : Nat) : Value :=
  if idx = 0x4000 && sub = 1 then vNat ((s.ao - s.dev.startAo) / 100000000)
  else if 0x4900 ≤ idx && idx < 0x4904 && sub ≤ 0x0A then vNat (schedGauge s (idx - 0x4900) sub)
  else if 0x4A00 ≤ idx && idx < 0x4A60 && (sub = 1 || sub = 2) then vNat (coreTime s (idx - 0x4A00) sub)
  else if 0x4A00 ≤ idx && idx < 0x4A60 && sub = 5 then vNat (coreOwner s (idx - 0x4A00))
  else if 0x4B00 ≤ idx && idx < 0x4B10 && sub = 4 then
    vNat (s.lft.ledger.filter (fun l => l.part == idx - 0x4B00)).length
  else vNat (getCtr s idx sub)

/-- The value that a present object reads, RWC objects their committed value (R462). -/
def readVal (s : State) (x : Session) (idx sub : Nat) : Value :=
  let dyn :=
    if sub = 0 then some (vNat (highSub idx))
    else if idx < 0x1200 then readDev s x idx sub
    else if idx < 0x2000 then readFw s idx sub
    else if idx < 0x3000 then readPower s idx sub
    else if idx < 0x4000 then readPart s idx sub
    else if idx < 0x5000 then some (readCtr s idx sub)
    else if idx < 0x6000 then
      (if (idx - 0x5000) % 16 = 1 then some (readCtr s idx sub) else readPort s idx sub)
    else if idx = 0x6000 then readFront s sub
    else readDebug s idx sub
  match dyn with
  | some v => v
  | none => settingV s idx sub

/-- A value that was written and that some unit has not taken (R464). -/
def isPending (s : State) (idx sub : Nat) : Bool := s.settings.held.any (fun e => e.1 % 2 ^ 24 == objKey idx sub)

/-- A description (R461). -/
def describe (s : State) (r : ObjRow) (idx sub : Nat) (v : Value) : List Byte :=
  let d := encodeVal r.typ (if sub = 0 then r.dflt else if r.typ = 5 && r.acc = 0 && idx / 0x1000 = 4 then .num 0
    else objDefault idx sub)
  let left := if r.acc = 4 then fuseLeft s idx sub else 0
  toBytesBE 1 r.typ ++ toBytesBE 1 r.acc ++ toBytesBE 1 left ++ toBytesBE 1 r.pers ++
    toBytesBE 4 (encodeVal r.typ v).length ++ toBytesBE 2 d.length ++ d ++ toBytesBE 1 r.name.length ++
    r.name.toList.map (fun c => BitVec.ofNat 8 c.toNat)

/-! ## Checks of a written value (R458, R460) -/

/-- Roles (R454): an operator's WRITE may not name these objects. -/
def operatorMay (idx : Nat) : Bool :=
  !(decide (0x1300 ≤ idx) && decide (idx ≤ 0x14FF)) && idx != 0x1101 && (decide (idx < 0x8000) || idx == 0x8100)

/-- The role may write the object. -/
def roleMay (role idx : Nat) : Bool := role == 3 || (role == 2 && operatorMay idx)

/-- The entries of dap.credentials: 65 bytes each, with role 1 to 3 (R473). -/
def credsOk (b : List Byte) : Bool :=
  b.length % 65 == 0 &&
    (upFrom 0 (b.length / 65)).all (fun i => decide (1 ≤ ((b[65 * i + 64]?).getD 0).toNat) &&
      decide (((b[65 * i + 64]?).getD 0).toNat ≤ 3))

/-- A range word of a first unit and a count lies below a limit. -/
def rangeWord (n limit : Nat) : Bool :=
  bits n 31 16 == 0 || decide (bits n 15 0 + bits n 31 16 ≤ limit)

/-- Bits of power.retain that a domain's class defines (R433). -/
def retainMask (i : Nat) : Nat := match domClass i with | 0 => 0x3F | 2 => 0xFF | _ => 0

/-- Bytes that continue a UTF-8 character. -/
def utf8Tail (l : List Byte) : Bool := l.all (fun b => decide (0x80 ≤ b.toNat) && decide (b.toNat < 0xC0))

/-- Bytes are well-formed UTF-8 (R460): no overlong form, no surrogate, nothing above U+10FFFF. -/
def utf8Ok : Nat → List Byte → Bool
  | _, [] => true
  | 0, _ => false
  | k + 1, b :: l =>
    let n := b.toNat
    let c := ((l[0]?).getD 0).toNat
    if n < 0x80 then utf8Ok k l
    else if n < 0xC2 || 0xF4 < n then false
    else
      let m := if n < 0xE0 then 1 else if n < 0xF0 then 2 else 3
      decide (m ≤ l.length) && utf8Tail (l.take m) && !(n == 0xE0 && decide (c < 0xA0)) && !(n == 0xED && decide (0xA0 ≤ c)) &&
        !(n == 0xF0 && decide (c < 0x90)) && !(n == 0xF4 && decide (0x90 ≤ c)) && utf8Ok k (l.drop m)

/-- The stated range or encoding of an object holds for the value. -/
def rangeOk (r : ObjRow) (idx sub : Nat) (v : Value) : Bool :=
  match v with
  | .bytes b =>
    (if r.typ = 9 then decide (ofBytesBE (b.drop 6) < 1000000000)
     else decide (r.lo ≤ (b.length : Int)) && decide ((b.length : Int) ≤ r.hi) && (r.typ != 10 || utf8Ok b.length b)) &&
      (match idx, sub with
       | 0x1100, 9 => b.length == 0 || b.length == 16
       | 0x1101, 1 => credsOk b
       | _, _ => true)
  | .num n =>
    if r.typ = 8 then !fpIsNan (f32val (BitVec.ofNat 32 n.toNat))
    else decide (r.lo ≤ n) && decide (n ≤ r.hi) &&
      (match idx, sub with
       | 0x2002, i => n.toNat &&& retainMask (i - 1) == n.toNat
       | 0x3002, _ => rangeWord n.toNat 2048
       | 0x3500, _ => rangeWord n.toNat 16384
       | 0x8000, 3 => n.toNat % 65536 == 0
       | 0x8000, 4 => n.toNat % 65536 == 0 && decide (65536 ≤ n) && decide (n ≤ 2 ^ 31)
       | _, _ => true)

/-! ## Settings and their boundaries (R464) -/

/-- A partition that has been started and not stopped: its next step start is its boundary. -/
def pastStart (s : State) (p : Nat) : Bool :=
  match (getPart s p).state with
  | .running | .restarting | .preempted | .held => true
  | _ => false

/-- The units that take a setting later, by the numbers of `heldKey`: tiles, partitions, for the retention and timers of 18
power domains, for 13 schedulers, the module for its probes. -/
def boundaryUnits (s : State) (idx sub : Nat) : List Nat :=
  let own := if pastStart s (sub - 1) then [sub] else []
  if idx = 0x3110 then
    ((upFrom 0 64).filter (fun t => tilePresent s t && (getTile s t).active.state != .empty)).map (1 + ·)
  else if idx = 0x3007 || idx = 0x3503 || jobObjects.contains idx then own
  else if idx = 0x3402 || idx = 0x3405 then [sub]
  else if idx = 0x2002 || idx = 0x2003 then [sub]
  else if 0x2100 ≤ idx && idx ≤ 0x2106 then ((upFrom 0 48).filter (fun i => domClass i == idx - 0x2100)).map (1 + ·)
  else if idx = 0x300A then [0]
  else if idx = 0x3600 then [1, 2, 3, 4]
  else if idx = 0x3800 && sub = 4 then []
  else if idx = 0x3800 || idx = 0x3900 then ((upFrom 0 16).filter (pastStart s)).map (1 + ·)
  else if formObjects.contains idx || stageObjects.contains idx then [sub]
  else []

/-- A unit goes on acting on the value that it took (R464). -/
def holdOld (idx sub : Nat) (v : Value) (s : State) (u : Nat) : State :=
  let k := heldKey u idx sub
  let old := match mfind s.settings.held k with | some o => o | none => settingV s idx sub
  putSettings s { s.settings with held := if old = v then mdel s.settings.held k else mput s.settings.held k old }

/-- Domains of a class that are idle now take new timers only when they become idle again (R433). -/
def restDomains (s : State) (cls : Nat) : State :=
  putPower s { s.power with
    resting := ((upFrom 0 48).filter (fun i => domClass i == cls && domIdle s i false)).foldl insertNew s.power.resting }

/-- A setting is written or committed: kept for flash where it is saved there, with its effect at once or at the units'
boundaries (R462 to R464). -/
def applySetting (s : State) (idx sub : Nat) (pers : Nat) (v : Value) : State :=
  let s := (boundaryUnits s idx sub).foldl (holdOld idx sub v) s
  let s := if 0x2100 ≤ idx && idx ≤ 0x2106 then restDomains s (idx - 0x2100) else s
  putSettings s { s.settings with
    committed := mput s.settings.committed (objKey idx sub) v
    flashWaiting := if pers = 1 then insertNew s.settings.flashWaiting (objKey idx sub) else s.settings.flashWaiting }

/-! ## Writes (R462) -/

/-- ALERT_N is released by a write of 1 to dap.alert_clear (R470). -/
def alertClear (s : State) (v : Nat) : State := if v = 1 then putLog s { s.log with alertLow := false } else s

/-- ALERT_CLEAR (R470). -/
def execAlertClear (v : BitVec 8) (s : State) : Host.Outcome State Fault Refusal := .next (alertClear s v.toNat)

/-- A write of panel.removal_request (R488). -/
def removalWrite (s : State) (v : Nat) : State :=
  match v with
  | 1 => removalRequest s 3
  | 2 => removalCancel s
  | _ => s

/-- Writes to 0x1401 (R483, R484). -/
def fwWrite (s : State) (sess sub : Nat) (v : Value) : State × Nat :=
  match sub, v with
  | 1, .bytes b =>
    if ((b.drop 1).take 3).any (· != 0) then (s, 5)
    else fwBegin s sess (ofBytesBE (b.take 1)) (ofBytesBE (b.drop 4))
  | 2, .bytes b =>
    if ((b.drop 3).take 1).any (· != 0) then (s, 5)
    else fwBlock s sess (ofBytesBE (b.take 2)) (ofBytesBE ((b.drop 2).take 1)) (ofBytesBE ((b.drop 4).take 4)) (b.drop 8)
  | 3, .bytes b => fwManifest s sess b
  | 4, .num n => fwActivate s sess n.toNat
  | 5, .num n => fwAbort s sess n.toNat
  | _, _ => (s, 2)

/-- A write to a WO object acts as a command; the answer is a status of R458. A value without a meaning does nothing (log 28,
DEDUCED). -/
def woWrite (s : State) (sess idx sub : Nat) (v : Value) : State × Nat :=
  let n := valueNat v
  match idx, sub with
  | 0x1010, 1 => (devReset s n, 0)
  | 0x1020, 1 => (match v with | .bytes b => (attNonce s sess b, 0) | .num _ => (s, 4))
  | 0x1100, 0x0F => (alertClear s n, 0)
  | 0x1401, k => fwWrite s sess k v
  | 0x3004, k => (partCommand s (k - 1) n, 0)
  | 0x3104, 1 => (retireRequest s n, 0)
  | 0x3104, 2 => (testPool s n, 0)
  | 0x3201, k => (askReload s (k - 1) n, 0)
  | 0x6000, 6 => (removalWrite s n, 0)
  | 0x6000, 0x0B => (ledTest s n, 0)
  | 0x8000, 5 => traceArm s n
  | i, 0x0B => (alarmClear s ((i - 0x5000) / 16) n, 0)
  | _, _ => (s, 2)

/-- A write to an RW object (R462, R478, R491). -/
def rwWrite (s : State) (r : ObjRow) (idx sub : Nat) (v : Value) : State × Nat :=
  let n := valueNat v
  match idx, sub with
  | 0x6000, 1 => (setIdentify s n, 0)
  | 0x8100, 1 => (putSync s { s.sync with snap := syncSnap s n }, 0)
  | _, _ => if idx = 0x8000 && s.trace.state ≠ 0 then (s, 6) else (applySetting s idx sub r.pers v, 0)

/-- A write to an RWC object is staged in its session (R463). -/
def stageWrite (s : State) (x : Session) (idx sub : Nat) (v : Value) : State :=
  putSession s { x with staged := mput x.staged (objKey idx sub) v }

/-- A write to a fuse row (R467): checked, and answered with a token that a CONFIRM within 10 s uses. -/
def fuseWrite (s : State) (x : Session) (idx sub : Nat) (v : Value) : State × Nat × List Byte :=
  match fuseCheck s idx sub v with
  | 7 =>
    let f := freshFree s
    let tok := f.1 % 2 ^ 32
    let x' : Session := { x with
      token := some { token := tok, key := objKey idx sub, value := v, due := s.ao + 1000000000 } }
    (putSession f.2 x', 7, toBytesBE 4 tok)
  | c => (s, c, [])

/-- One write of an object in a session (R457, R458): the state after it, the item's status, the value returned. Statuses
are checked in the order of their codes. -/
def writeObj (s : State) (sess idx sub : Nat) (data : List Byte) : State × Nat × List Byte :=
  match getSession s sess, objFor s idx sub true with
  | none, _ | _, none => (s, 1, [])
  | some x, some r =>
    if r.acc = 0 then (s, 2, [])
    else if !roleMay x.role idx then (s, 3, [])
    else if (match typeLen r.typ with
        | some n => data.length != n
        | none => r.typ == 10 && decide (255 < data.length)) then (s, 4, [])
    else
      let v := decodeVal r.typ data
      if !rangeOk r idx sub v then (s, 5, [])
      else
        match r.acc with
        | 1 => let w := rwWrite s r idx sub v; (w.1, w.2, [])
        | 2 => let w := woWrite s sess idx sub v; (w.1, w.2, [])
        | 3 => (stageWrite s x idx sub v, 0, [])
        | _ => fuseWrite s x idx sub v

/-- A stream control block of a tile whose job is stopped (R307). -/
def ctlWrite (s : State) (t : Nat) (x : Stream) (f : StreamCtl → StreamCtl) : State :=
  if tilePresent s t && jobStopped s t then
    let v := getTile s t
    putTile s t (putCtl v x (f (getCtl v x)))
  else s

/-- REGISTER_WRITE (R462; R306, R307, R334): a write with no row of its own: an object by its access class, `entry` and
`first_step` of a stream, `valid` of a fault record. -/
def execRegisterWrite (w : RegWrite) (s : State) : Host.Outcome State Fault Refusal :=
  match w with
  | .object sess idx sub data => .next (writeObj s sess.toNat idx.toNat sub.toNat data).1
  | .entry t x v => .next (ctlWrite s t.val x (fun c => { c with entry := v.toNat }))
  | .firstStep t x v => .next (ctlWrite s t.val x (fun c => { c with firstStep := v.toNat }))
  | .faultValid t v =>
    if v || !jobStopped s t.val then .next s
    else
      let u := getTile s t.val
      .next (putTile s t.val { u with fault := { u.fault with valid := false } })

/-! ## COMMIT (R463) -/

/-- The value that an object would have after a COMMIT of a staged set. -/
def afterCommit (s : State) (staged : Map Value) (idx sub : Nat) : Nat :=
  match mfind staged (objKey idx sub) with
  | some v => valueNat v
  | none => setting s idx sub

/-- Two range words overlap; an empty range meets nothing. -/
def wordsClash (a b : Nat) : Bool :=
  rangesMeet (bits a 15 0) (bits a 31 16) (bits b 15 0) (bits b 31 16)

/-- What a formed partition holds of the resource that an index names, in that object's own layout. -/
def heldWord (q : Part) (idx : Nat) : Nat :=
  match idx with
  | 0x3000 => q.groups
  | 0x3001 => q.memGroups
  | 0x3002 => q.landFirst + q.landCount * 2 ^ 16
  | 0x3500 => q.ctrFirst + q.ctrCount * 2 ^ 16
  | i => sumOf ((q.cores.filter (fun c => c / 24 == i - 0x3603)).map (fun c => 2 ^ (c % 24)))

/-- The staged resources of a partition meet those of another (R285, R302, R388). -/
def resourceClash (s : State) (staged : Map Value) (idx p : Nat) : Bool :=
  let v := afterCommit s staged idx (p + 1)
  let hit := fun (w : Nat) => if idx = 0x3002 || idx = 0x3500 then wordsClash v w else v &&& w != 0
  (upFrom 0 16).any (fun o => o != p &&
    (hit (afterCommit s staged idx (o + 1)) || (isFormed (getPart s o) && hit (heldWord (getPart s o) idx))))

/-- The order of R56 names each stream once. -/
def orderOk (n : Nat) : Bool :=
  decide (n < 64) &&
    (upFrom 0 3).all (fun x => (upFrom 0 3).any (fun i => bits n (2 * i + 1) (2 * i) == x))

/-- A staged object fails a check of its owning chapter. -/
def commitBad (s : State) (staged : Map Value) (k : Nat) (v : Value) : Bool :=
  let idx := k / 256
  let sub := k % 256
  if formObjects.contains idx then resourceClash s staged idx (sub - 1)
  else if k = objKey 0x3110 1 then !orderOk (valueNat v)
  else if 0x2100 ≤ idx && idx ≤ 0x2106 then valueNat v != 0 && !hasState (idx - 0x2100) sub
  else false

/-- A session ends: staged values, subscription and keys go; an update that it owns and that is not activating is
abandoned (R455, R484). -/
def endSession (s : State) (n : Nat) : State :=
  let s := if s.fw.update ≠ 0 && s.fw.update ≠ 4 && s.fw.owner = n then dropUpdate s else s
  putDap s { s.dap with sessions := s.dap.sessions.filter (fun x => x.number != n) }

/-- The transport that a session came by is no longer served (R449, R473). -/
def transportGone (s : State) (x : Session) (old4 : Nat) (old6 : Value) : Bool :=
  (x.src.ip.val == 1 && setting s 0x1100 6 != old4) || (x.src.ip.val == 3 && settingV s 0x1100 9 != old6) ||
    (decide (x.via < 128) && !bitSet (setting s 0x1100 4) (x.via / 8))

/-- What follows at once from committed settings: ports change mode, lose sub-ports or their power, and
front optics their Application and data paths (R360, R362, R384, R415), sessions on a removed
address end (R473), a change of medium takes the management link down (R516). -/
def afterSettings (s : State) (staged : Map Value) (old : State) : State :=
  let s := staged.foldl (fun s e =>
    let idx := e.1 / 256
    let port := (idx - 0x5000) / 16
    if 0x5000 ≤ idx && idx < 0x5100 && idx % 16 = 0 then
      let s := if e.1 % 256 = 1 && setting old idx 1 ≠ setting s idx 1 then portDown s port
        else (s.ports.links.filter (fun l => l / 8 == port && !subOn s l)).foldl linkLost s
      let s := ethPower s port
      if port < 4 && getDom s (28 + port) ≠ 4 && (e.1 % 256 = 1 || e.1 % 256 = 2 || e.1 % 256 = 9) then selectApp s port
      else s
    else s) s
  let s := if setting old 0x1100 5 ≠ setting s 0x1100 5 then putDev s { s.dev with mgmtLink := false } else s
  let gone := s.dap.sessions.filter (fun x => transportGone s x (setting old 0x1100 6) (settingV old 0x1100 9))
  gone.foldl (fun s x => endSession s x.number) s

/-- COMMIT of a session's staged set (R463): the state, the status, the object that offends. -/
def commitSet (s : State) (x : Session) : State × Nat × Nat :=
  match x.staged.find? (fun e => commitBad s x.staged e.1 e.2) with
  | some e => (addCtr s 0x4C01 6 1, 9, e.1)
  | none =>
    let old := s
    let s := x.staged.foldl (fun s e =>
      applySetting s (e.1 / 256) (e.1 % 256) ((objInfo (e.1 / 256) (e.1 % 256)).map ObjRow.pers |>.getD 0) e.2) s
    let s := putSession s { x with staged := [] }
    (afterSettings (addCtr s 0x4C01 5 1) x.staged old, 0, 0)

end Sys2Proof.Machine
end

