-- ==== Sys2Proof/Machine/Dap.lean ====
section
/-! DEFINITION. Machine/Dap.lean: the Dictionary Access Protocol: handshake, frames, messages in a session, event delivery
(20 R449 to R458, R467 to R472; 22 R502, R503). -/

namespace Sys2Proof.Machine

/-- The dictionary is served (R440, R502). -/
def dapServed (s : State) : Bool := firmwareRuns s || s.dev.phase == .recovery

/-! ## Transports and frames (R449 to R451, R473) -/

/-- The sub-port, or 128 for the management port, serves DAP, over the transport, EtherType or UDP port and VLAN that a frame
came by (R449, R502). -/
def viaServed (s : State) (via : Nat) (src : DapSource) : Bool :=
  let rom := s.dev.phase == .recovery
  (if via = 128 then
      s.dev.mgmtLink && (match src.vlan with
        | none => true
        | some v => v != 0 && v.toNat == setting s 0x1100 0x0A)
   else s.ports.links.contains via &&
    (if rom then via == 0 else bitSet (setting s 0x1100 4) (via / 8))) &&
    (src.service.toNat == (if src.ip = 0 then (if rom then 0x88B6 else setting s 0x1100 2)
      else if rom then 49411 else setting s 0x1100 3)) &&
    (match src.ip.val with
     | 1 => !rom && setting s 0x1100 6 != 0
     | 3 => !rom && settingV s 0x1100 9 != .bytes []
     | _ => true)

/-- The next hop to an IPv4 address: itself on the link, else the gateway; 0 for none (R473). -/
def nextHop (s : State) (addr : Nat) : Nat :=
  let k := 32 - setting s 0x1100 7
  if addr / 2 ^ k = setting s 0x1100 6 / 2 ^ k then addr else setting s 0x1100 8

/-- The way back to where a request came from: on an Ethernet port at PCP 6, on the management port tagged as the request
was (R449). -/
def routeTo (s : State) (via : Nat) (src : DapSource) : DapRoute :=
  { via := via, mac := portMac via, dst := src
    tag := if via < 128 then some (6, (src.vlan.map BitVec.toNat).getD 0) else src.vlan.map (fun v => (0, v.toNat))
    hop := if src.ip = 1 then nextHop s src.addr.toNat else 0 }

/-- Bytes of a DAP frame on the wire: Ethernet header, tag and FCS, IP and UDP headers, DAP header, payload and tag (R449,
R450). -/
def dapFrameLen (r : DapRoute) (f : DapFrame) : Nat :=
  max (if r.tag.isSome then 68 else 64) (18 + (if r.tag.isSome then 4 else 0) +
    (match r.dst.ip.val with | 0 => 0 | 1 => 28 | _ => 48) + 16 + f.payload.length + f.tag.length)

/-- A message's frames go to the transport, and count at an Ethernet port (R385); an IPv4 address off the link with no
gateway cannot be reached (R473). -/
def sendDap (s : State) (o : DapOut) : State :=
  if o.route.dst.ip = 1 && o.route.hop = 0 then s
  else
    let s := putDap s { s.dap with out := s.dap.out ++ [o] }
    if o.route.via < 128 then
      let p := o.route.via / 8
      portCtr (portCtr (wakeDomain s (28 + p)) p 2 o.frames.length) p 4 (sumOf (o.frames.map (dapFrameLen o.route)))
    else s

/-- The header of a frame that the module sends (R450). -/
def frameHead (version typ session seq : Nat) (sealed response : Bool) (len seg last : Nat) : Nat :=
  version * 2 ^ 124 + typ * 2 ^ 112 + len * 2 ^ 96 + session * 2 ^ 64 + seq * 2 ^ 32 +
    ((if sealed then 1 else 0) + (if response then 2 else 0)) * 2 ^ 16 + seg * 2 ^ 8 + last

/-- GCM nonce of a frame by its header; direction 0 client to module, 1 module to client (R451). -/
def gcmNonce (dir h : Nat) : List Byte :=
  toBytesBE 4 (bits h 95 64) ++ toBytesBE 4 (dir * 2 ^ 31 + bits h 15 8) ++ toBytesBE 4 (bits h 63 32)

/-- The frames of a message: segments of 1,400 bytes, each sealed under `key` where there is one (R450, R451). -/
def dapFrames (version typ session seq : Nat) (response : Bool) (body : List Byte) (key : Option (List Byte)) :
    List DapFrame :=
  let n := min 256 (max 1 (ceilDiv body.length 1400))
  (upFrom 0 n).map (fun k =>
    let pl := (body.drop (1400 * k)).take 1400
    let h := frameHead version typ session seq key.isSome response pl.length k (n - 1)
    match key with
    | none => ⟨h, pl, []⟩
    | some c =>
      let r := Config.gcmSeal c (gcmNonce 1 h) (toBytesBE 16 h) pl
      ⟨h, r.1, r.2⟩)

/-- A message of a session: sealed under the module-to-client key, of the agreed version, to where the client's latest frame
came from (R449, R451, R452, R471). -/
def sessionOut (s : State) (x : Session) (typ seq : Nat) (response : Bool) (body : List Byte) : DapOut :=
  { session := x.number, typ := typ, seq := seq, response := response, body := body, route := routeTo s x.via x.src
    frames := dapFrames x.version typ x.number seq response body (some (x.keys.drop 32)) }

/-- An unsealed message of a handshake: `seq` 0; `version` 0 in HELLO_ACK (R450 to R452). -/
def openOut (s : State) (via : Nat) (src : DapSource) (session typ version : Nat) (response : Bool) (body : List Byte) :
    DapOut :=
  { session := session, typ := typ, seq := 0, response := response, body := body, route := routeTo s via src
    frames := dapFrames version typ session 0 response body none }

/-! ## Opening a session (R452 to R454) -/

/-- The role of an entry of dap.credentials for a key digest. -/
def credRole (b : List Byte) (digest : List Byte) : Option Nat :=
  ((upFrom 0 (b.length / 65)).find? (fun i => (b.drop (65 * i)).take 64 == digest)).map
    (fun i => ((b[65 * i + 64]?).getD 0).toNat)

/-- The role that a client key is entitled to on a transport; 0 for none (R454, R502, R503). -/
def entitled (s : State) (key : List Byte) (via : Nat) : Nat :=
  let digest := Config.sha3 key
  let owned := (upFrom 1 4).any (fun k => (slotKey s k).any (· != 0))
  let creds := match settingV s 0x1101 1 with | .bytes b => b | .num _ => []
  if (upFrom 1 4).any (fun k => slotLive s k && slotKey s k == digest) then 3
  else if s.dev.phase = .recovery then (if owned then 0 else 3)
  else
    match credRole creds digest with
    | some r => if owned then min r 2 else r
    | none => if !owned && creds.isEmpty && via = 128 then 3 else 0

/-- Sessions now open. -/
def openCount (s : State) : Nat := (s.dap.sessions.filter Session.ready).length

/-- An answer that ends a handshake (R453): HELLO_ACK or READY with `response` set and the status first; there are no keys yet
to seal a READY under (log 106, DEDUCED). -/
def endHandshake (s : State) (via : Nat) (src : DapSource) (session typ status : Nat) (more : List Byte) : State :=
  sendDap s (openOut s via src session typ (if typ = 2 then 0 else 1) true (toBytesBE 1 status ++ more))

/-- A handshake under way. -/
def newSession (n via : Nat) (src : DapSource) (asked : Nat) (key bodies : List Byte) (pair : Nat) : Session :=
  { number := n, ready := false, via := via, src := src, asked := asked, role := 0, key := key, bodies := bodies
    pair := pair, version := 1, keys := [], next := 1, out := 1, held := [], cache := [], staged := [], token := none
    sub := none, fails := 0, segs := [], attState := 0, attReport := [], attNonce := [] }

/-- A HELLO message: nonce, versions, requested role, public key (R452, R453, R471). -/
def helloMsg (s : State) (via : Nat) (src : DapSource) (nonce versions role : Nat) (key : List Byte) : State :=
  let vers := setting s 0x1100 1
  if !dapServed s || !viaServed s via src || key.length ≠ 2592 then s
  else if versions &&& vers = 0 then endHandshake s via src 0 2 10 (toBytesBE 2 vers)
  else if setting s 0x1100 0x0C ≤ openCount s || 16 ≤ (s.dap.sessions.filter (fun x => !x.ready)).length then
    endHandshake s via src 0 2 12 []
  else
    let n := s.dap.nextSession
    let f := freshFree s
    let hello := toBytesBE 32 nonce ++ toBytesBE 2 versions ++ toBytesBE 1 role ++ key
    let ack := toBytesBE 32 f.1 ++ toBytesBE 2 vers ++ toBytesBE 1 1 ++ Config.kemPublic s.free ++ identityKey
    let x := newSession n via src role key (hello ++ ack) s.free
    let s := putDap f.2 { f.2.dap with sessions := f.2.dap.sessions ++ [x], nextSession := (n + 1) % 2 ^ 32 }
    sendDap s (openOut s via src n 2 0 false (ack ++ Config.identitySign "LZ-DAP-1" (Config.sha3 (hello ++ ack))))

/-- DAP_HELLO (R452, R453, R471): a client's HELLO, whole, by a sub-port or the management port (128). -/
def execDapHello (via : Fin 129) (src : DapSource) (nonce : BitVec 256) (versions : BitVec 16) (role : BitVec 8)
    (key : List Byte) (s : State) : Host.Outcome State Fault Refusal :=
  .next (helloMsg s via.val src nonce.toNat versions.toNat role.toNat key)

/-- The end of a handshake whose client is not accepted (R453). -/
def refuseKey (s : State) (x : Session) (status : Nat) : State :=
  let s := endHandshake (endSession s x.number) x.via x.src x.number 4 status []
  if status = 11 then raise (addCtr s 0x4C01 2 1) 0x0B04 0xFF 0 [x.number, 1] else s

/-- A KEY message in a handshake: the ciphertext and the client's signature; the session opens with the lower of the
requested role and the key's entitlement, and READY is its first sealed message (R452 to R454). -/
def keyMsg (s : State) (x : Session) (ct sig : List Byte) : State :=
  let h := Config.sha3 (x.bodies ++ ct)
  let e := entitled s x.key x.via
  if ct.length ≠ 1568 then s
  else if !Config.verifies "LZ-DAP-1" x.key h sig || e = 0 then refuseKey s x 11
  else if setting s 0x1100 0x0C ≤ openCount s then refuseKey s x 12
  else
    let role := min x.asked e
    let y : Session := { x with
      ready := true, role := role, out := 2, bodies := [], pair := 0
      keys := Config.shake64 (Config.kemSecret x.pair ct ++ h) }
    sendDap (addCtr (putSession s y) 0x4C01 1 1)
      (sessionOut s y 4 1 false (toBytesBE 1 role ++ toBytesBE 2 (setting s 0x1100 0x0B)))

/-- The handshake under way that an unsealed frame names, by its header: its session, the agreed version, and a port that
serves DAP (R450, R471). -/
def handshakeOf (s : State) (came : DapArrival) : Option Session :=
  let h := came.header.toNat
  match getSession s (bits h 95 64) with
  | none => none
  | some x =>
    if x.ready || !dapServed s || !viaServed s came.via.val came.src || bits h 127 124 ≠ x.version then none
    else some { x with via := came.via.val, src := came.src }

/-- DAP_KEY (R452 to R454): a client's KEY, whole, with the header of its frames. -/
def execDapKey (came : DapArrival) (ct sig : List Byte) (s : State) : Host.Outcome State Fault Refusal :=
  match handshakeOf s came with
  | none => .next s
  | some x => .next (keyMsg s x ct sig)

/-- HANDSHAKE_TIMEOUT (R453): KEY has not come within 5 s. -/
def execHandshakeTimeout (sess : BitVec 32) (s : State) : Host.Outcome State Fault Refusal :=
  match getSession s sess.toNat with
  | some x => if x.ready then .next s else .next (endSession s x.number)
  | none => .next s

/-- IDLE_TIMEOUT (R455): no valid message for dap.idle_timeout_s. -/
def execIdleTimeout (sess : BitVec 32) (s : State) : Host.Outcome State Fault Refusal :=
  match getSession s sess.toNat with
  | some x => if x.ready then .next (endSession s x.number) else .next s
  | none => .next s

/-! ## Events (R468, R469) -/

/-- An event record of 64 bytes (R468). -/
def eventBytes (e : Event) (lost : Bool) : List Byte :=
  let a := fun (i : Nat) => (e.args[i]?).getD 0
  toBytesBE 8 (a 3) ++ toBytesBE 8 (a 2) ++ toBytesBE 8 (a 1) ++ toBytesBE 8 (a 0) ++ toBytesBE 4 e.unit ++ toBytesBE 2 0 ++
    toBytesBE 6 e.timeS ++ toBytesBE 4 e.timeNs ++ toBytesBE 8 e.seq ++ toBytesBE 3 0 ++ toBytesBE 1 e.part ++
    toBytesBE 1 (if lost then 1 else 0) ++ toBytesBE 1 e.severity ++ toBytesBE 2 e.code

/-- An EVENT message of at most 16 records, each with its `lost` flag, in a session. -/
def sendEvents (s : State) (n : Nat) (l : List (Event × Bool)) : State :=
  match getSession s n with
  | none => s
  | some x =>
    let body := toBytesBE 1 l.length ++ toBytesBE 3 0 ++ l.flatMap (fun e => eventBytes e.1 e.2)
    let s := sendDap s (sessionOut s x 0x16 x.out false body)
    if x.out = 0xFFFFFFFF then endSession s n else putSession s { x with out := x.out + 1 }

/-- Delivery to a session's subscription (R469): the records due, at most 16 in a message and 256 unacknowledged; records
overwritten first are counted and marked. -/
def deliverEvents (s : State) (n : Nat) : State :=
  match getSession s n with
  | none => s
  | some x =>
    match x.sub with
    | none => s
    | some u =>
      let oldest := s.log.next - s.log.ring.length
      let gone := oldest - u.next
      let s := if gone = 0 then s else addCtr s 0x4C01 8 gone
      let lost := u.lost || gone != 0
      let due := s.log.ring.filter (fun e =>
        decide (u.next ≤ e.seq) && bitSet u.mask (e.code / 256) && decide (u.minSev ≤ e.severity))
      let l := due.take (min 16 (256 - u.unacked.length))
      match l.getLast? with
      | none =>
        let next := if due.isEmpty then max u.next s.log.next else max u.next oldest
        putSession s { x with sub := some { u with next := next, lost := lost } }
      | some last =>
        let m := (l.take 1).map (fun e => (e, lost)) ++ (l.drop 1).map (fun e => (e, false))
        let u := { u with
          next := last.seq + 1, unacked := u.unacked ++ m.map (fun e => (e.1.seq, e.2)), lost := false }
        sendEvents (putSession s { x with sub := some u }) n m

/-- Sends again the records that a session has not acknowledged, flagged as they were (R469), 16 to a message. -/
def resendEvents (s : State) (n : Nat) (l : List (Event × Bool)) : State :=
  (upFrom 0 16).foldl (fun s i =>
    let m := (l.drop (16 * i)).take 16
    if m.isEmpty then s else sendEvents s n m) s

/-- EVENT_RESEND_TIMER (R469): 1 s has passed since records were sent. -/
def execEventResendTimer (sess : BitVec 32) (s : State) : Host.Outcome State Fault Refusal :=
  match (getSession s sess.toNat).bind Session.sub with
  | none => .next s
  | some u => .next (resendEvents s sess.toNat (u.unacked.filterMap (fun k =>
      (s.log.ring.find? (fun e => e.seq == k.1)).map (fun e => (e, k.2)))))

/-! ## Messages (R455 to R458) -/

/-- An item of a response (R457). -/
def itemBytes (index sub status flags typ : Nat) (v : List Byte) : List Byte :=
  toBytesBE 2 index ++ toBytesBE 1 sub ++ toBytesBE 1 status ++ toBytesBE 1 flags ++ toBytesBE 1 typ ++
    toBytesBE 2 v.length ++ v

/-- A staged value as a read shows it: the reserved bits of tile.stream_order are zero (R11, R56). -/
def shown (idx sub : Nat) (v : Value) : Value :=
  match idx, sub, v with
  | 0x3110, 1, .num n => .num (n % 64)
  | _, _, v => v

/-- One item of a READ: status and the item of the response (R457, R460, R462). -/
def readItem (s : State) (x : Session) (i : ReadItem) : Nat × List Byte :=
  let idx := i.index.toNat
  let sub := i.sub.toNat
  match objFor s idx sub false with
  | none => (1, itemBytes idx sub 1 0 0 [])
  | some r =>
    let fl := if isPending s idx sub then 1 else 0
    let cut := fun (b : List Byte) => if r.typ = 10 || r.typ = 11 then (b.drop i.offset.toNat).take i.maxLen.toNat else b
    if i.flags.getLsbD 0 then
      (0, itemBytes idx sub 0 fl r.typ (describe s r idx sub (if r.acc = 2 then r.dflt else readVal s x idx sub)))
    else if r.acc = 2 then (2, itemBytes idx sub 2 0 r.typ [])
    else if i.flags.getLsbD 1 && r.acc = 3 then
      (match mfind x.staged (objKey idx sub) with
       | some v => (0, itemBytes idx sub 0 (fl + 2) r.typ (cut (encodeVal r.typ (shown idx sub v))))
       | none => (1, itemBytes idx sub 1 0 r.typ []))
    else (0, itemBytes idx sub 0 fl r.typ (cut (encodeVal r.typ (readVal s x idx sub))))

/-- The overall status of items: the first that is not OK (R458). -/
def overall (l : List Nat) : Nat := (l.find? (· != 0)).getD 0

/-- Items of a WRITE in order: the state, the statuses and the response's items (R457). -/
def writeItems (sess : Nat) : List WriteItem → State → State × List Nat × List Byte
  | [], s => (s, [], [])
  | i :: l, s =>
    let w := writeObj s sess i.index.toNat i.sub.toNat i.data
    let typ := ((objFor s i.index.toNat i.sub.toNat true).map ObjRow.typ).getD 0
    let r := writeItems sess l w.1
    (r.1, w.2.1 :: r.2.1, itemBytes i.index.toNat i.sub.toNat w.2.1 0 typ w.2.2 ++ r.2.2)

/-- CONFIRM (R467): a status of R458; a token serves one CONFIRM. -/
def confirm (s : State) (x : Session) (token : Nat) : State × Nat :=
  match x.token with
  | none => (s, 6)
  | some t =>
    if t.token ≠ token || t.due < s.ao then (s, 6)
    else
      let s := putSession s { x with token := none }
      let idx := t.key / 256
      let sub := t.key % 256
      match fuseCheck s idx sub t.value with
      | 7 => programFuse s idx sub t.value
      | c => (s, c)

/-- What a message does, the overall status and the rest of the response's body. -/
def runMsg (s : State) (x : Session) (m : DapMsg) : State × Nat × List Byte :=
  let n := x.number
  match m with
  | .read l =>
    if l.isEmpty || 64 < l.length then (s, 13, [])
    else
      let r := l.map (readItem s x)
      (s, overall (r.map Prod.fst), r.flatMap Prod.snd)
  | .write l =>
    if l.isEmpty || 64 < l.length then (s, 13, [])
    else
      let r := writeItems n l s
      (r.1, overall r.2.1, r.2.2)
  | .commit =>
    if x.role < 2 then (s, 3, [])
    else
      let r := commitSet s x
      (r.1, r.2.1, if r.2.1 = 0 then [] else toBytesBE 2 (r.2.2 / 256) ++ toBytesBE 1 (r.2.2 % 256))
  | .discard => if x.role < 2 then (s, 3, []) else (putSession s { x with staged := [] }, 0, [])
  | .confirm t => if x.role ≠ 3 then (s, 3, []) else let r := confirm s x t.toNat; (r.1, r.2, [])
  | .subscribe mask minSev fromSeq =>
    let next := if fromSeq = BitVec.allOnes 64 then s.log.next else fromSeq.toNat
    let u : Subscription := { mask := mask.toNat, minSev := minSev.toNat, next := next, unacked := [], lost := false }
    (putSession s { x with sub := some u }, 0, [])
  | .eventAck seq =>
    (putSession s { x with sub := x.sub.map (fun u => { u with unacked := u.unacked.filter (fun k => decide (seq.toNat < k.1)) }) }, 0, [])
  | .ping => (s, 0, [])
  | .close => (s, 0, [])
  | .bad _ => (s, 13, [])

/-- Type code of a message (R456). -/
def msgType (m : DapMsg) : Nat :=
  match m with
  | .read _ => 0x10 | .write _ => 0x11 | .commit => 0x12 | .discard => 0x13 | .confirm _ => 0x14
  | .subscribe _ _ _ => 0x15 | .eventAck _ => 0x17 | .ping => 0x18 | .close => 0x19 | .bad t => t.toNat

/-- Restricted messages in ROM recovery: the ROM serves READ, WRITE and what keeps a session (R502). -/
def romMsg (m : DapMsg) : Bool :=
  match m with
  | .read _ | .write _ | .ping | .close | .bad _ => true
  | _ => false

/-- Executes a client's message and answers it (R455, R456). -/
def runInSession (s : State) (n seq : Nat) (m : DapMsg) : State :=
  match getSession s n with
  | none => s
  | some x =>
    let s := addCtr (putSession s { x with next := seq + 1 }) 0x4C01 4 1
    let x := { x with next := seq + 1 }
    let r := if s.dev.phase = .recovery && !romMsg m then (s, 13, []) else runMsg s x m
    let s := r.1
    match m with
    | .eventAck _ => if seq = 0xFFFFFFFF then endSession s n else deliverEvents s n
    | _ =>
      let own := ((getSession s n).map Session.out).getD x.out
      let o := sessionOut s x (msgType m) own true (toBytesBE 4 seq ++ toBytesBE 1 r.2.1 ++ toBytesBE 3 0 ++ r.2.2)
      let s := sendDap s o
      match m, getSession s n with
      | _, none => s
      | .close, some _ => endSession s n
      | _, some y =>
        let c := y.cache ++ [(seq, o)]
        let s := putSession s { y with out := own + 1, cache := c.drop (c.length - 16) }
        if seq = 0xFFFFFFFF || own = 0xFFFFFFFF then endSession s n else deliverEvents s n

/-- Messages held ahead are executed in their order (R455). -/
def drainHeld : Nat → State → Nat → State
  | 0, s, _ => s
  | k + 1, s, n =>
    match getSession s n with
    | none => s
    | some x =>
      match x.held.find? (fun h => h.1 == x.next) with
      | none => s
      | some h =>
        let s := putSession s { x with held := x.held.filter (fun g => g.1 != h.1) }
        drainHeld k (runInSession s n h.1 h.2) n

/-- A message of a client reaches its session (R455): the next in order is executed with those held behind it, one up to 8
ahead is held, one of the last 16 has its answer sent again. -/
def deliverMsg (s : State) (n seq : Nat) (m : DapMsg) : State :=
  match getSession s n with
  | none => s
  | some x =>
    if !x.ready || !dapServed s then s
    else if seq = x.next then drainHeld 8 (runInSession s n seq m) n
    else if seq < x.next then
      (match x.cache.find? (fun c => c.1 == seq) with
       | some c => sendDap s { c.2 with route := routeTo s x.via x.src }
       | none => s)
    else if x.next + 8 < seq || x.held.any (fun h => h.1 == seq) then s
    else putSession s { x with held := x.held ++ [(seq, m)] }

/-- READ (R457). -/
def execRead (sess seq : BitVec 32) (items : List ReadItem) (s : State) : Host.Outcome State Fault Refusal :=
  .next (deliverMsg s sess.toNat seq.toNat (.read items))

/-- WRITE (R457). -/
def execWrite (sess seq : BitVec 32) (items : List WriteItem) (s : State) : Host.Outcome State Fault Refusal :=
  .next (deliverMsg s sess.toNat seq.toNat (.write items))

/-- COMMIT (R463). -/
def execCommit (sess seq : BitVec 32) (s : State) : Host.Outcome State Fault Refusal :=
  .next (deliverMsg s sess.toNat seq.toNat .commit)

/-- DISCARD (R456, R463). -/
def execDiscard (sess seq : BitVec 32) (s : State) : Host.Outcome State Fault Refusal :=
  .next (deliverMsg s sess.toNat seq.toNat .discard)

/-- CONFIRM (R467). -/
def execConfirm (sess seq token : BitVec 32) (s : State) : Host.Outcome State Fault Refusal :=
  .next (deliverMsg s sess.toNat seq.toNat (.confirm token))

/-- SUBSCRIBE (R469). -/
def execSubscribe (sess seq : BitVec 32) (mask : BitVec 16) (minSev : BitVec 8) (fromSeq : BitVec 64) (s : State) :
    Host.Outcome State Fault Refusal :=
  .next (deliverMsg s sess.toNat seq.toNat (.subscribe mask minSev fromSeq))

/-- EVENT_ACK (R469). -/
def execEventAck (sess seq : BitVec 32) (acked : BitVec 64) (s : State) : Host.Outcome State Fault Refusal :=
  .next (deliverMsg s sess.toNat seq.toNat (.eventAck acked))

/-- PING (R456). -/
def execPing (sess seq : BitVec 32) (s : State) : Host.Outcome State Fault Refusal :=
  .next (deliverMsg s sess.toNat seq.toNat .ping)

/-- CLOSE (R455). -/
def execClose (sess seq : BitVec 32) (s : State) : Host.Outcome State Fault Refusal :=
  .next (deliverMsg s sess.toNat seq.toNat .close)

/-! ## Frames that arrive (R450, R451) -/

/-- Read items of a body. -/
def parseReads : Nat → List Byte → List ReadItem
  | 0, _ => []
  | k + 1, b =>
    { index := BitVec.ofNat 16 (ofBytesBE (b.take 2)), sub := (b[2]?).getD 0, flags := (b[3]?).getD 0
      offset := BitVec.ofNat 32 (ofBytesBE ((b.drop 4).take 4)), maxLen := BitVec.ofNat 16 (ofBytesBE ((b.drop 8).take 2)) }
      :: parseReads k (b.drop 12)

/-- Write items of a body; none where it does not end with an item. -/
def parseWrites : Nat → List Byte → Option (List WriteItem)
  | _, [] => some []
  | 0, _ => none
  | k + 1, b =>
    let n := ofBytesBE ((b.drop 4).take 2)
    if b.length < 6 + n then none
    else (parseWrites k (b.drop (6 + n))).map (fun l =>
      { index := BitVec.ofNat 16 (ofBytesBE (b.take 2)), sub := (b[2]?).getD 0, data := (b.drop 6).take n } :: l)

/-- A message from its type and body (R456, R457). -/
def parseMsg (typ : Nat) (b : List Byte) : DapMsg :=
  let bad := DapMsg.bad (BitVec.ofNat 8 typ)
  match typ with
  | 0x10 => if b.length % 12 = 0 && !b.isEmpty && b.length ≤ 768 then .read (parseReads (b.length / 12) b) else bad
  | 0x11 =>
    (match parseWrites 64 b with
     | some l => if l.isEmpty then bad else .write l
     | none => bad)
  | 0x12 => if b.isEmpty then .commit else bad
  | 0x13 => if b.isEmpty then .discard else bad
  | 0x14 => if b.length = 4 then .confirm (BitVec.ofNat 32 (ofBytesBE b)) else bad
  | 0x15 =>
    if b.length = 12 then
      .subscribe (BitVec.ofNat 16 (ofBytesBE (b.take 2))) ((b[2]?).getD 0) (BitVec.ofNat 64 (ofBytesBE (b.drop 4)))
    else bad
  | 0x17 => if b.length = 8 then .eventAck (BitVec.ofNat 64 (ofBytesBE b)) else bad
  | 0x18 => if b.isEmpty then .ping else bad
  | 0x19 => if b.isEmpty then .close else bad
  | _ => bad

/-- The tag of a frame of a session fails (R451): the sixteenth in a row ends the session. -/
def tagFailed (s : State) (x : Session) : State :=
  let s := addCtr s 0x4C01 3 1
  if x.fails + 1 < 16 then putSession s { x with fails := x.fails + 1 }
  else raise (addCtr (endSession s x.number) 0x4C01 2 1) 0x0B04 0xFF 0 [x.number, 2]

/-- A segment joins its message; a message whose segments are all there is delivered (R450). -/
def joinSegment (s : State) (x : Session) (h : Nat) (pl : List Byte) : State :=
  let seq := bits h 63 32
  let typ := bits h 119 112
  let last := bits h 7 0
  let l := x.segs.filter (fun g => !(g.1 == seq && g.2.2.2.1 == bits h 15 8)) ++ [(seq, typ, last, bits h 15 8, pl)]
  let mine := l.filter (fun g => g.1 == seq && g.2.1 == typ && g.2.2.1 == last)
  let part := fun (k : Nat) => (mine.find? (fun g => g.2.2.2.1 == k)).map (fun g => g.2.2.2.2)
  let x := { x with fails := 0 }
  if (upFrom 0 (last + 1)).all (fun k => (part k).isSome) then
    let body := (upFrom 0 (last + 1)).flatMap (fun k => (part k).getD [])
    deliverMsg (putSession s { x with segs := l.filter (fun g => g.1 != seq) }) x.number seq (parseMsg typ body)
  else putSession s { x with segs := l }

/-- A frame's header is in form: reserved bits zero, its length that of the payload and at most 1,400, its segment one of the
message's (R450). -/
def headOk (h len : Nat) : Bool :=
  bits h 123 120 == 0 && bits h 31 24 == 0 && bits h 23 18 == 0 && bits h 111 96 == len && decide (len ≤ 1400) &&
    decide (bits h 15 8 ≤ bits h 7 0)

/-- An unsealed frame's part of its message: frames from the same place with the same type, session and number of segments
belong together. -/
def sameMsg (a b : DapArrival) : Bool :=
  a.via == b.via && a.src == b.src && bits a.header.toNat 119 112 == bits b.header.toNat 119 112 &&
    bits a.header.toNat 95 32 == bits b.header.toNat 95 32 && bits a.header.toNat 7 0 == bits b.header.toNat 7 0

/-- The body of a handshake message whose segments are all there, and the segments that then remain (R450). -/
def joinOpen (l : List (DapArrival × List Byte)) (came : DapArrival) : Option (List Byte) × List (DapArrival × List Byte) :=
  let mine := l.filter (fun g => sameMsg g.1 came)
  let last := bits came.header.toNat 7 0
  let part := fun (k : Nat) => (mine.find? (fun g => bits g.1.header.toNat 15 8 == k)).map Prod.snd
  if (upFrom 0 (last + 1)).all (fun k => (part k).isSome) then
    (some ((upFrom 0 (last + 1)).flatMap (fun k => (part k).getD [])), l.filter (fun g => !sameMsg g.1 came))
  else (none, l)

/-- A whole HELLO or KEY message, by its body (R452). -/
def openMsg (s : State) (came : DapArrival) (b : List Byte) : State :=
  if bits came.header.toNat 119 112 = 1 then
    helloMsg s came.via.val came.src (ofBytesBE (b.take 32)) (ofBytesBE ((b.drop 32).take 2)) ((b[34]?).getD 0).toNat (b.drop 35)
  else match handshakeOf s came with
    | none => s
    | some x => keyMsg s x (b.take 1568) (b.drop 1568)

/-- An unsealed frame: HELLO with version and session 0, KEY of a handshake under way; the rest is dropped (R450, R452,
R471). -/
def openFrame (s : State) (came : DapArrival) (payload : List Byte) : State :=
  let h := came.header.toNat
  let known := match bits h 119 112 with
    | 1 => bits h 127 124 == 0 && bits h 95 64 == 0 && dapServed s && viaServed s came.via.val came.src
    | 3 => (handshakeOf s came).isSome
    | _ => false
  if !known || bits h 63 32 ≠ 0 then s
  else
    let l := s.dap.segs.filter (fun g => !(sameMsg g.1 came && bits g.1.header.toNat 15 8 == bits h 15 8)) ++ [(came, payload)]
    let r := joinOpen l came
    let s := putDap s { s.dap with segs := r.2 }
    match r.1 with
    | none => s
    | some b => openMsg s came b

/-- DAP_FRAME_RECEIVED (R449 to R452, R471): a frame with its 16-byte header, payload and tag. Sealed frames belong to open
sessions; frames of no session, of another version, ill-formed or with a bad tag are dropped. -/
def execDapFrameReceived (came : DapArrival) (payload tag : List Byte) (s : State) : Host.Outcome State Fault Refusal :=
  let h := came.header.toNat
  if !headOk h payload.length then .next s
  else if bits h 16 16 = 0 then .next (openFrame s came payload)
  else
    match getSession s (bits h 95 64) with
    | none => .next s
    | some x =>
      if !x.ready || !dapServed s || !viaServed s came.via.val came.src || bits h 127 124 ≠ x.version then .next s
      else
        match Config.gcmOpen (x.keys.take 32) (gcmNonce 0 h) (toBytesBE 16 h) payload tag with
        | none => .next (tagFailed s x)
        | some pl => .next (joinSegment s { x with via := came.via.val, src := came.src } h pl)

/-- REASSEMBLY_TIMEOUT (R450): 1 s has passed since the first segment of a message that is not whole; session 0 names the
HELLO messages under way. -/
def execReassemblyTimeout (sess seq : BitVec 32) (s : State) : Host.Outcome State Fault Refusal :=
  let s := putDap s { s.dap with segs := s.dap.segs.filter (fun g => bits g.1.header.toNat 95 32 != sess.toNat * 2 ^ 32 + seq.toNat) }
  match getSession s sess.toNat with
  | none => .next s
  | some x => .next (putSession s { x with segs := x.segs.filter (fun g => g.1 != seq.toNat) })

end Sys2Proof.Machine
end

