-- ==== Sys2Proof/Machine/Refill.lean ====
section
/-! DEFINITION. Machine/Refill.lean: refills of poisoned lines, from T0, T1 or a peer's memory (11 R252 to R254; 15
R344). -/

namespace Sys2Proof.Machine

/-! ## What a refill reads over the fabric (R239, R240, R344) -/

/-- A refill asks a peer for the line of an address in a window; where its partition may not read the window, the read
has failed (R240). -/
def askRefill (p line : Nat) (s : State) (a : Nat) : State :=
  match placeOf a with
  | .window w _ =>
    if windowOpen s p w then readFar s p (a / 64 * 64) 64 (refillOwner line) 0
    else putLft s { s.lft with reads := s.lft.reads ++
      [{ id := 0, seq := none, failed := true, window := w, peer := 0, part := p, src := a / 64 * 64, bytes := 64
         owner := refillOwner line, tag := 0 }] }
  | _ => s

/-- A refill still waits for a peer's answer. -/
def refillWaits (s : State) (line : Nat) : Bool :=
  s.lft.reads.any (fun r => r.owner == refillOwner line && !r.failed)

/-- A read of a refill was answered poisoned, or not at all. -/
def refillFailed (s : State) (line a : Nat) : Bool :=
  s.lft.reads.any (fun r => r.owner == refillOwner line && r.src == a / 64 * 64 && r.failed)

/-- What a refill has read over the fabric is forgotten. -/
def forgetRefill (s : State) (line : Nat) : State :=
  let s := dropFar s (refillOwner line)
  putLft s { s.lft with reads := s.lft.reads.filter (fun r => r.owner != refillOwner line) }

/-- A location's stamp, as a refill reads it: over the fabric where it lies in a window. -/
def stampFor (s : State) (line r i : Nat) : Option Nat :=
  let a := (objLoc r i).2
  if !isWindow a then stampOf s r i
  else if refillFailed s line a then none
  else validStamp (farNat s (refillOwner line) a 8)

/-! ## The steps of a refill -/

/-- The refill of a line whose object uses a window goes on: its stamps in windows are asked for; once they are answered
the source is chosen, and the line asked for where the source lies in a window (R252, R344). -/
def seekOne (s : State) (e : Nat × Bool) : State :=
  let line := e.1
  match lineOwner s line with
  | none => failRefill (putMemErr s { s.memErr with seeking := s.memErr.seeking.filter (fun x => x.1 != line) }) line
  | some p =>
    if !e.2 then
      let far := match objOf s p line with
        | none => []
        | some r => ((objLocs r).map (fun i => (objLoc r i).2)).filter isWindow
      let s := far.foldl (askRefill p line) s
      putMemErr s { s.memErr with
        seeking := s.memErr.seeking.map (fun x => if x.1 = line then (line, true) else x) }
    else if refillWaits s line then s
    else
      let src := refillBy s (stampFor s line) p line
      let s := forgetRefill s line
      let s := putMemErr s { s.memErr with seeking := s.memErr.seeking.filter (fun x => x.1 != line) }
      match src with
      | none => failRefill s line
      | some src =>
        askRefill p line (putMemErr s { s.memErr with refilling := s.memErr.refilling ++ [(line, src)] }) src

/-- A refill whose one read, of a peer, has failed is not made (R252, R254). -/
def dropFailed (s : State) (e : Nat × Nat) : State :=
  if isWindow e.2 && refillFailed s e.1 e.2 then
    failRefill (forgetRefill (putMemErr s { s.memErr with refilling := s.memErr.refilling.filter (· != e) }) e.1) e.1
  else s

/-- The refills that use windows go on. -/
def seekRefills (s : State) : State :=
  let s := s.memErr.seeking.foldl seekOne s
  s.memErr.refilling.foldl dropFailed s

/-- A refilled line of a failed interface lies on the spare page that its page is copied to (R249, R253). -/
def healLine (s : State) (line : Nat) : State :=
  if s.memErr.failedIf.contains (interfaceOf line) &&
      (s.memErr.copying.contains (pageOf line) || s.memErr.retiredPages.contains (pageOf line)) then
    putMemErr s { s.memErr with healed := insertNew s.memErr.healed line }
  else s

/-- A line is refilled with bytes: the parked requests are served, then the page or SRAM line is retired (R253, R255); of a
T2 line the readers are served. -/
def refillWith (s : State) (line : Nat) (bs : List Byte) : State :=
  if isWindow line then
    serveFar (takeParked (putMemErr s { s.memErr with poison := s.memErr.poison.filter (· != line) }) line).2 line bs
  else
    let t := takeParked (pokeMemory s line bs) line
    let s := retireLine (t.1.foldl (serveOne line) t.2) line
    match placeOf line with
    | .t1 _ => healLine s line
    | _ => s

/-- A read of a refill's source was corrected by ECC (R258). -/
def countCorrected (s : State) (src : Nat) : State :=
  match placeOf src with
  | .tile t _ => tileCtr s t 0x2C 1
  | _ => if poisonDie src < 4 then addCtr s (0x4200 + poisonDie src) 3 1 else s

/-- REFILL_ARRIVED (R253): the source line of the k-th refill arrives, from T0 or T1, or from T2 once the peer has answered.
A source in T0 or T1 that `good` denies, or that is itself uncorrectable, could not be read: no refill is made (R252).
`corrected` says that ECC corrected its read (R258). -/
def execRefillArrived (k : Nat) (good corrected : Bool) (s : State) : Host.Outcome State Fault Refusal :=
  match s.memErr.refilling[k]? with
  | none => .next s
  | some (line, src) =>
    if refillWaits s line || (!isWindow src && lineHeld s src false) then .next s
    else
      let s1 := putMemErr s { s.memErr with refilling := dropAt s.memErr.refilling k }
      if isWindow src then
        if refillFailed s line src then .next (failRefill (forgetRefill s1 line) line)
        else
          let bs := (upFrom src 64).map (farByte s (refillOwner line))
          let s2 := if poisonDie line < 4 then addCtr s1 (0x4200 + poisonDie line) 5 1 else s1
          .next (admitPoison (refillWith (forgetRefill s2 line) line bs))
      else if !good || lineBad s src then .next (failRefill (if good then s1 else notePoison s1 src) line)
      else
        let s2 := if corrected then countCorrected s1 src else s1
        let s2 := if poisonDie line < 4 then addCtr s2 (0x4200 + poisonDie line) 5 1 else s2
        .next (admitPoison (refillWith s2 line (readBytes s src 64)))

end Sys2Proof.Machine
end

