-- ==== Sys2Proof/Machine/Dispatch.lean ====
section
/-! DEFINITION. Machine/Dispatch.lean: one arm per command. -/

namespace Sys2Proof.Machine

/-- The effect of a command on everything but the queue. -/
def exec (i : Instr) (s : State) : Host.Outcome State Fault Refusal :=
  match i with
  | .nop t x w => Sys2Proof.Machine.execNop t x w s
  | .step t x w => Sys2Proof.Machine.execStep t x w s
  | .jump t x w => Sys2Proof.Machine.execJump t x w s
  | .endStream t x w => Sys2Proof.Machine.execEndStream t x w s
  | .mma t x w => Sys2Proof.Machine.execMma t x w s
  | .mmaT t x w => Sys2Proof.Machine.execMmaT t x w s
  | .bwd2 t x w => Sys2Proof.Machine.execBwd2 t x w s
  | .drain t x w => Sys2Proof.Machine.execDrain t x w s
  | .load t x w => Sys2Proof.Machine.execLoad t x w s
  | .loadt t x w => Sys2Proof.Machine.execLoadt t x w s
  | .store t x w => Sys2Proof.Machine.execStore t x w s
  | .gather t x w => Sys2Proof.Machine.execGather t x w s
  | .scatterAdd t x w => Sys2Proof.Machine.execScatterAdd t x w s
  | .updP1 t x w => Sys2Proof.Machine.execUpdP1 t x w s
  | .updP2 t x w => Sys2Proof.Machine.execUpdP2 t x w s
  | .vexec t x w => Sys2Proof.Machine.execVexec t x w s
  | .reduceSlotSum t x w => Sys2Proof.Machine.execReduceSlotSum t x w s
  | .reduceSelect t x w => Sys2Proof.Machine.execReduceSelect t x w s
  | .reduceAudit t x w => Sys2Proof.Machine.execReduceAudit t x w s
  | .normrc t x w => Sys2Proof.Machine.execNormrc t x w s
  | .smaxrc t x w => Sys2Proof.Machine.execSmaxrc t x w s
  | .signal t x w => Sys2Proof.Machine.execSignal t x w s
  | .watch t x w => Sys2Proof.Machine.execWatch t x w s
  | .wait t x w => Sys2Proof.Machine.execWait t x w s
  | .vend t w => Sys2Proof.Machine.execVend t w s
  | .vld t w => Sys2Proof.Machine.execVld t w s
  | .vst t w => Sys2Proof.Machine.execVst t w s
  | .vadd t w => Sys2Proof.Machine.execVadd t w s
  | .vsub t w => Sys2Proof.Machine.execVsub t w s
  | .vmul t w => Sys2Proof.Machine.execVmul t w s
  | .vfma t w => Sys2Proof.Machine.execVfma t w s
  | .vmax t w => Sys2Proof.Machine.execVmax t w s
  | .vmin t w => Sys2Proof.Machine.execVmin t w s
  | .vcgt t w => Sys2Proof.Machine.execVcgt t w s
  | .vsel t w => Sys2Proof.Machine.execVsel t w s
  | .vexp t w => Sys2Proof.Machine.execVexp t w s
  | .vlog t w => Sys2Proof.Machine.execVlog t w s
  | .vrcp t w => Sys2Proof.Machine.execVrcp t w s
  | .vrsq t w => Sys2Proof.Machine.execVrsq t w s
  | .vcvt t w => Sys2Proof.Machine.execVcvt t w s
  | .vand t w => Sys2Proof.Machine.execVand t w s
  | .vor t w => Sys2Proof.Machine.execVor t w s
  | .vxor t w => Sys2Proof.Machine.execVxor t w s
  | .vshl t w => Sys2Proof.Machine.execVshl t w s
  | .vbc t w => Sys2Proof.Machine.execVbc t w s
  | .vrsum t w => Sys2Proof.Machine.execVrsum t w s
  | .vrmax t w => Sys2Proof.Machine.execVrmax t w s
  | .sadd t w => Sys2Proof.Machine.execSadd t w s
  | .sloop t w => Sys2Proof.Machine.execSloop t w s
  | .sld t w => Sys2Proof.Machine.execSld t w s
  | .sst t w => Sys2Proof.Machine.execSst t w s
  | .swread t w => Sys2Proof.Machine.execSwread t w s
  | .handOver t => Sys2Proof.Machine.execHandOver t s
  | .loadComplete t x seq => Sys2Proof.Machine.execLoadComplete t x seq s
  | .panelLoadComplete t x seq => Sys2Proof.Machine.execPanelLoadComplete t x seq s
  | .sideOperandLoaded t x seq => Sys2Proof.Machine.execSideOperandLoaded t x seq s
  | .tokenTimeout t x e => Sys2Proof.Machine.execTokenTimeout t x e s
  | .bankSideOp t line op operand req => Sys2Proof.Machine.execBankSideOp t line op operand req s
  | .streamRun t x => Sys2Proof.Machine.execStreamRun t x s
  | .hubSignalApply k => Sys2Proof.Machine.execHubSignalApply k s
  | .heldSignalApply k => Sys2Proof.Machine.execHeldSignalApply k s
  | .counterAdd c n v => Sys2Proof.Machine.execCounterAdd c n v s
  | .counterMax c n v => Sys2Proof.Machine.execCounterMax c n v s
  | .counterInit c n v => Sys2Proof.Machine.execCounterInit c n v s
  | .watchRegister k => Sys2Proof.Machine.execWatchRegister k s
  | .watchSlotFreed k => Sys2Proof.Machine.execWatchSlotFreed k s
  | .watchTimeout list k => Sys2Proof.Machine.execWatchTimeout list k s
  | .whistleArrival k => Sys2Proof.Machine.execWhistleArrival k s
  | .syncSelect n => Sys2Proof.Machine.execSyncSelect n s
  | .enqueue d c whole desc => Sys2Proof.Machine.execEnqueue d c whole desc s
  | .enqueueSlotFreed k => Sys2Proof.Machine.execEnqueueSlotFreed k s
  | .itemDispatch c => Sys2Proof.Machine.execItemDispatch c s
  | .itemReturn c status => Sys2Proof.Machine.execItemReturn c status s
  | .itemFault c cause pc => Sys2Proof.Machine.execItemFault c cause pc s
  | .itemOverrun c => Sys2Proof.Machine.execItemOverrun c s
  | .agingEvaluation d => Sys2Proof.Machine.execAgingEvaluation d s
  | .houndDoorbell door addr => Sys2Proof.Machine.execHoundDoorbell door addr s
  | .hopClose p => Sys2Proof.Machine.execHopClose p s
  | .trailComplete p => Sys2Proof.Machine.execTrailComplete p s
  | .retrieverRequestComplete k => Sys2Proof.Machine.execRetrieverRequestComplete k s
  | .mergeAdd k => Sys2Proof.Machine.execMergeAdd k s
  | .deferredRowDelivered k => Sys2Proof.Machine.execDeferredRowDelivered k s
  | .migrationSwitch k => Sys2Proof.Machine.execMigrationSwitch k s
  | .publishDoorbell door t => Sys2Proof.Machine.execPublishDoorbell door t s
  | .versionFreed k => Sys2Proof.Machine.execVersionFreed k s
  | .maskLoadDoorbell door addr => Sys2Proof.Machine.execMaskLoadDoorbell door addr s
  | .planBuilt p => Sys2Proof.Machine.execPlanBuilt p s
  | .pass1Slice d => Sys2Proof.Machine.execPass1Slice d s
  | .diePass1Complete p d => Sys2Proof.Machine.execDiePass1Complete p d s
  | .normCombine p gi k => Sys2Proof.Machine.execNormCombine p gi k s
  | .pass2Start d => Sys2Proof.Machine.execPass2Start d s
  | .pass2SliceDone d => Sys2Proof.Machine.execPass2SliceDone d s
  | .groupUpdateDone p gi => Sys2Proof.Machine.execGroupUpdateDone p gi s
  | .stepBoundary p => Sys2Proof.Machine.execStepBoundary p s
  | .placementReload p v => Sys2Proof.Machine.execPlacementReload p v s
  | .uncorrectableError e req => Sys2Proof.Machine.execUncorrectableError e req s
  | .refillArrived k good corrected => Sys2Proof.Machine.execRefillArrived k good corrected s
  | .pageCopyDone k => Sys2Proof.Machine.execPageCopyDone k s
  | .linkCrcFailure burst => Sys2Proof.Machine.execLinkCrcFailure burst s
  | .retrainDone idx ok => Sys2Proof.Machine.execRetrainDone idx ok s
  | .patrolScrub line found reads => Sys2Proof.Machine.execPatrolScrub line found reads s
  | .farReadTimeout k => Sys2Proof.Machine.execFarReadTimeout k s
  | .windowOpen w entry => Sys2Proof.Machine.execWindowOpen w entry s
  | .windowClose w => Sys2Proof.Machine.execWindowClose w s
  | .progressChange p => Sys2Proof.Machine.execProgressChange p s
  | .prefetchLanded p idx => Sys2Proof.Machine.execPrefetchLanded p idx s
  | .prefetchCreditsReturned p idx => Sys2Proof.Machine.execPrefetchCreditsReturned p idx s
  | .peerTableWrite peer entry => Sys2Proof.Machine.execPeerTableWrite peer entry s
  | .lftHelloReceived sub peer mid inc versions youAre => Sys2Proof.Machine.execLftHelloReceived sub peer mid inc versions youAre s
  | .lftWriteReceived h => Sys2Proof.Machine.execLftWriteReceived h s
  | .lftReadReceived h => Sys2Proof.Machine.execLftReadReceived h s
  | .lftReadDataReceived h => Sys2Proof.Machine.execLftReadDataReceived h s
  | .lftSignalReceived h => Sys2Proof.Machine.execLftSignalReceived h s
  | .lftReduceReceived h ops => Sys2Proof.Machine.execLftReduceReceived h ops s
  | .lftAckReceived h => Sys2Proof.Machine.execLftAckReceived h s
  | .lftNakReceived h => Sys2Proof.Machine.execLftNakReceived h s
  | .lftRetransmitTimeout peer part seq => Sys2Proof.Machine.execLftRetransmitTimeout peer part seq s
  | .ackTimer peer part => Sys2Proof.Machine.execAckTimer peer part s
  | .helloInterval peer => Sys2Proof.Machine.execHelloInterval peer s
  | .peerTimeout peer => Sys2Proof.Machine.execPeerTimeout peer s
  | .reduceDoorbell door addr => Sys2Proof.Machine.execReduceDoorbell door addr s
  | .reductionDone k => Sys2Proof.Machine.execReductionDone k s
  | .linkUp l => Sys2Proof.Machine.execLinkUp l s
  | .linkDown l => Sys2Proof.Machine.execLinkDown l s
  | .linkHoldExpiry l => Sys2Proof.Machine.execLinkHoldExpiry l s
  | .frameReceived l len check => Sys2Proof.Machine.execFrameReceived l len check s
  | .pfcFrameReceived l enable times => Sys2Proof.Machine.execPfcFrameReceived l enable times s
  | .pfcWatchdog l k => Sys2Proof.Machine.execPfcWatchdog l k s
  | .opticInserted p copper powerMw apps vendor part serial => Sys2Proof.Machine.execOpticInserted p copper powerMw apps vendor part serial s
  | .opticRemoved p => Sys2Proof.Machine.execOpticRemoved p s
  | .ptpMessage port m => Sys2Proof.Machine.execPtpMessage port m s
  | .announceTimeout => Sys2Proof.Machine.execAnnounceTimeout s
  | .holdoverLimit => Sys2Proof.Machine.execHoldoverLimit s
  | .form p => Sys2Proof.Machine.execForm p s
  | .start p => Sys2Proof.Machine.execStart p s
  | .stop p => Sys2Proof.Machine.execStop p s
  | .preempt p => Sys2Proof.Machine.execPreempt p s
  | .resume p => Sys2Proof.Machine.execResume p s
  | .restart p => Sys2Proof.Machine.execRestart p s
  | .dissolve p => Sys2Proof.Machine.execDissolve p s
  | .partitionRestart p => Sys2Proof.Machine.execPartitionRestart p s
  | .healthProbe u answered => Sys2Proof.Machine.execHealthProbe u answered s
  | .replacementReady t => Sys2Proof.Machine.execReplacementReady t s
  | .retireRequest t => Sys2Proof.Machine.execRetireRequest t s
  | .testRequest ph => Sys2Proof.Machine.execTestRequest ph s
  | .poolTestTimer d => Sys2Proof.Machine.execPoolTestTimer d s
  | .selfTestDone u pass => Sys2Proof.Machine.execSelfTestDone u pass s
  | .inputSample mv ma => Sys2Proof.Machine.execInputSample mv ma s
  | .inputFault => Sys2Proof.Machine.execInputFault s
  | .kennelSaveDone => Sys2Proof.Machine.execKennelSaveDone s
  | .idleTimerExpiry idx st => Sys2Proof.Machine.execIdleTimerExpiry idx st s
  | .domainWake idx => Sys2Proof.Machine.execDomainWake idx s
  | .stateEntryDone idx => Sys2Proof.Machine.execStateEntryDone idx s
  | .stateExitDone idx => Sys2Proof.Machine.execStateExitDone idx s
  | .powerEvaluation array => Sys2Proof.Machine.execPowerEvaluation array s
  | .thermalReport sensor milliC => Sys2Proof.Machine.execThermalReport sensor milliC s
  | .coolantSample flow inlet => Sys2Proof.Machine.execCoolantSample flow inlet s
  | .thermalCritical kind unit => Sys2Proof.Machine.execThermalCritical kind unit s
  | .pwrEnHigh => Sys2Proof.Machine.execPwrEnHigh s
  | .pwrEnLow => Sys2Proof.Machine.execPwrEnLow s
  | .rstNLow => Sys2Proof.Machine.execRstNLow s
  | .rstNHigh => Sys2Proof.Machine.execRstNHigh s
  | .coldStart slot svc fail detail => Sys2Proof.Machine.execColdStart slot svc fail detail s
  | .gddr7TrainingDone failed => Sys2Proof.Machine.execGddr7TrainingDone failed s
  | .ptpWaitExpiry => Sys2Proof.Machine.execPtpWaitExpiry s
  | .bootReady => Sys2Proof.Machine.execBootReady s
  | .holdupCharged => Sys2Proof.Machine.execHoldupCharged s
  | .warmReset slot svc fail detail => Sys2Proof.Machine.execWarmReset slot svc fail detail s
  | .devReset v => Sys2Proof.Machine.execDevReset v s
  | .dapHello via src nonce versions role key => Sys2Proof.Machine.execDapHello via src nonce versions role key s
  | .dapKey came ct sig => Sys2Proof.Machine.execDapKey came ct sig s
  | .handshakeTimeout sess => Sys2Proof.Machine.execHandshakeTimeout sess s
  | .dapFrameReceived came payload tag => Sys2Proof.Machine.execDapFrameReceived came payload tag s
  | .reassemblyTimeout sess seq => Sys2Proof.Machine.execReassemblyTimeout sess seq s
  | .read sess seq items => Sys2Proof.Machine.execRead sess seq items s
  | .write sess seq items => Sys2Proof.Machine.execWrite sess seq items s
  | .commit sess seq => Sys2Proof.Machine.execCommit sess seq s
  | .discard sess seq => Sys2Proof.Machine.execDiscard sess seq s
  | .confirm sess seq token => Sys2Proof.Machine.execConfirm sess seq token s
  | .subscribe sess seq mask minSev fromSeq => Sys2Proof.Machine.execSubscribe sess seq mask minSev fromSeq s
  | .eventAck sess seq acked => Sys2Proof.Machine.execEventAck sess seq acked s
  | .ping sess seq => Sys2Proof.Machine.execPing sess seq s
  | .close sess seq => Sys2Proof.Machine.execClose sess seq s
  | .idleTimeout sess => Sys2Proof.Machine.execIdleTimeout sess s
  | .eventResendTimer sess => Sys2Proof.Machine.execEventResendTimer sess s
  | .alertClear v => Sys2Proof.Machine.execAlertClear v s
  | .registerWrite w => Sys2Proof.Machine.execRegisterWrite w s
  | .attNonce sess nonce => Sys2Proof.Machine.execAttNonce sess nonce s
  | .attReportBuilt sess signed => Sys2Proof.Machine.execAttReportBuilt sess signed s
  | .fwUpdateBegin sess slot len => Sys2Proof.Machine.execFwUpdateBegin sess slot len s
  | .fwUpdateBlock sess block half crc data => Sys2Proof.Machine.execFwUpdateBlock sess block half crc data s
  | .fwBlockProgrammed => Sys2Proof.Machine.execFwBlockProgrammed s
  | .fwUpdateManifest sess m => Sys2Proof.Machine.execFwUpdateManifest sess m s
  | .fwUpdateActivate sess v => Sys2Proof.Machine.execFwUpdateActivate sess v s
  | .fwVerifyDone => Sys2Proof.Machine.execFwVerifyDone s
  | .fwActivation => Sys2Proof.Machine.execFwActivation s
  | .fwUpdateAbort sess v => Sys2Proof.Machine.execFwUpdateAbort sess v s
  | .romRecovery => Sys2Proof.Machine.execRomRecovery s
  | .moduleRemapWrite d => Sys2Proof.Machine.execModuleRemapWrite d s
  | .identifyWrite v => Sys2Proof.Machine.execIdentifyWrite v s
  | .identifyExpiry => Sys2Proof.Machine.execIdentifyExpiry s
  | .removalRequest => Sys2Proof.Machine.execRemovalRequest s
  | .removalCancel => Sys2Proof.Machine.execRemovalCancel s
  | .removalSafe => Sys2Proof.Machine.execRemovalSafe s
  | .quiesceRequest => Sys2Proof.Machine.execQuiesceRequest s
  | .quiesced => Sys2Proof.Machine.execQuiesced s
  | .ledTest v => Sys2Proof.Machine.execLedTest v s
  | .alarmClear p v => Sys2Proof.Machine.execAlarmClear p v s
  | .traceArm v => Sys2Proof.Machine.execTraceArm v s
  | .svcShortPress => Sys2Proof.Machine.execSvcShortPress s
  | .svcHold => Sys2Proof.Machine.execSvcHold s
  | .handlePadTouch began => Sys2Proof.Machine.execHandlePadTouch began s
  | .leverOpen => Sys2Proof.Machine.execLeverOpen s
  | .leverClosed => Sys2Proof.Machine.execLeverClosed s
  | .handlingSample mg => Sys2Proof.Machine.execHandlingSample mg s
  | .liveInsertion => Sys2Proof.Machine.execLiveInsertion s
  | .flashSettingsProgram => Sys2Proof.Machine.execFlashSettingsProgram s
  | .opticMonitorRead p temp supply lanes reading => Sys2Proof.Machine.execOpticMonitorRead p temp supply lanes reading s
  | .pauseIgnoreExpiry l k => Sys2Proof.Machine.execPauseIgnoreExpiry l k s
  | .ledTestExpiry => Sys2Proof.Machine.execLedTestExpiry s
  | .mergeDirectoryCleared p t die => Sys2Proof.Machine.execMergeDirectoryCleared p t die s
  | .svcPowerUpRelease => Sys2Proof.Machine.execSvcPowerUpRelease s
  | .managementPortLinkUp => Sys2Proof.Machine.execManagementPortLinkUp s
  | .managementPortLinkDown => Sys2Proof.Machine.execManagementPortLinkDown s

end Sys2Proof.Machine
end

