-- ==== Sys2Proof/Machine/RvFloat.lean ====
section
/-! DEFINITION. Machine/RvFloat.lean: the floating-point arithmetic of a work core (00 R3): the F and D extensions of RISC-V
over IEEE 754, formats of 32 and 64 bits, and the estimates of V 1.0 (log 10, PRESUMED). Rounding modes: 0 to nearest
even, 1 toward zero, 2 down, 3 up, 4 to nearest away from zero, 5 to odd. Flags: 1 inexact, 2 underflow, 4 overflow, 8
division by zero, 16 invalid. -/

namespace Sys2Proof.Machine

/-! ## Formats -/

/-- Fraction bits of a format of w bits. -/
def ieMan (w : Nat) : Nat := if w = 64 then 52 else 23

/-- Exponent bias. -/
def ieBias (w : Nat) : Nat := if w = 64 then 1023 else 127

/-- The exponent field of infinities and NaNs. -/
def ieTop (w : Nat) : Nat := 2 ^ (w - 1 - ieMan w) - 1

/-- Bits of an infinity. -/
def ieInf (w : Nat) (neg : Bool) : Nat := ieTop w * 2 ^ ieMan w + (if neg then 2 ^ (w - 1) else 0)

/-- Bits of a zero. -/
def ieZero (w : Nat) (neg : Bool) : Nat := if neg then 2 ^ (w - 1) else 0

/-- The canonical NaN. -/
def ieNan (w : Nat) : Nat := ieTop w * 2 ^ ieMan w + 2 ^ (ieMan w - 1)

/-- The value of bits. -/
def ieVal (w b : Nat) : Fp :=
  let man := ieMan w
  let neg := bitSet b (w - 1)
  let ex := bits b (w - 2) man
  let fr := b % 2 ^ man
  if ex = ieTop w then (if fr = 0 then .inf neg else .nan)
  else if ex = 0 then .fin neg fr (1 - (ieBias w : Int) - man)
  else .fin neg (2 ^ man + fr) ((ex : Int) - ieBias w - man)

/-- Bits of a NaN. -/
def ieIsNan (w b : Nat) : Bool := fpIsNan (ieVal w b)

/-- Bits of a signaling NaN. -/
def ieSnan (w b : Nat) : Bool := ieIsNan w b && !bitSet b (ieMan w - 1)

/-- A flag that stands for a condition. -/
def flagIf (f : Nat) (c : Bool) : Nat := if c then f else 0

/-! ## Rounding -/

/-- A magnitude in whole units of 2^u by a rounding mode, and whether it was not a whole number of them. -/
def unitsOf (rm : Nat) (neg : Bool) (m : Nat) (e u : Int) : Nat × Bool :=
  if u ≤ e then (m <<< (e - u).toNat, false)
  else
    let sh := (u - e).toNat
    let q := m >>> sh
    let r := m % 2 ^ sh
    let up := match rm with
      | 0 => decide (2 ^ sh < 2 * r) || (2 * r == 2 ^ sh && q % 2 == 1)
      | 1 => false
      | 2 => neg && r != 0
      | 3 => !neg && r != 0
      | 4 => decide (2 ^ sh ≤ 2 * r)
      | _ => q % 2 == 0 && r != 0
    (if up then q + 1 else q, r != 0)

/-- The largest finite magnitude stands for an overflow by this mode and sign. -/
def toMax (rm : Nat) (neg : Bool) : Bool := match rm with | 1 | 5 => true | 2 => !neg | 3 => neg | _ => false

/-- A value rounded into a format: bits and flags; underflow is tininess after rounding. -/
def ieRound (w rm : Nat) (x : Fp) : Nat × Nat :=
  match x with
  | .nan => (ieNan w, 0)
  | .inf n => (ieInf w n, 0)
  | .fin n m e =>
    if m = 0 then (ieZero w n, 0)
    else
      let man : Int := ieMan w
      let emin : Int := 1 - ieBias w
      let top := magLog m e
      let u := max top emin - man
      let r := unitsOf rm n m e u
      let enc := (u + man - emin + 1).toNat * 2 ^ ieMan w + r.1 - 2 ^ ieMan w
      let free := unitsOf rm n m e (top - man)
      let tiny := decide (magLog free.1 (top - man) < emin)
      if ieTop w * 2 ^ ieMan w ≤ enc then
        (ieInf w n - (if toMax rm n then 1 else 0), 5)
      else (ieZero w n + enc, flagIf 1 r.2 + flagIf 2 (tiny && r.2))

/-! ## Arithmetic -/

/-- The bits with the sign flipped. -/
def ieNeg (w b : Nat) : Nat := b ^^^ 2 ^ (w - 1)

/-- An exact sum with the sign that a zero has by the rounding mode. -/
def sumVal (rm : Nat) (x y : Fp) : Fp :=
  match fpAdd x y with
  | .fin n 0 e => .fin (if fpIsNeg x = fpIsNeg y then n else rm == 2) 0 e
  | z => z

/-- A rounded result of operands, with the invalid flag for a signaling NaN and for a NaN made of numbers. -/
def ieResult (w rm : Nat) (ops : List Nat) (x : Fp) : Nat × Nat :=
  let bad := ops.any (ieSnan w) || (fpIsNan x && !ops.any (ieIsNan w))
  let r := ieRound w rm x
  (r.1, r.2 + flagIf 16 bad)

/-- Sum. -/
def ieAdd (w rm a b : Nat) : Nat × Nat := ieResult w rm [a, b] (sumVal rm (ieVal w a) (ieVal w b))

/-- Difference. -/
def ieSub (w rm a b : Nat) : Nat × Nat :=
  ieResult w rm [a, b] (sumVal rm (ieVal w a) (fpFlip (ieVal w b)))

/-- Product. -/
def ieMul (w rm a b : Nat) : Nat × Nat := ieResult w rm [a, b] (fpMul (ieVal w a) (ieVal w b))

/-- Quotient. -/
def ieDiv (w rm a b : Nat) : Nat × Nat :=
  let x := ieVal w a; let y := ieVal w b
  let r := ieResult w rm [a, b] (fpDiv (ieMan w + 1) x y)
  (r.1, r.2 + flagIf 8 (fpIsFin x && !fpIsZero x && fpIsZero y))

/-- Square root. -/
def ieSqrt (w rm a : Nat) : Nat × Nat :=
  match ieVal w a with
  | .nan => ieResult w rm [a] .nan
  | .inf n => if n then (ieNan w, 16) else (a, 0)
  | .fin n m e =>
    if m = 0 then (a, 0)
    else if n then (ieNan w, 16)
    else let q := sqrtMag (ieMan w + 1) m e; ieRound w rm (.fin false q.1 q.2)

/-- a * b + c, rounded once; infinity times zero is invalid whatever is added. -/
def ieFma (w rm a b c : Nat) : Nat × Nat :=
  let x := fpMul (ieVal w a) (ieVal w b)
  let lost := fpIsNan x && !ieIsNan w a && !ieIsNan w b
  let r := ieResult w rm [a, b, c] (sumVal rm x (ieVal w c))
  (r.1, if lost then r.2 ||| 16 else r.2)

/-- The lesser or greater of two numbers; a NaN gives way, -0 is below +0. -/
def ieMinMax (w : Nat) (big : Bool) (a b : Nat) : Nat × Nat :=
  let x := ieVal w a; let y := ieVal w b
  let less := fpLt x y || (fpIsZero x && fpIsZero y && bitSet a (w - 1))
  let r := if ieIsNan w a && ieIsNan w b then ieNan w
    else if ieIsNan w a then b
    else if ieIsNan w b then a
    else if less != big then a else b
  (r, flagIf 16 (ieSnan w a || ieSnan w b))

/-- Comparison: 0 equal (quiet), 1 less, 2 less or equal (signaling). -/
def ieCmp (w kind a b : Nat) : Bool × Nat :=
  let x := ieVal w a; let y := ieVal w b
  let nan := ieIsNan w a || ieIsNan w b
  match kind with
  | 0 => (fpEq x y, flagIf 16 (ieSnan w a || ieSnan w b))
  | 1 => (fpLt x y, flagIf 16 nan)
  | _ => (fpLt x y || fpEq x y, flagIf 16 nan)

/-- Sign injection: 0 the sign of b, 1 its opposite, 2 the signs' exclusive or. -/
def ieSgn (w kind a b : Nat) : Nat :=
  let s := 2 ^ (w - 1)
  let sb := b / s % 2; let sa := a / s % 2
  a % s + s * (match kind with | 0 => sb | 1 => 1 - sb | _ => (sa + sb) % 2)

/-- The class of a number, as a mask of ten bits. -/
def ieClass (w b : Nat) : Nat :=
  let neg := bitSet b (w - 1)
  match ieVal w b with
  | .nan => if ieSnan w b then 2 ^ 8 else 2 ^ 9
  | .inf _ => if neg then 1 else 2 ^ 7
  | .fin _ 0 _ => if neg then 2 ^ 3 else 2 ^ 4
  | .fin _ m _ => if m < 2 ^ ieMan w then (if neg then 2 ^ 2 else 2 ^ 5) else (if neg then 2 else 2 ^ 6)

/-! ## Conversions -/

/-- A number as an integer of n bits; what does not fit is invalid and saturates. -/
def ieToInt (w rm n : Nat) (signed : Bool) (b : Nat) : Nat × Nat :=
  let lo : Int := if signed then -(2 ^ (n - 1) : Nat) else 0
  let hi : Int := if signed then (2 ^ (n - 1) : Nat) - 1 else (2 ^ n : Nat) - 1
  match ieVal w b with
  | .nan => (toField n hi, 16)
  | .inf neg => (toField n (if neg then lo else hi), 16)
  | .fin neg m e =>
    let r := unitsOf rm neg m e 0
    let v : Int := if neg then -(r.1 : Int) else r.1
    if v < lo then (toField n lo, 16) else if hi < v then (toField n hi, 16) else (toField n v, flagIf 1 r.2)

/-- An integer as a number. -/
def ieOfInt (w rm : Nat) (v : Int) : Nat × Nat := ieRound w rm (.fin (decide (v < 0)) v.natAbs 0)

/-- A number of one format in another. -/
def ieCvt (from_ to_ rm b : Nat) : Nat × Nat :=
  let r := ieRound to_ rm (ieVal from_ b)
  (r.1, r.2 + flagIf 16 (ieSnan from_ b))

/-! ## The 7-bit estimates of V 1.0 -/

/-- A number's exponent field and fraction with a subnormal one's leading zeros taken out. -/
def ieNorm (w b : Nat) : Int × Nat :=
  let man := ieMan w
  let ex := bits b (w - 2) man
  let fr := b % 2 ^ man
  if ex ≠ 0 then (ex, fr)
  else
    let lz := man - 1 - Nat.log2 fr
    (-(lz : Int), (fr <<< (lz + 1)) % 2 ^ man)

/-- The entry of the reciprocal table for the 7 leading fraction bits: 2/x - 1 in 2^-7, to nearest, x in the middle of its
interval. -/
def rec7Entry (i : Nat) : Nat := (2 * (2 * 256 * 128 - 128 * (257 + 2 * i)) + (257 + 2 * i)) / (2 * (257 + 2 * i))

/-- vfrec7. -/
def ieRec7 (w rm b : Nat) : Nat × Nat :=
  let man := ieMan w
  let neg := bitSet b (w - 1)
  match ieVal w b with
  | .nan => (ieNan w, flagIf 16 (ieSnan w b))
  | .inf _ => (ieZero w neg, 0)
  | .fin _ 0 _ => (ieInf w neg, 8)
  | .fin _ _ _ =>
    let x := ieNorm w b
    if x.1 < -1 then (ieInf w neg - (if toMax rm neg then 1 else 0), 5)
    else
      let sig := rec7Entry (x.2 / 2 ^ (man - 7)) * 2 ^ (man - 7)
      let ex : Int := 2 * (ieBias w : Int) - 1 - x.1
      let r := if 0 < ex then ex.toNat * 2 ^ man + sig else (2 ^ man + sig) / 2 ^ (1 - ex).toNat
      (ieZero w neg + r, 0)

/-- The entry of the reciprocal square root table: 2 / sqrt(x) - 1 in 2^-7, to nearest, x in the middle of its interval:
(129 + 2 j) / 128, doubled for an even exponent field. -/
def rsqrt7Entry (even : Bool) (j : Nat) : Nat :=
  let d := (129 + 2 * j) * (if even then 2 else 1)
  ((isqrt (2 ^ 43 / d)) + 2 ^ 9) / 2 ^ 10 - 128

/-- vfrsqrt7. -/
def ieRsqrt7 (w b : Nat) : Nat × Nat :=
  let man := ieMan w
  let neg := bitSet b (w - 1)
  match ieVal w b with
  | .nan => (ieNan w, flagIf 16 (ieSnan w b))
  | .inf n => if n then (ieNan w, 16) else (0, 0)
  | .fin _ 0 _ => (ieInf w neg, 8)
  | .fin n _ _ =>
    if n then (ieNan w, 16)
    else
      let x := ieNorm w b
      let even := x.1 % 2 == 0
      let ex := ((3 * (ieBias w : Int) - 1 - x.1) / 2).toNat
      (ex * 2 ^ man + rsqrt7Entry even (x.2 / 2 ^ (man - 6)) * 2 ^ (man - 7), 0)

/-! ## Instructions of F and D -/

/-- A register's single-precision value: a NaN unless its upper half is all ones. -/
def unboxed (r : Nat) : Nat := if r / 2 ^ 32 = 2 ^ 32 - 1 then r % 2 ^ 32 else ieNan 32

/-- A value of w bits as a register holds it. -/
def boxed (w b : Nat) : Nat := if w = 32 then 0xFFFFFFFF00000000 + b % 2 ^ 32 else b % 2 ^ 64

/-- A fused multiply-add by its major opcode: 0x43, 0x47, 0x4B, 0x4F. -/
def ieMadd (op w rm a b c : Nat) : Nat × Nat :=
  match op with
  | 0x43 => ieFma w rm a b c
  | 0x47 => ieFma w rm a b (ieNeg w c)
  | 0x4B => ieFma w rm (ieNeg w a) b c
  | _ => ieFma w rm (ieNeg w a) b (ieNeg w c)

/-- What an OP-FP instruction writes: a floating-point or an integer register, with its flags. -/
inductive FpOut where
  | freg (w v fl : Nat)
  | xreg (v fl : Nat)
  | bad
  deriving DecidableEq, Repr

/-- An OP-FP instruction by `funct7` without its format bits, of w bits, with the `rs2` field, its `rm` field and the mode
that it rounds by, on floating-point operands a and b and an integer operand x of 64 bits. -/
def fpOp (f5 w rs2 f3 rm a b x : Nat) : FpOut :=
  let fr := fun (r : Nat × Nat) => FpOut.freg w r.1 r.2
  match f5 with
  | 0x00 => fr (ieAdd w rm a b)
  | 0x01 => fr (ieSub w rm a b)
  | 0x02 => fr (ieMul w rm a b)
  | 0x03 => fr (ieDiv w rm a b)
  | 0x0B => if rs2 = 0 then fr (ieSqrt w rm a) else .bad
  | 0x04 => if f3 ≤ 2 then .freg w (ieSgn w f3 a b) 0 else .bad
  | 0x05 => if f3 ≤ 1 then fr (ieMinMax w (f3 == 1) a b) else .bad
  | 0x14 =>
    if 2 < f3 then .bad
    else let r := ieCmp w (2 - f3) a b; .xreg (if r.1 then 1 else 0) r.2
  | 0x18 =>
    if 3 < rs2 then .bad
    else
      let n := if rs2 < 2 then 32 else 64
      let r := ieToInt w rm n (rs2 % 2 == 0) a
      .xreg (toField 64 (asSigned n r.1)) r.2
  | 0x1A =>
    let v : Int := match rs2 with
      | 0 => asSigned 32 (x % 2 ^ 32) | 1 => (x % 2 ^ 32 : Nat) | 2 => asSigned 64 x | _ => (x : Int)
    if 3 < rs2 then .bad else fr (ieOfInt w rm v)
  | 0x1C =>
    if rs2 ≠ 0 then .bad
    else match f3 with
      | 0 => .xreg (toField 64 (asSigned w a)) 0
      | 1 => .xreg (ieClass w a) 0
      | _ => .bad
  | 0x1E => if rs2 = 0 && f3 = 0 then .freg w (x % 2 ^ w) 0 else .bad
  | _ => .bad

end Sys2Proof.Machine
end

