-- ==== Sys2Proof/Machine/RvInt.lean ====
section
/-! DEFINITION. Machine/RvInt.lean: the integer registers of a work core and the integer arithmetic and the compressed
encodings of RV64GC (00 R3; log 10, PRESUMED). -/

namespace Sys2Proof.Machine

/-! ## Registers -/

/-- Integer register r of a core; x0 reads as zero. -/
def xr (v : Core) (r : Nat) : Nat := if r = 0 then 0 else (mget 0 v.regs r : BitVec 64).toNat

/-- Writes integer register r of a core; a write of x0 is discarded. -/
def putXr (v : Core) (r n : Nat) : Core := if r = 0 then v else { v with regs := mset 0 v.regs r (BitVec.ofNat 64 n) }

/-- Sign extension of the low `n` bits to 64. -/
def sext (n v : Nat) : Nat := toField 64 (asSigned n (v % 2 ^ n))

/-- A field of `n` bytes at a byte offset of a number. -/
def byteField (v off n : Nat) : Nat := (v >>> (8 * off)) % 2 ^ (8 * n)

/-- A number with `n` bytes at a byte offset replaced. -/
def putByteField (v off n x : Nat) : Nat := v - byteField v off n * 2 ^ (8 * off) + x % 2 ^ (8 * n) * 2 ^ (8 * off)

/-! ## RISC-V arithmetic (log 10, PRESUMED) -/

/-- Fields of a 32-bit instruction. -/
def rvOp (i : Nat) : Nat := bits i 6 0
/-- Destination register. -/
def rvRd (i : Nat) : Nat := bits i 11 7
/-- `funct3`. -/
def rvF3 (i : Nat) : Nat := bits i 14 12
/-- First source register. -/
def rvRs1 (i : Nat) : Nat := bits i 19 15
/-- Second source register. -/
def rvRs2 (i : Nat) : Nat := bits i 24 20
/-- `funct7`. -/
def rvF7 (i : Nat) : Nat := bits i 31 25
/-- I-type immediate, sign-extended. -/
def immI (i : Nat) : Nat := sext 12 (bits i 31 20)
/-- S-type immediate. -/
def immS (i : Nat) : Nat := sext 12 (bits i 31 25 * 32 + bits i 11 7)
/-- B-type immediate. -/
def immB (i : Nat) : Nat := sext 13 (bits i 31 31 * 4096 + bits i 7 7 * 2048 + bits i 30 25 * 32 + bits i 11 8 * 2)
/-- U-type immediate. -/
def immU (i : Nat) : Nat := sext 32 (bits i 31 12 * 4096)
/-- J-type immediate. -/
def immJ (i : Nat) : Nat :=
  sext 21 (bits i 31 31 * 1048576 + bits i 19 12 * 4096 + bits i 20 20 * 2048 + bits i 30 21 * 2)

/-- A 64-bit sum. -/
def add64 (a b : Nat) : Nat := (a + b) % 2 ^ 64

/-- An integer operation of `w` bits by `funct3`; `alt` selects SUB and SRA. -/
def rvAlu (w f3 : Nat) (alt : Bool) (a b : Nat) : Nat :=
  let sh := b % w; let m := 2 ^ w
  let a := a % m; let b := b % m
  match f3 with
  | 0 => if alt then (a + m - b) % m else (a + b) % m
  | 1 => (a <<< sh) % m
  | 2 => if asSigned w a < asSigned w b then 1 else 0
  | 3 => if a < b then 1 else 0
  | 4 => a ^^^ b
  | 5 => if alt then toField w (asSigned w a / (2 ^ sh : Nat)) else a >>> sh
  | 6 => a ||| b
  | _ => a &&& b

/-- A multiplication or division of `w` bits by `funct3`, with the results that the M extension gives a zero divisor and
the overflow. -/
def rvMul (w f3 a b : Nat) : Nat :=
  let m := 2 ^ w
  let a := a % m; let b := b % m
  let sa := asSigned w a; let sb := asSigned w b
  match f3 with
  | 0 => a * b % m
  | 1 => toField w (sa * sb / (m : Nat))
  | 2 => toField w (sa * (b : Int) / (m : Nat))
  | 3 => a * b / m
  | 4 => if b = 0 then m - 1 else toField w (Int.tdiv sa sb)
  | 5 => if b = 0 then m - 1 else a / b
  | 6 => if b = 0 then a else toField w (Int.tmod sa sb)
  | _ => if b = 0 then a else a % b

/-- A branch is taken; none for a reserved `funct3`. -/
def rvTaken (f3 a b : Nat) : Option Bool :=
  match f3 with
  | 0 => some (a == b) | 1 => some (a != b)
  | 4 => some (decide (asSigned 64 a < asSigned 64 b)) | 5 => some (decide (asSigned 64 b ≤ asSigned 64 a))
  | 6 => some (decide (a < b)) | 7 => some (decide (b ≤ a))
  | _ => none

/-- The value that an atomic operation stores. -/
def rvAmo (w op old x : Nat) : Option Nat :=
  let m := 2 ^ w
  let x := x % m
  match op with
  | 0x01 => some x | 0x00 => some ((old + x) % m) | 0x04 => some (old ^^^ x) | 0x0C => some (old &&& x)
  | 0x08 => some (old ||| x)
  | 0x10 => some (if asSigned w x < asSigned w old then x else old)
  | 0x14 => some (if asSigned w old < asSigned w x then x else old)
  | 0x18 => some (min old x) | 0x1C => some (max old x)
  | _ => none

/-! ## Compressed instructions -/

/-- Words of the base formats. -/
def encI (op f3 rd rs1 imm : Nat) : Nat := op + rd * 128 + f3 * 4096 + rs1 * 32768 + imm % 4096 * 1048576
/-- R-type word. -/
def encR (op f3 f7 rd rs1 rs2 : Nat) : Nat := op + rd * 128 + f3 * 4096 + rs1 * 32768 + rs2 * 1048576 + f7 * 33554432
/-- S-type word. -/
def encS (f3 rs1 rs2 imm : Nat) : Nat :=
  0x23 + imm % 32 * 128 + f3 * 4096 + rs1 * 32768 + rs2 * 1048576 + imm / 32 % 128 * 33554432
/-- B-type word. -/
def encB (f3 rs1 rs2 imm : Nat) : Nat :=
  0x63 + (imm / 2048 % 2 + imm / 2 % 16 * 2) * 128 + f3 * 4096 + rs1 * 32768 + rs2 * 1048576 +
    (imm / 32 % 64 + imm / 4096 % 2 * 64) * 33554432
/-- JAL word. -/
def encJ (rd imm : Nat) : Nat :=
  0x6F + rd * 128 + imm / 4096 % 256 * 4096 + imm / 2048 % 2 * 1048576 + imm / 2 % 1024 * 2097152 + imm / 1048576 % 2 * 2 ^ 31

/-- The 6-bit immediate of CI and CB forms, sign-extended. -/
def immC (h : Nat) : Nat := sext 6 (bits h 12 12 * 32 + bits h 6 2)

/-- A compressed instruction of quadrant 0. -/
def expand0 (h : Nat) : Option Nat :=
  let rd := 8 + bits h 4 2; let rs := 8 + bits h 9 7
  let w := bits h 12 10 * 8 + bits h 6 6 * 4 + bits h 5 5 * 64
  let d := bits h 12 10 * 8 + bits h 6 5 * 64
  match bits h 15 13 with
  | 0 =>
    let n := bits h 12 11 * 16 + bits h 10 7 * 64 + bits h 6 6 * 4 + bits h 5 5 * 8
    if n = 0 then none else some (encI 0x13 0 rd 2 n)
  | 1 => some (encI 0x07 3 rd rs d)
  | 2 => some (encI 0x03 2 rd rs w)
  | 3 => some (encI 0x03 3 rd rs d)
  | 5 => some (encS 3 rs rd d + 4)
  | 6 => some (encS 2 rs rd w)
  | 7 => some (encS 3 rs rd d)
  | _ => none

/-- A compressed instruction of quadrant 1. -/
def expand1 (h : Nat) : Option Nat :=
  let r := bits h 11 7; let rp := 8 + bits h 9 7; let rq := 8 + bits h 4 2
  let j := bits h 12 12 * 2048 + bits h 8 8 * 1024 + bits h 10 9 * 256 + bits h 6 6 * 128 + bits h 7 7 * 64 +
    bits h 2 2 * 32 + bits h 11 11 * 16 + bits h 5 3 * 2
  let b := bits h 12 12 * 256 + bits h 6 5 * 64 + bits h 2 2 * 32 + bits h 11 10 * 8 + bits h 4 3 * 2
  match bits h 15 13 with
  | 0 => some (encI 0x13 0 r r (immC h))
  | 1 => if r = 0 then none else some (encI 0x1B 0 r r (immC h))
  | 2 => some (encI 0x13 0 r 0 (immC h))
  | 3 =>
    if bits h 12 12 = 0 && bits h 6 2 = 0 then none
    else if r = 2 then
      some (encI 0x13 0 2 2 (sext 10 (bits h 12 12 * 512 + bits h 6 6 * 16 + bits h 5 5 * 64 + bits h 4 3 * 128 + bits h 2 2 * 32)))
    else some (0x37 + r * 128 + immC h % 2 ^ 20 * 4096)
  | 4 =>
    let sh := bits h 12 12 * 32 + bits h 6 2
    match bits h 11 10, bits h 12 12, bits h 6 5 with
    | 0, _, _ => some (encI 0x13 5 rp rp sh)
    | 1, _, _ => some (encI 0x13 5 rp rp (sh + 0x400))
    | 2, _, _ => some (encI 0x13 7 rp rp (immC h))
    | 3, 0, 0 => some (encR 0x33 0 0x20 rp rp rq)
    | 3, 0, 1 => some (encR 0x33 4 0 rp rp rq)
    | 3, 0, 2 => some (encR 0x33 6 0 rp rp rq)
    | 3, 0, 3 => some (encR 0x33 7 0 rp rp rq)
    | 3, 1, 0 => some (encR 0x3B 0 0x20 rp rp rq)
    | 3, 1, 1 => some (encR 0x3B 0 0 rp rp rq)
    | _, _, _ => none
  | 5 => some (encJ 0 (sext 12 j))
  | 6 => some (encB 0 rp 0 (sext 9 b))
  | _ => some (encB 1 rp 0 (sext 9 b))

/-- A compressed instruction of quadrant 2. -/
def expand2 (h : Nat) : Option Nat :=
  let r := bits h 11 7; let q := bits h 6 2
  let sh := bits h 12 12 * 32 + bits h 6 2
  let w := bits h 12 12 * 32 + bits h 6 4 * 4 + bits h 3 2 * 64
  let d := bits h 12 12 * 32 + bits h 6 5 * 8 + bits h 4 2 * 64
  match bits h 15 13 with
  | 0 => some (encI 0x13 1 r r sh)
  | 1 => some (encI 0x07 3 r 2 d)
  | 2 => if r = 0 then none else some (encI 0x03 2 r 2 w)
  | 3 => if r = 0 then none else some (encI 0x03 3 r 2 d)
  | 4 =>
    if bits h 12 12 = 0 then
      if q = 0 then (if r = 0 then none else some (encI 0x67 0 0 r 0)) else some (encR 0x33 0 0 r 0 q)
    else if q = 0 then (if r = 0 then some 0x00100073 else some (encI 0x67 0 1 r 0))
    else some (encR 0x33 0 0 r r q)
  | 5 => some (encS 3 2 q (bits h 12 10 * 8 + bits h 9 7 * 64) + 4)
  | 6 => some (encS 2 2 q (bits h 12 9 * 4 + bits h 8 7 * 64))
  | _ => some (encS 3 2 q (bits h 12 10 * 8 + bits h 9 7 * 64))

/-- The 32-bit instruction that a compressed one stands for; none for an illegal one. -/
def expand (h : Nat) : Option Nat :=
  match bits h 1 0 with
  | 0 => expand0 h
  | 1 => expand1 h
  | _ => expand2 h

end Sys2Proof.Machine
end

