-- ==== Sys2Proof/Machine/RvVec.lean ====
section
/-! DEFINITION. Machine/RvVec.lean: the vector extension 1.0 of a work core (00 R3; log 10, PRESUMED): VLEN and ELEN of 512
and 64 bits, masked-off and tail elements undisturbed, sums of an unordered reduction in element order. An instruction that
the extension reserves is illegal. -/

namespace Sys2Proof.Machine

/-! ## Vector type, registers, elements -/

/-- Bits of the selected element. -/
def rvvSew (v : Core) : Nat := 8 * 2 ^ bits v.vtype 5 3

/-- Eighths of a register in a group. -/
def rvvEighths (v : Core) : Nat := match bits v.vtype 2 0 with | 0 => 8 | 1 => 16 | 2 => 32 | 3 => 64 | 5 => 1 | 6 => 2 | _ => 4

/-- Elements of a vector register group by a `vtype`; 0 for one that is not supported. -/
def rvvLMax (vt : Nat) : Nat :=
  let sew := 8 * 2 ^ bits vt 5 3
  let n := match bits vt 2 0 with
    | 0 => 512 | 1 => 1024 | 2 => 2048 | 3 => 4096 | 5 => 64 | 6 => 128 | 7 => 256 | _ => 0
  if 3 < bits vt 5 3 || vt / 256 ≠ 0 || n < 8 * sew then 0 else n / sew

/-- A vector register. -/
def rvvReg (v : Core) (r : Nat) : Nat := (mget 0 v.vregs (r % 32) : BitVec 512).toNat

/-- Element k of `n` bytes of the register group at r. -/
def rvvElem (v : Core) (r n k : Nat) : Nat := byteField (rvvReg v (r + k * n / 64)) (k * n % 64) n

/-- Writes element k of `n` bytes of the register group at r. -/
def putVElem (v : Core) (r n k x : Nat) : Core :=
  let j := (r + k * n / 64) % 32
  { v with vregs := mset 0 v.vregs j (BitVec.ofNat 512 (putByteField (rvvReg v j) (k * n % 64) n x)) }

/-- Bit k of a mask register. -/
def rvvBit (v : Core) (r k : Nat) : Bool := bitSet (rvvReg v r) k

/-- Writes bit k of a mask register. -/
def putVBit (v : Core) (r k : Nat) (b : Bool) : Core :=
  let x := rvvReg v r
  let y := (if bitSet x k then x - 2 ^ k else x) + (if b then 2 ^ k else 0)
  { v with vregs := mset 0 v.vregs (r % 32) (BitVec.ofNat 512 y) }

/-- The instruction is not masked. -/
def rvvAll (i : Nat) : Bool := bits i 25 25 == 1

/-- Element k is active. -/
def rvvOn (v : Core) (i k : Nat) : Bool := rvvAll i || rvvBit v 0 k

/-- The body elements, from `vstart` on. -/
def rvvBody (v : Core) : List Nat := upFrom v.vstart (v.vl - v.vstart)

/-- The active body elements. -/
def rvvActive (v : Core) (i : Nat) : List Nat := (rvvBody v).filter (rvvOn v i)

/-- Registers of a group of elements of w bits. -/
def rvvRegs (v : Core) (w : Nat) : Nat := max 1 (rvvEighths v * w / rvvSew v / 8)

/-- Elements of w bits in a group at register r are supported. -/
def rvvFits (v : Core) (w r : Nat) : Bool :=
  let e := rvvEighths v * w / rvvSew v
  8 ≤ w && w ≤ 64 && 1 ≤ e && e ≤ 64 && r % rvvRegs v w == 0 && r + rvvRegs v w ≤ 32

/-- Two groups share no register. -/
def rvvDisjoint (v : Core) (dw d sw s : Nat) : Bool := d + rvvRegs v dw ≤ s || s + rvvRegs v sw ≤ d

/-- A destination group may lie where a source group lies: they do not meet, have one element width, or meet where the
extension allows it. -/
def rvvMayMeet (v : Core) (dw d sw s : Nat) : Bool :=
  rvvDisjoint v dw d sw s || dw == sw || (decide (dw < sw) && d == s) ||
    (decide (sw < dw) && 8 ≤ rvvEighths v * sw / rvvSew v && d + rvvRegs v dw == s + rvvRegs v sw)

/-- A source group of w bits at r for a destination; width 0 stands for no source. -/
def rvvSource (v : Core) (dw d w r : Nat) : Bool := w == 0 || (rvvFits v w r && rvvMayMeet v dw d w r)

/-- A destination group; a masked one is not register 0. -/
def rvvDest (v : Core) (i w : Nat) : Bool := rvvFits v w (rvRd i) && (rvvAll i || rvRd i != 0)

/-- The instruction ends: `vstart` is zero. -/
def rvvEnd (v : Core) : Core := { v with vstart := 0 }

/-- Flags that an instruction sets: of the floating-point kind, or the saturation flag. -/
def rvvFlags (fp : Bool) (fl : Nat) (v : Core) : Core :=
  if fp then { v with fcsr := v.fcsr ||| fl } else { v with vcsr := v.vcsr ||| fl }

/-- The elements of a list written to the group at r, with their flags. -/
def rvvWrite (v : Core) (fp : Bool) (r n : Nat) (es : List (Nat × Nat × Nat)) : Core :=
  rvvEnd (es.foldl (fun v e => rvvFlags fp e.2.2 (putVElem v r n e.1 e.2.1)) v)

/-! ## Operands -/

/-- What an element operation does: elements of vs2, of vs1 or the scalar, and of vd, to a value and flags. -/
abbrev RvvFn := Nat → Nat → Nat → Nat × Nat

/-- The scalar of an instruction: an immediate, an integer register, a floating-point register. -/
def rvvScalar (v : Core) (i w : Nat) : Option Nat :=
  match rvF3 i with
  | 3 => some (if (bits i 31 26 / 4) == 9 || (bits i 31 26) ≥ 0x28 || (bits i 31 26) / 4 == 3 then rvRs1 i
      else toField w (asSigned 5 (rvRs1 i)))
  | 4 | 6 => some (xr v (rvRs1 i) % 2 ^ w)
  | 5 =>
    let r := (mget 0 v.fregs (rvRs1 i) : BitVec 64).toNat
    some (if w = 32 then unboxed r else r)
  | _ => none

/-- An operation on every active element: widths of vd, vs2, vs1. -/
def rvvEach (v : Core) (i : Nat) (fp : Bool) (dw aw bw : Nat) (x : Option Nat) (f : RvvFn) : Option Core :=
  let d := rvRd i
  let bw' := if x.isSome then 0 else bw
  if rvvDest v i dw && rvvSource v dw d aw (rvRs2 i) && rvvSource v dw d bw' (rvRs1 i) then
    some (rvvWrite v fp d (dw / 8) ((rvvActive v i).map (fun k =>
      (k, f (rvvElem v (rvRs2 i) (aw / 8) k) (x.getD (rvvElem v (rvRs1 i) (bw / 8) k)) (rvvElem v d (dw / 8) k)))))
  else none

/-- Elements placed by a function of their number. -/
def rvvPlace (v : Core) (i w : Nat) (ks : List Nat) (f : Nat → Nat) : Option Core :=
  if rvvDest v i w then some (rvvWrite v false (rvRd i) (w / 8) (ks.map (fun k => (k, f k, 0)))) else none

/-- A mask made of the elements of vs2 and of vs1 or the scalar, w bits wide. -/
def rvvToMask (v : Core) (i : Nat) (fp : Bool) (w : Nat) (x : Option Nat) (ks : List Nat)
    (f : Nat → Nat → Nat → Bool × Nat) : Option Core :=
  let ok := fun r => rvvFits v w r && (rvRd i < r || r + rvvRegs v w ≤ rvRd i || rvRd i == r)
  if ok (rvRs2 i) && (x.isSome || ok (rvRs1 i)) then
    let r := ks.map (fun k => (k, f k (rvvElem v (rvRs2 i) (w / 8) k) (x.getD (rvvElem v (rvRs1 i) (w / 8) k))))
    some (rvvEnd (r.foldl (fun u e => rvvFlags fp e.2.2 (putVBit u (rvRd i) e.1 e.2.1)) v))
  else none

/-! ## Integer arithmetic -/

/-- A shift to the right with the rounding of `vxrm`. -/
def rvvRound (rm d : Nat) (x : Int) : Int :=
  let q := x / (2 ^ d : Nat)
  let r := (x - q * (2 ^ d : Nat)).toNat
  q + (match rm with
    | 0 => if 2 ^ d ≤ 2 * r && d != 0 then 1 else 0
    | 1 => if decide (2 ^ d < 2 * r) || (2 * r == 2 ^ d && q % 2 == 1) then 1 else 0
    | 2 => 0
    | _ => if q % 2 == 0 && r != 0 then 1 else 0)

/-- A value held within limits; the flag says that it was not within them. -/
def rvvClip (w : Nat) (lo hi x : Int) : Nat × Nat :=
  if x < lo then (toField w lo, 1) else if hi < x then (toField w hi, 1) else (toField w x, 0)

/-- Saturation to an integer of w bits. -/
def rvvSat (w : Nat) (signed : Bool) (x : Int) : Nat × Nat :=
  if signed then rvvClip w (-(2 ^ (w - 1) : Nat)) ((2 ^ (w - 1) : Nat) - 1) x else rvvClip w 0 ((2 ^ w : Nat) - 1) x

/-- An element as an integer. -/
def rvvInt (signed : Bool) (w x : Nat) : Int := if signed then asSigned w x else (x : Int)

/-- Element operations of OPIVV, OPIVX, OPIVI of one width. -/
def rvvOpI (f6 f3 w rm : Nat) : Option RvvFn :=
  let sg := asSigned w
  let just := fun (g : Nat → Nat → Nat) => (some (fun a b _ => (g a b % 2 ^ w, 0)) : Option RvvFn)
  let vv := f3 == 0; let vi := f3 == 3
  match f6 with
  | 0x00 => just (fun a b => a + b)
  | 0x02 => if vi then none else just (fun a b => a + 2 ^ w - b)
  | 0x03 => if vv then none else just (fun a b => b + 2 ^ w - a)
  | 0x04 => if vi then none else just min
  | 0x05 => if vi then none else just (fun a b => if sg b < sg a then b else a)
  | 0x06 => if vi then none else just max
  | 0x07 => if vi then none else just (fun a b => if sg a < sg b then b else a)
  | 0x09 => just (· &&& ·)
  | 0x0A => just (· ||| ·)
  | 0x0B => just (· ^^^ ·)
  | 0x20 => some (fun a b _ => rvvSat w false (a + b))
  | 0x21 => some (fun a b _ => rvvSat w true (sg a + sg b))
  | 0x22 => if vi then none else some (fun a b _ => rvvSat w false ((a : Int) - b))
  | 0x23 => if vi then none else some (fun a b _ => rvvSat w true (sg a - sg b))
  | 0x25 => just (fun a b => a <<< (b % w))
  | 0x27 => if vi then none else some (fun a b _ => rvvSat w true (rvvRound rm (w - 1) (sg a * sg b)))
  | 0x28 => just (fun a b => a >>> (b % w))
  | 0x29 => just (fun a b => toField w (sg a / (2 ^ (b % w) : Nat)))
  | 0x2A => just (fun a b => toField w (rvvRound rm (b % w) a))
  | 0x2B => just (fun a b => toField w (rvvRound rm (b % w) (sg a)))
  | _ => none

/-- Element operations of OPMVV and OPMVX of one width. -/
def rvvOpM (f6 w rm : Nat) : Option RvvFn :=
  let sg := asSigned w
  let just := fun (g : Nat → Nat → Nat) => (some (fun a b _ => (g a b % 2 ^ w, 0)) : Option RvvFn)
  let acc := fun (g : Nat → Nat → Nat → Nat) => (some (fun a b d => (g a b d % 2 ^ w, 0)) : Option RvvFn)
  match f6 with
  | 0x08 => just (fun a b => toField w (rvvRound rm 1 ((a : Int) + b)))
  | 0x09 => just (fun a b => toField w (rvvRound rm 1 (sg a + sg b)))
  | 0x0A => just (fun a b => toField w (rvvRound rm 1 ((a : Int) - b)))
  | 0x0B => just (fun a b => toField w (rvvRound rm 1 (sg a - sg b)))
  | 0x20 => just (rvMul w 5)
  | 0x21 => just (rvMul w 4)
  | 0x22 => just (rvMul w 7)
  | 0x23 => just (rvMul w 6)
  | 0x24 => just (rvMul w 3)
  | 0x25 => just (rvMul w 0)
  | 0x26 => just (rvMul w 2)
  | 0x27 => just (rvMul w 1)
  | 0x29 => acc (fun a b d => b * d + a)
  | 0x2B => acc (fun a b d => toField w ((a : Int) - b * d))
  | 0x2D => acc (fun a b d => b * a + d)
  | 0x2F => acc (fun a b d => toField w ((d : Int) - b * a))
  | _ => none

/-- Widening operations of OPMVV and OPMVX: whether vs2 is already wide, and the operation. -/
def rvvOpWide (f6 f3 w : Nat) : Option (Bool × RvvFn) :=
  let go := fun (wide sa sb : Bool) (g : Int → Int → Int → Int) =>
    (some (wide, fun a b d => (toField (2 * w) (g (rvvInt sa (if wide then 2 * w else w) a) (rvvInt sb w b) d), 0)) :
      Option (Bool × RvvFn))
  let sg := f6 % 2 == 1
  match f6 with
  | 0x30 | 0x31 => go false sg sg (fun a b _ => a + b)
  | 0x32 | 0x33 => go false sg sg (fun a b _ => a - b)
  | 0x34 | 0x35 => go true sg sg (fun a b _ => a + b)
  | 0x36 | 0x37 => go true sg sg (fun a b _ => a - b)
  | 0x38 => go false false false (fun a b _ => a * b)
  | 0x3A => go false true false (fun a b _ => a * b)
  | 0x3B => go false true true (fun a b _ => a * b)
  | 0x3C => go false false false (fun a b d => a * b + d)
  | 0x3D => go false true true (fun a b d => a * b + d)
  | 0x3E => if f3 = 2 then none else go false true false (fun a b d => a * b + d)
  | 0x3F => go false false true (fun a b d => a * b + d)
  | _ => none

/-- Narrowing shifts and clips of OPIVV, OPIVX, OPIVI. -/
def rvvOpNarrow (f6 w rm : Nat) : Option RvvFn :=
  let sg := asSigned (2 * w)
  match f6 with
  | 0x2C => some (fun a b _ => (a >>> (b % (2 * w)) % 2 ^ w, 0))
  | 0x2D => some (fun a b _ => (toField w (sg a / (2 ^ (b % (2 * w)) : Nat)), 0))
  | 0x2E => some (fun a b _ => rvvSat w false (rvvRound rm (b % (2 * w)) a))
  | 0x2F => some (fun a b _ => rvvSat w true (rvvRound rm (b % (2 * w)) (sg a)))
  | _ => none

/-- Comparisons of OPIVV, OPIVX, OPIVI. -/
def rvvOpCmp (f6 f3 w : Nat) : Option (Nat → Nat → Bool) :=
  let sg := asSigned w
  match f6 with
  | 0x18 => some (· == ·)
  | 0x19 => some (· != ·)
  | 0x1A => if f3 = 3 then none else some (fun a b => decide (a < b))
  | 0x1B => if f3 = 3 then none else some (fun a b => decide (sg a < sg b))
  | 0x1C => some (fun a b => decide (a ≤ b))
  | 0x1D => some (fun a b => decide (sg a ≤ sg b))
  | 0x1E => if f3 = 0 then none else some (fun a b => decide (b < a))
  | 0x1F => if f3 = 0 then none else some (fun a b => decide (sg b < sg a))
  | _ => none

/-! ## Permutations and masks -/

/-- VSLIDEUP, VSLIDEDOWN by an offset. -/
def rvvSlide (v : Core) (i : Nat) (up : Bool) (off : Nat) : Option Core :=
  let w := rvvSew v; let a := rvRs2 i
  if !rvvFits v w a || (up && rvRd i == a) then none
  else if up then rvvPlace v i w ((rvvActive v i).filter (fun k => off ≤ k)) (fun k => rvvElem v a (w / 8) (k - off))
  else rvvPlace v i w (rvvActive v i) (fun k => if k + off < rvvLMax v.vtype then rvvElem v a (w / 8) (k + off) else 0)

/-- VSLIDE1UP, VSLIDE1DOWN and their floating-point forms, which take in a scalar. -/
def rvvSlide1 (v : Core) (i : Nat) (up : Bool) (x : Nat) : Option Core :=
  let w := rvvSew v; let a := rvRs2 i
  if !rvvFits v w a || (up && rvRd i == a) then none
  else rvvPlace v i w (rvvActive v i) (fun k =>
    if up then (if k = 0 then x else rvvElem v a (w / 8) (k - 1))
    else if k + 1 = v.vl then x else rvvElem v a (w / 8) (k + 1))

/-- VRGATHER: the elements of vs2 that indices name, 0 beyond the group; indices of iw bits, or one. -/
def rvvGather (v : Core) (i iw : Nat) (x : Option Nat) : Option Core :=
  let w := rvvSew v; let a := rvRs2 i; let d := rvRd i
  let idxOk := x.isSome || (rvvFits v iw (rvRs1 i) && rvvDisjoint v w d iw (rvRs1 i))
  if !rvvFits v w a || d == a || !idxOk then none
  else rvvPlace v i w (rvvActive v i) (fun k =>
    let j := x.getD (rvvElem v (rvRs1 i) (iw / 8) k)
    if j < rvvLMax v.vtype then rvvElem v a (w / 8) j else 0)

/-- VCOMPRESS: the elements of vs2 that a mask names, packed from element 0. -/
def rvvCompress (v : Core) (i : Nat) : Option Core :=
  let w := rvvSew v; let a := rvRs2 i; let d := rvRd i
  let ks := (upFrom 0 v.vl).filter (rvvBit v (rvRs1 i))
  if !rvvAll i || v.vstart ≠ 0 || !rvvFits v w a || d == a || (d ≤ rvRs1 i && rvRs1 i < d + rvvRegs v w) then none
  else rvvPlace v i w (upFrom 0 ks.length) (fun k => rvvElem v a (w / 8) (ks.getD k 0))

/-- VMERGE and VMV.V: a masked one takes vs2 where the mask is clear. -/
def rvvMerge (v : Core) (i w : Nat) (x : Option Nat) : Option Core :=
  let n := w / 8
  let b := fun k => x.getD (rvvElem v (rvRs1 i) n k)
  if !rvvFits v w (rvRs2 i) || (x.isNone && !rvvFits v w (rvRs1 i)) || (rvvAll i && rvRs2 i != 0) then none
  else rvvPlace v i w (rvvBody v) (fun k => if rvvAll i || rvvBit v 0 k then b k else rvvElem v (rvRs2 i) n k)

/-- Whole registers moved. -/
def rvvMoveRegs (v : Core) (i : Nat) : Option Core :=
  let n := rvRs1 i + 1; let w := rvvSew v
  if !rvvAll i || (n ≠ 1 && n ≠ 2 && n ≠ 4 && n ≠ 8) || rvRd i % n ≠ 0 || rvRs2 i % n ≠ 0 then none
  else some (rvvWrite v false (rvRd i) (w / 8)
    ((upFrom v.vstart (n * 512 / w - v.vstart)).map (fun k => (k, rvvElem v (rvRs2 i) (w / 8) k, 0))))

/-- A logical operation of two mask registers. -/
def rvvMaskFn (f6 : Nat) (a b : Bool) : Bool :=
  match f6 with
  | 0x18 => a && !b | 0x19 => a && b | 0x1A => a || b | 0x1B => a != b
  | 0x1C => a || !b | 0x1D => !(a && b) | 0x1E => !(a || b) | _ => a == b

/-- Mask registers combined. -/
def rvvMaskOp (v : Core) (i : Nat) : Option Core :=
  if !rvvAll i then none
  else
    let es := (rvvBody v).map (fun k => (k, rvvMaskFn (bits i 31 26) (rvvBit v (rvRs2 i) k) (rvvBit v (rvRs1 i) k)))
    some (rvvEnd (es.foldl (fun u e => putVBit u (rvRd i) e.1 e.2) v))

/-- VMSBF, VMSOF, VMSIF: before, at, up to the first active element whose bit is set; VIOTA and VID. -/
def rvvMaskUnary (v : Core) (i : Nat) : Option Core :=
  let a := rvRs2 i; let d := rvRd i; let w := rvvSew v
  let ks := rvvActive v i
  let first := (ks.find? (rvvBit v a)).getD v.vl
  let set := fun (f : Nat → Bool) =>
    if v.vstart ≠ 0 || d == a || (!rvvAll i && d == 0) then none
    else some (rvvEnd (ks.foldl (fun u k => putVBit u d k (f k)) v))
  match rvRs1 i with
  | 1 => set (fun k => decide (k < first))
  | 2 => set (fun k => k == first)
  | 3 => set (fun k => decide (k ≤ first))
  | 16 =>
    if v.vstart ≠ 0 || (d ≤ a && a < d + rvvRegs v w) then none
    else rvvPlace v i w ks (fun k => ((ks.filter (fun j => decide (j < k) && rvvBit v a j)).length) % 2 ^ w)
  | 17 => if a ≠ 0 then none else rvvPlace v i w ks (fun k => k % 2 ^ w)
  | _ => none

/-- VMV.X.S, VCPOP, VFIRST. -/
def rvvToX (v : Core) (i : Nat) : Option Core :=
  let w := rvvSew v; let a := rvRs2 i
  match rvRs1 i with
  | 0 => if rvvAll i then some (rvvEnd (putXr v (rvRd i) (sext w (rvvElem v a (w / 8) 0)))) else none
  | 16 => if v.vstart ≠ 0 then none else some (rvvEnd (putXr v (rvRd i) (((rvvActive v i).filter (rvvBit v a)).length)))
  | 17 =>
    if v.vstart ≠ 0 then none
    else some (rvvEnd (putXr v (rvRd i) (((rvvActive v i).find? (rvvBit v a)).getD (2 ^ 64 - 1))))
  | _ => none

/-- A scalar into element 0. -/
def rvvFromScalar (v : Core) (i w x : Nat) : Option Core :=
  if rvRs2 i ≠ 0 || !rvvAll i then none
  else some (rvvEnd (if v.vstart < v.vl then putVElem v (rvRd i) (w / 8) 0 x else v))

/-- A reduction: vs1's element 0, of width dw, and the active elements of vs2, of width w. -/
def rvvReduce (v : Core) (i : Nat) (fp : Bool) (dw w : Nat) (f : Nat → Nat → Nat × Nat) : Option Core :=
  if v.vstart ≠ 0 || 64 < dw || !rvvFits v w (rvRs2 i) then none
  else if v.vl = 0 then some v
  else
    let r := (rvvActive v i).foldl
      (fun (r : Nat × Nat) k => let x := f r.1 (rvvElem v (rvRs2 i) (w / 8) k); (x.1, r.2 ||| x.2))
      (rvvElem v (rvRs1 i) (dw / 8) 0, 0)
    some (rvvWrite v fp (rvRd i) (dw / 8) [(0, r.1, r.2)])

/-- The operation of an integer reduction of one width. -/
def rvvRedFn (f6 w a b : Nat) : Nat :=
  let sg := asSigned w
  match f6 with
  | 0 => (a + b) % 2 ^ w | 1 => a &&& b | 2 => a ||| b | 3 => a ^^^ b
  | 4 => min a b | 5 => if sg b < sg a then b else a | 6 => max a b | _ => if sg a < sg b then b else a

/-- The extensions by which the element of vs2 is narrower: VZEXT and VSEXT. -/
def rvvExtend (v : Core) (i : Nat) : Option Core :=
  let w := rvvSew v
  let d := match rvRs1 i with | 2 | 3 => 8 | 4 | 5 => 4 | 6 | 7 => 2 | _ => 0
  if d = 0 then none
  else
    let aw := w / d
    if aw < 8 then none
    else rvvEach v i false w aw 0 none (fun a _ _ => (if rvRs1 i % 2 = 1 then toField w (asSigned aw a) else a, 0))

/-! ## Integer instructions -/

/-- OPIVV, OPIVX, OPIVI. -/
def rvvExecI (v : Core) (i : Nat) : Option Core :=
  let f6 := bits i 31 26; let f3 := rvF3 i
  let w := rvvSew v; let x := rvvScalar v i w; let rm := v.vcsr / 2 % 4
  let off := if f3 = 3 then rvRs1 i else xr v (rvRs1 i)
  let carry := fun k => if rvvBit v 0 k then 1 else 0
  let cin := fun k => if rvvAll i then 0 else carry k
  match f6 with
  | 0x0C => rvvGather v i w (x.map (fun _ => off))
  | 0x0E => if f3 = 0 then rvvGather v i 16 none else rvvSlide v i true off
  | 0x0F => if f3 = 0 then none else rvvSlide v i false off
  | 0x10 | 0x12 =>
    let sub := f6 == 0x12
    if rvvAll i || (sub && f3 == 3) || !rvvFits v w (rvRs2 i) || (x.isNone && !rvvFits v w (rvRs1 i)) then none
    else rvvPlace v i w (rvvBody v) (fun k =>
      let a := rvvElem v (rvRs2 i) (w / 8) k; let b := x.getD (rvvElem v (rvRs1 i) (w / 8) k)
      (if sub then a + 2 ^ (w + 1) - b - carry k else a + b + carry k) % 2 ^ w)
  | 0x11 => rvvToMask v i false w x (rvvBody v) (fun k a b => (decide (2 ^ w ≤ a + b + cin k), 0))
  | 0x13 => if f3 = 3 then none else rvvToMask v i false w x (rvvBody v) (fun k a b => (decide (a < b + cin k), 0))
  | 0x17 => rvvMerge v i w x
  | 0x30 | 0x31 =>
    if f3 ≠ 0 then none
    else rvvReduce v i false (2 * w) w (fun a b => (toField (2 * w) ((a : Int) + rvvInt (f6 == 0x31) w b), 0))
  | _ =>
    if f6 = 0x27 && f3 = 3 then rvvMoveRegs v i
    else match rvvOpCmp f6 f3 w with
      | some g => rvvToMask v i false w x (rvvActive v i) (fun _ a b => (g a b, 0))
      | none =>
        match rvvOpNarrow f6 w rm with
        | some f => rvvEach v i false w (2 * w) w x f
        | none => match rvvOpI f6 f3 w rm with
          | some f => rvvEach v i false w w w x f
          | none => none

/-- OPMVV, OPMVX. -/
def rvvExecM (v : Core) (i : Nat) : Option Core :=
  let f6 := bits i 31 26; let vv := rvF3 i == 2
  let w := rvvSew v; let x := rvvScalar v i w
  if f6 < 8 then (if vv then rvvReduce v i false w w (fun a b => (rvvRedFn f6 w a b, 0)) else none)
  else if f6 = 0x0E || f6 = 0x0F then (if vv then none else rvvSlide1 v i (f6 == 0x0E) (x.getD 0))
  else if f6 = 0x10 then (if vv then rvvToX v i else rvvFromScalar v i w (x.getD 0))
  else if f6 = 0x12 then (if vv then rvvExtend v i else none)
  else if f6 = 0x14 then (if vv then rvvMaskUnary v i else none)
  else if f6 = 0x17 then (if vv then rvvCompress v i else none)
  else if 0x18 ≤ f6 && f6 ≤ 0x1F then (if vv then rvvMaskOp v i else none)
  else match rvvOpWide f6 (rvF3 i) w with
    | some (wide, f) => rvvEach v i false (2 * w) (if wide then 2 * w else w) w x f
    | none => match rvvOpM f6 w (v.vcsr / 2 % 4) with
      | some f => rvvEach v i false w w w x f
      | none => none

/-! ## Floating point -/

/-- A fused multiply-add with the signs of the product and of the addend that `funct6` gives. -/
def rvvFma (f6 w rm x y z : Nat) : Nat × Nat :=
  ieFma w rm (if f6 % 4 = 1 || f6 % 4 = 3 then ieNeg w x else x) y (if f6 % 4 = 1 || f6 % 4 = 2 then ieNeg w z else z)

/-- Element operations of OPFVV and OPFVF of one width. -/
def rvvOpF (f6 w rm : Nat) (vf : Bool) : Option RvvFn :=
  match f6 with
  | 0x00 => some (fun a b _ => ieAdd w rm a b)
  | 0x02 => some (fun a b _ => ieSub w rm a b)
  | 0x04 => some (fun a b _ => ieMinMax w false a b)
  | 0x06 => some (fun a b _ => ieMinMax w true a b)
  | 0x08 | 0x09 | 0x0A => some (fun a b _ => (ieSgn w (f6 - 8) a b, 0))
  | 0x20 => some (fun a b _ => ieDiv w rm a b)
  | 0x21 => if vf then some (fun a b _ => ieDiv w rm b a) else none
  | 0x24 => some (fun a b _ => ieMul w rm a b)
  | 0x27 => if vf then some (fun a b _ => ieSub w rm b a) else none
  | 0x28 | 0x29 | 0x2A | 0x2B => some (fun a b d => rvvFma f6 w rm b d a)
  | 0x2C | 0x2D | 0x2E | 0x2F => some (fun a b d => rvvFma f6 w rm b a d)
  | _ => none

/-- A single-precision number as a double, with its flags. -/
def rvvUp (x : Nat) : Nat × Nat := ieCvt 32 64 0 x

/-- Widening operations of OPFVV and OPFVF: whether vs2 is already wide, and the operation. -/
def rvvOpFWide (f6 rm : Nat) : Option (Bool × RvvFn) :=
  let two := fun (wide : Bool) (g : Nat → Nat → Nat → Nat × Nat) =>
    (some (wide, fun a b d =>
      let x := if wide then (a, 0) else rvvUp a
      let y := rvvUp b
      let r := g x.1 y.1 d
      (r.1, r.2 ||| x.2 ||| y.2)) : Option (Bool × RvvFn))
  match f6 with
  | 0x30 => two false (fun a b _ => ieAdd 64 rm a b)
  | 0x32 => two false (fun a b _ => ieSub 64 rm a b)
  | 0x34 => two true (fun a b _ => ieAdd 64 rm a b)
  | 0x36 => two true (fun a b _ => ieSub 64 rm a b)
  | 0x38 => two false (fun a b _ => ieMul 64 rm a b)
  | 0x3C | 0x3D | 0x3E | 0x3F => two false (fun a b d => rvvFma f6 64 rm b a d)
  | _ => none

/-- Comparisons of OPFVV and OPFVF. -/
def rvvOpFCmp (f6 w : Nat) (vf : Bool) : Option (Nat → Nat → Bool × Nat) :=
  match f6 with
  | 0x18 => some (fun a b => ieCmp w 0 a b)
  | 0x19 => some (fun a b => ieCmp w 2 a b)
  | 0x1B => some (fun a b => ieCmp w 1 a b)
  | 0x1C => some (fun a b => let r := ieCmp w 0 a b; (!r.1, r.2))
  | 0x1D => if vf then some (fun a b => ieCmp w 1 b a) else none
  | 0x1F => if vf then some (fun a b => ieCmp w 2 b a) else none
  | _ => none

/-- A format that the floating-point instructions take. -/
def rvvFloat (w : Nat) : Bool := w == 32 || w == 64

/-- Conversions: widths of the destination and the source, and the operation. -/
def rvvCvt (op w rm : Nat) : Option (Nat × Nat × (Nat → Nat × Nat)) :=
  let size := op / 8; let k := op % 8
  let dw := if size = 1 then 2 * w else w
  let aw := if size = 2 then 2 * w else w
  let rm' := if k = 6 || k = 7 then 1 else rm
  let sg := k % 2 == 1
  if 2 < size || 64 < dw || 64 < aw then none
  else if k = 0 || k = 1 || k = 6 || k = 7 then
    if rvvFloat aw then some (dw, aw, fun a => ieToInt aw rm' dw sg a) else none
  else if k = 2 || k = 3 then
    if rvvFloat dw then some (dw, aw, fun a => ieOfInt dw rm (rvvInt sg aw a)) else none
  else if (k = 4 && size ≠ 0) || (k = 5 && size = 2) then
    if rvvFloat dw && rvvFloat aw then some (dw, aw, fun a => ieCvt aw dw (if k = 5 then 5 else rm) a) else none
  else none

/-- OPFVV, OPFVF. -/
def rvvExecF (v : Core) (i : Nat) : Option Core :=
  let f6 := bits i 31 26; let vf := rvF3 i == 5
  let w := rvvSew v; let rm := v.fcsr / 32 % 8
  let x := rvvScalar v i w
  let vvOnly := fun (r : Option Core) => if vf then none else r
  if 4 < rm then none
  else if f6 = 0x12 then
    vvOnly (match rvvCvt (rvRs1 i) w rm with
      | some (dw, aw, f) => rvvEach v i true dw aw 0 none (fun a _ _ => f a)
      | none => none)
  else if !rvvFloat w then none
  else match f6 with
    | 0x01 | 0x03 => vvOnly (rvvReduce v i true w w (fun a b => ieAdd w rm a b))
    | 0x05 => vvOnly (rvvReduce v i true w w (fun a b => ieMinMax w false a b))
    | 0x07 => vvOnly (rvvReduce v i true w w (fun a b => ieMinMax w true a b))
    | 0x31 | 0x33 =>
      vvOnly (if w = 32 then rvvReduce v i true 64 32 (fun a b =>
        let u := rvvUp b; let r := ieAdd 64 rm a u.1; (r.1, r.2 ||| u.2)) else none)
    | 0x0E | 0x0F => if vf then rvvSlide1 v i (f6 == 0x0E) (x.getD 0) else none
    | 0x10 =>
      if vf then rvvFromScalar v i w (x.getD 0)
      else if rvRs1 i = 0 && rvvAll i then
        some (rvvEnd { v with fregs := mset 0 v.fregs (rvRd i) (BitVec.ofNat 64 (boxed w (rvvElem v (rvRs2 i) (w / 8) 0))) })
      else none
    | 0x13 =>
      let un := fun (f : Nat → Nat × Nat) => vvOnly (rvvEach v i true w w 0 none (fun a _ _ => f a))
      match rvRs1 i with
      | 0 => un (fun a => ieSqrt w rm a)
      | 4 => un (fun a => ieRsqrt7 w a)
      | 5 => un (fun a => ieRec7 w rm a)
      | 16 => un (fun a => (ieClass w a, 0))
      | _ => none
    | 0x17 => if vf then rvvMerge v i w x else none
    | _ =>
      match rvvOpFCmp f6 w vf with
      | some g => rvvToMask v i true w x (rvvActive v i) (fun _ a b => g a b)
      | none =>
        match rvvOpFWide f6 rm with
        | some (wide, f) => if w = 32 then rvvEach v i true 64 (if wide then 64 else 32) 32 x f else none
        | none => match rvvOpF f6 w rm vf with
          | some f => rvvEach v i true w w w x f
          | none => none

/-- A vector instruction that reaches no memory: the core after it; none is an illegal instruction. -/
def rvvExec (v : Core) (i : Nat) : Option Core :=
  if bits v.vtype 63 63 = 1 then none
  else match rvF3 i with
    | 0 | 3 | 4 => rvvExecI v i
    | 1 | 5 => rvvExecF v i
    | _ => rvvExecM v i

/-! ## Loads and stores -/

/-- Bytes of the elements of a vector load or store by its `width`; 0 for another. -/
def rvvWidth (f3 : Nat) : Nat := match f3 with | 0 => 1 | 5 => 2 | 6 => 4 | 7 => 8 | _ => 0

/-- One access of a vector load or store: the element, the field of its segment, the register group, the element's number
in it, its bytes and its address. -/
structure RvvAccess where
  elem : Nat
  field : Nat
  reg : Nat
  bytes : Nat
  addr : Nat
  deriving DecidableEq, Repr

/-- The accesses of elements ks of a load or store of segments: fields, registers and bytes of a field, and each element's
address. -/
def rvvAccesses (i nf regs n : Nat) (ks : List Nat) (addr : Nat → Nat) : List RvvAccess :=
  ks.flatMap (fun k => (upFrom 0 nf).map (fun f =>
    { elem := k, field := f, reg := rvRd i + f * regs, bytes := n, addr := (addr k + f * n) % 2 ^ 64 }))

/-- The accesses of a vector load or store, and whether it is a fault-only-first load; none is an illegal instruction. -/
def rvvMem (v : Core) (i : Nat) (store : Bool) : Option (Bool × List RvvAccess) :=
  let base := xr v (rvRs1 i); let n := rvvWidth (rvF3 i); let nf := bits i 31 29 + 1
  let ill := bits v.vtype 63 63 == 1
  let regs := fun w => rvvRegs v w
  let fits := fun w => rvvFits v w (rvRd i) && regs w * nf ≤ 8 && rvRd i + regs w * nf ≤ 32 &&
    (store || rvvAll i || rvRd i != 0)
  if n = 0 || bits i 28 28 = 1 then none
  else match bits i 27 26, rvRs2 i with
    | 0, 8 =>
      if !rvvAll i || (nf ≠ 1 && nf ≠ 2 && nf ≠ 4 && nf ≠ 8) || rvRd i % nf ≠ 0 || (store && n ≠ 1) then none
      else some (false, rvvAccesses i 1 1 n (upFrom v.vstart (nf * 64 / n - v.vstart)) (fun k => base + k * n))
    | 0, 11 =>
      if ill || !rvvAll i || nf ≠ 1 || n ≠ 1 then none
      else some (false, rvvAccesses i 1 1 1 (upFrom v.vstart ((v.vl + 7) / 8 - v.vstart)) (fun k => base + k))
    | 0, m =>
      if ill || (m ≠ 0 && (m ≠ 16 || store)) || !fits (8 * n) then none
      else some (m == 16, rvvAccesses i nf (regs (8 * n)) n (rvvActive v i) (fun k => base + k * nf * n))
    | 2, r =>
      if ill || !fits (8 * n) then none
      else some (false, rvvAccesses i nf (regs (8 * n)) n (rvvActive v i) (fun k => base + k * xr v r))
    | _, r =>
      let w := rvvSew v
      let clear := if nf = 1 then rvvMayMeet v w (rvRd i) (8 * n) r
        else rvRd i + regs w * nf ≤ r || r + regs (8 * n) ≤ rvRd i
      if ill || !fits w || !rvvFits v (8 * n) r || (!store && !clear) then none
      else some (false, rvvAccesses i nf (regs w) (w / 8) (rvvActive v i) (fun k => base + rvvElem v r n k))

end Sys2Proof.Machine
end

