-- ==== Sys2Proof/Machine/Work.lean ====
section
/-! DEFINITION. Machine/Work.lean: the work cores: what their loads and stores reach (12 R262, 13 R288, R289, 14 R306,
R307, R334) and the RISC-V instructions of a work item, one on each tick (log 10, PRESUMED). -/

namespace Sys2Proof.Machine

/-! ## Registers -/

/-- A work core. -/
def getCore (s : State) (c : Nat) : Core := mget Core.reset s.sched.cores c

/-- Writes a work core. -/
def putCore (s : State) (c : Nat) (v : Core) : State :=
  putSched s { s.sched with cores := mset Core.reset s.sched.cores c v }

/-- Address of a core's own local SRAM (R288). -/
abbrev sramBase : Nat := 0xFFFFFFFFFFF00000

/-! ## What an address is to a core (R262, R288) -/

/-- Where a core's access goes. -/
inductive CoreSite where
  | sram (off : Nat)
  | memory
  | window
  | counter (n off : Nat)
  | syncRest
  | stream (t off : Nat)
  | port (d : Nat)
  | hound
  | publish
  | mask
  | reduce
  | windowEntry (w off : Nat)
  | peerEntry (n off : Nat)
  | nowhere
  deriving DecidableEq, Repr

/-- Control space as a work core of partition p reaches it (R288): the first of the locations that holds the address. -/
def controlSite (s : State) (p a : Nat) : CoreSite :=
  let area := a - 0x040300100000
  let isIn := fun (b : Addr) (n : Nat) => decide (b.toNat ≤ a) && decide (a < b.toNat + n)
  if 0x040300100000 ≤ a && a < 0x040300104000 then
    if (tilesOf (getPart s p)).contains (area / 256) then .stream (area / 256) (area % 256) else .nowhere
  else
    match (upFrom 0 4).find? (fun d => isIn (Config.enqueueAddr d) 64) with
    | some d => .port d
    | none =>
      if isIn (Config.houndDoorbell p) 8 then .hound
      else if isIn (Config.publishDoorbell p) 4 then .publish
      else if isIn (Config.maskDoorbell p) 8 then .mask
      else if isIn (Config.reduceDoorbell p) 8 then .reduce
      else if isIn Config.windowTable 16384 then
        .windowEntry ((a - Config.windowTable.toNat) / 64) ((a - Config.windowTable.toNat) % 64)
      else if isIn Config.peerTable 65536 then
        .peerEntry ((a - Config.peerTable.toNat) / 64) ((a - Config.peerTable.toNat) % 64)
      else .nowhere

/-- Where an access of `n` bytes at `a` by a core of partition p goes: `nowhere` is an access fault. The system area of the
local SRAM is a system item's alone (R288). -/
def coreSite (s : State) (c p a n : Nat) (write : Bool) : CoreSite :=
  if sramBase ≤ a then
    if a - sramBase + n ≤ (if (runningItem s c).any Item.system then 0x100000 else 0xE0000) then .sram (a - sramBase)
    else .nowhere
  else
    match placeOf a with
    | .sync off => if off / 64 < 16384 then .counter (off / 64) (off % 64) else .syncRest
    | .control _ => controlSite s p a
    | .window _ _ => if (accessDetail s p a write).isNone then .window else .nowhere
    | _ => if (accessDetail s p a write).isNone then .memory else .nowhere

/-! ## The stream control area (R306, R307, R334) -/

/-- Code of a stream's state. -/
def streamCode : StreamState → Nat
  | .idle => 0 | .running => 1 | .halted => 2 | .faulted => 3

/-- A stream control block as a number (R306). -/
def ctlBlock (c : StreamCtl) : Nat :=
  streamCode c.state * 2 ^ 4 + c.nextSeq % 2 ^ 32 * 2 ^ 96 + c.firstStep % 2 ^ 64 * 2 ^ 128 +
    c.entry % 2 ^ 64 * 2 ^ 192 + c.pc % 2 ^ 64 * 2 ^ 256 + c.step % 2 ^ 64 * 2 ^ 320 + c.mark0 % 2 ^ 64 * 2 ^ 384 +
    c.mark1 % 2 ^ 64 * 2 ^ 448

/-- A fault record as a number (R334). -/
def faultBlock (f : FaultRec) : Nat :=
  (if f.valid then 1 else 0) + f.kind * 2 ^ 4 + f.stream * 2 ^ 10 + f.engine * 2 ^ 12 + f.address % 2 ^ 64 * 2 ^ 256 +
    f.detail * 2 ^ 320 + f.seq % 2 ^ 32 * 2 ^ 336 + f.timeNs * 2 ^ 368 + f.timeS % 2 ^ 48 * 2 ^ 400 + f.pc % 2 ^ 64 * 2 ^ 448

/-- Block k of a tile's stream control area: F, B, U, the fault record (R306); that of an absent tile reads IDLE (R408). -/
def areaBlock (s : State) (t k : Nat) : Nat :=
  let v := getTile s t
  match streamOf k with
  | some x => ctlBlock (if tilePresent s t then getCtl v x else { getCtl v x with state := .idle })
  | none => faultBlock v.fault

/-- A store to a stream control area: `entry`, `first_step` and `run` of a stream, `valid` of the fault record, while the
job is stopped; the other fields take no store (R306, R307, R334). -/
def areaStore (s : State) (t off n x : Nat) : State :=
  let k := off / 64
  let v := putByteField (areaBlock s t k) (off % 64) n x
  match streamOf k with
  | some x =>
    let s := ctlWrite s t x (fun c => { c with entry := bits v 255 192, firstStep := bits v 191 128 })
    if v % 2 = 1 then runStream s t x else s
  | none =>
    if v % 2 = 0 && jobStopped s t then
      let u := getTile s t
      putTile s t { u with fault := { u.fault with valid := false } }
    else s

/-! ## The window and peer tables (R239, R363) -/

/-- A store to a window entry: the fields of a CLOSED entry, state 1 opens it; state 2 of an OPEN entry closes it. -/
def windowStore (s : State) (w off n x : Nat) : State :=
  let old := windowOf s w
  let e := windowEntry (BitVec.ofNat 512 (putByteField old off n x))
  if bits old 5 4 = 0 then
    putLft s { s.lft with windows := mset 0 s.lft.windows w (if bits e.toNat 5 4 = 1 then e else withBits e 5 4 0) }
  else if bits e.toNat 5 4 = 2 then closeWindow s w
  else s

/-- A store to a peer entry. -/
def peerStore (s : State) (k off n x : Nat) : State :=
  writePeer s k (BitVec.ofNat 512 (putByteField (getPeer s k).entry.toNat off n x))

/-! ## Loads and stores -/

/-- What a load or a store of a core comes to: done, with the value of a load; not yet; an access fault. -/
inductive CoreDone where
  | done (s : State) (v : Nat)
  | wait (s : State)
  | fault
  deriving DecidableEq, Repr

/-- Reader of a core's window reads. -/
def coreReader (c : Nat) : Nat := 2 ^ 61 + c

/-- A byte of a core's local SRAM: what the core wrote; else the system area's, or what job control loaded (R288). -/
def sramByte (s : State) (c off : Nat) : Byte :=
  match mget none s.sched.sram (c * 2 ^ 20 + off) with
  | some b => b
  | none =>
    if 0xE0000 ≤ off then Config.systemImage off
    else match s.sched.loaded.find? (fun e => e.1 == c) with
      | some e => Config.sramImage e.2 c off
      | none => 0

/-- A core's own SRAM bytes. -/
def sramNat (s : State) (c off n : Nat) : Nat := ofBytes ((upFrom off n).map (sramByte s c))

/-- SRAM bytes that a core writes. -/
def pokeSram : Map (Option (BitVec 8)) → Nat → List Byte → Map (Option (BitVec 8))
  | m, _, [] => m
  | m, a, b :: bs => pokeSram (mset none m a (some b)) (a + 1) bs

/-- A core may reach a counter line now (R420). -/
def hubUp (s : State) (n : Nat) : Bool := domAwake s (20 + hubOf n)

/-- Writes to a line of a run wait; a load of a core answers after them, its own among them (R295). -/
def writesWait (s : State) (a n : Nat) : Bool :=
  s.memErr.parked.any (fun r => r.req != .read && (linesOf a n).contains r.line)

/-- What a core with a stale tag asks for is dropped once, and never answered (R400, R401). -/
def staleLoad (s : State) (c : Nat) : State :=
  let v := getCore s c
  if v.asked then s else staleDrop (putCore s c { v with asked := true }) (c / 24) (coreUnit s c) ((partOfCore s c).getD 0xFF)

/-- A store by core c ends the reservations that it meets: those of device addresses, and its own of its SRAM. -/
def endReservations (s : State) (c a n : Nat) : State :=
  let met := s.sched.cores.filter (fun e => (e.1 == c || a < sramBase) && e.2.reserved.any (fun r => runsMeet (a, n) (r.1, r.2.1)))
  met.foldl (fun s e => putCore s e.1 { getCore s e.1 with reserved := none }) s

/-- A load of `n` bytes by a core of partition p. What a load of an enqueue port or a doorbell answers is not stated: a free
value. -/
def coreLoad (s : State) (c p a n : Nat) : CoreDone :=
  let free := let r := freshFree s; CoreDone.done r.2 (r.1 % 2 ^ (8 * n))
  match coreSite s c p a n false with
  | .sram off => .done s (sramNat s c off n)
  | .syncRest | .nowhere => .fault
  | site =>
    if isStale s (coreUnit s c) then .wait (staleLoad s c)
    else match site with
    | .memory =>
      let s := wakeRuns s [(a, n)]
      if writesWait s a n then .wait s
      else match meetRuns s [(a, n)] with
        | some s' => .wait s'
        | none => .done s (readNat s a n)
    | .window =>
      let v := getCore s c
      if !v.asked then
        .wait (readFar (putCore (dropFar s (coreReader c)) c { v with asked := true }) p (a / 64 * 64) 64 (coreReader c) 0)
      else if !farReady s (coreReader c) 0 then .wait s
      else .done (putCore (dropFar s (coreReader c)) c { v with asked := false }) (farNat s (coreReader c) a n)
    | .counter k off =>
      if !(ownsCounter s p k || mayWatch s p k) then .fault
      else if !hubUp s k then .wait (wakeDomain s (20 + hubOf k))
      else .done (wakeDomain s (20 + hubOf k)) (if off = 0 then (getCounter s k).value % 2 ^ (8 * n) else 0)
    | .stream t off => .done s (byteField (areaBlock s t (off / 64)) (off % 64) n)
    | .windowEntry w off => .done s (byteField (windowOf s w) off n)
    | .peerEntry k off => .done s (byteField (getPeer s k).entry.toNat off n)
    | _ => free

/-- Operation of a store to an offset of a counter line (R262). -/
def lineOp (off : Nat) : Nat := match off with | 0x08 => 1 | 0x10 => 2 | 0x18 => 3 | _ => 0

/-- A store that is not to the core's own SRAM acts. -/
def storeAt (s : State) (c p a n x : Nat) : CoreSite → State
  | .counter k off => counterStore s c k (lineOp off) x
  | .syncRest => counterStore s c 0 0 x
  | .stream t off => areaStore s t off n x
  | .port d => coreEnqueue s d c false 0
  | .hound => houndStore p x s
  | .publish => publishStore p (x % 2 ^ 32) s
  | .mask => maskStore p x s
  | .reduce => reduceStore p x s
  | .windowEntry w off => windowStore s w off n x
  | .peerEntry k off => peerStore s k off n x
  | _ => writeNat s a n x

/-- A store of `n` bytes by a core of partition p (R262, R288, R289): a store to an enqueue port is not the whole line that
the port takes. A counter store reaches its hub once it covers the item's earlier stores (R264, R295). -/
def coreStore (s : State) (c p a n x : Nat) : CoreDone :=
  let s := endReservations s c a n
  match coreSite s c p a n true with
  | .sram off => .done (putSched s { s.sched with sram := pokeSram s.sched.sram (c * 2 ^ 20 + off) (toBytes n x) }) 0
  | .window | .nowhere => .fault
  | site =>
    if isStale s (coreUnit s c) then
      .done (staleDrop s (c / 24) (coreUnit s c) ((partOfCore s c).getD 0xFF)) 0
    else match site with
    | .counter k off =>
      if !coreCovers s c then .wait s
      else if !hubUp s k then .wait (wakeDomain s (20 + hubOf k))
      else .done (storeAt (wakeDomain s (20 + hubOf k)) c p a n x (.counter k off)) 0
    | site => .done (storeAt s c p a n x site) 0

/-! ## Executing an item's instructions -/

/-- What an instruction comes to: the item goes on; it waits where it is; a RISC-V exception (log 10, PRESUMED). -/
inductive RvDone where
  | next (s : State)
  | wait (s : State)
  | trap (cause : Nat)
  deriving DecidableEq, Repr

/-- The core goes on at `pc`. -/
def goTo (s : State) (c pc : Nat) (f : Core → Core) : RvDone := .next (putCore s c { f (getCore s c) with pc := pc % 2 ^ 64 })

/-- A load instruction. -/
def rvLoad (s : State) (c p pc i : Nat) : RvDone :=
  let a := add64 (xr (getCore s c) (rvRs1 i)) (immI i)
  let n := 2 ^ (rvF3 i % 4)
  if rvF3 i = 7 then .trap 2
  else if a % n ≠ 0 then .trap 4
  else
    match coreLoad s c p a n with
    | .fault => .trap 5
    | .wait s => .wait s
    | .done s v => goTo s c pc (fun k => putXr k (rvRd i) (if rvF3 i < 4 then sext (8 * n) v else v))

/-- A store instruction. -/
def rvStore (s : State) (c p pc i : Nat) : RvDone :=
  let a := add64 (xr (getCore s c) (rvRs1 i)) (immS i)
  let n := 2 ^ (rvF3 i % 4)
  if 3 < rvF3 i then .trap 2
  else if a % n ≠ 0 then .trap 6
  else
    match coreStore s c p a n (xr (getCore s c) (rvRs2 i) % 2 ^ (8 * n)) with
    | .fault => .trap 7
    | .wait s => .wait s
    | .done s _ => goTo s c pc id

/-- LR reserves the bytes that it reads; SC stores where they were not stored to and still hold what LR read; either ends
the reservation before. -/
def rvReserve (s : State) (c p pc i a n : Nat) : RvDone :=
  let v := getCore s c
  let drop := fun (k : Core) => { k with reserved := none }
  match coreLoad s c p a n with
  | .fault => .trap (if bits i 31 27 = 2 then 5 else 7)
  | .wait s => .wait s
  | .done s old =>
    if bits i 31 27 = 2 then
      if rvRs2 i ≠ 0 then .trap 2
      else goTo s c pc (fun k => putXr { k with reserved := some (a, n, old) } (rvRd i) (sext (8 * n) old))
    else if v.reserved ≠ some (a, n, old) then goTo s c pc (fun k => putXr (drop k) (rvRd i) 1)
    else
      match coreStore s c p a n (xr v (rvRs2 i) % 2 ^ (8 * n)) with
      | .fault => .trap 7
      | .wait _ => .wait s
      | .done s _ => goTo s c pc (fun k => putXr (drop k) (rvRd i) 0)

/-- The A extension: LR, SC and the atomic read-modify-writes, which need a location that takes stores. -/
def rvAtomic (s : State) (c p pc i : Nat) : RvDone :=
  let a := xr (getCore s c) (rvRs1 i)
  let n := 2 ^ (rvF3 i % 4)
  let op := bits i 31 27
  let store := op != 2
  let site := coreSite s c p a n store
  if (rvF3 i ≠ 2 && rvF3 i ≠ 3) || (op ≠ 2 && op ≠ 3 && (rvAmo 8 op 0 0).isNone) then .trap 2
  else if a % n ≠ 0 then .trap (if store then 6 else 4)
  else if site = .nowhere || (store && site = .window) then .trap (if store then 7 else 5)
  else if op = 2 || op = 3 then rvReserve s c p pc i a n
  else
    match coreLoad s c p a n with
    | .fault => .trap 7
    | .wait s => .wait s
    | .done s old =>
      match coreStore s c p a n ((rvAmo (8 * n) op old (xr (getCore s c) (rvRs2 i))).getD 0) with
      | .fault => .trap 7
      | .wait s => .wait s
      | .done s _ => goTo s c pc (fun k => putXr k (rvRd i) (sext (8 * n) old))

/-! ## Floating point -/

/-- A floating-point register. -/
def fr (v : Core) (r : Nat) : Nat := (mget 0 v.fregs r : BitVec 64).toNat

/-- Writes a floating-point register with a value of w bits. -/
def putFr (v : Core) (r w x : Nat) : Core := { v with fregs := mset 0 v.fregs r (BitVec.ofNat 64 (boxed w x)) }

/-- A floating-point register's value of w bits. -/
def frOf (v : Core) (w r : Nat) : Nat := if w = 32 then unboxed (fr v r) else fr v r

/-- The rounding mode of an instruction, its own or the register's; none where it is no mode. -/
def roundMode (v : Core) (f3 : Nat) : Option Nat :=
  let m := if f3 = 7 then v.fcsr / 32 % 8 else f3
  if m ≤ 4 then some m else none

/-- FLW and FLD. -/
def rvFLoad (s : State) (c p pc i : Nat) : RvDone :=
  let a := add64 (xr (getCore s c) (rvRs1 i)) (immI i)
  let n := 2 ^ rvF3 i
  if a % n ≠ 0 then .trap 4
  else
    match coreLoad s c p a n with
    | .fault => .trap 5
    | .wait s => .wait s
    | .done s v => goTo s c pc (fun k => putFr k (rvRd i) (8 * n) v)

/-- FSW and FSD. -/
def rvFStore (s : State) (c p pc i : Nat) : RvDone :=
  let a := add64 (xr (getCore s c) (rvRs1 i)) (immS i)
  let n := 2 ^ rvF3 i
  if a % n ≠ 0 then .trap 6
  else
    match coreStore s c p a n (fr (getCore s c) (rvRs2 i) % 2 ^ (8 * n)) with
    | .fault => .trap 7
    | .wait s => .wait s
    | .done s _ => goTo s c pc id

/-- Bits of a format field; 0 for one that the cores do not have. -/
def fmtBits (f : Nat) : Nat := if f = 0 then 32 else if f = 1 then 64 else 0

/-- The fused multiply-adds. -/
def rvFma (s : State) (c pc i : Nat) : RvDone :=
  let v := getCore s c; let w := fmtBits (bits i 26 25)
  match roundMode v (rvF3 i) with
  | none => .trap 2
  | some rm =>
    if w = 0 then .trap 2
    else
      let r := ieMadd (rvOp i) w rm (frOf v w (rvRs1 i)) (frOf v w (rvRs2 i)) (frOf v w (bits i 31 27))
      goTo s c pc (fun k => putFr { k with fcsr := k.fcsr ||| r.2 } (rvRd i) w r.1)

/-- OP-FP: conversions between the formats, and what `fpOp` gives. -/
def rvFloat (s : State) (c pc i : Nat) : RvDone :=
  let v := getCore s c; let w := fmtBits (bits i 26 25); let f5 := bits i 31 27
  let rounds := f5 ≤ 3 || f5 == 0x0B || f5 == 0x08 || f5 == 0x18 || f5 == 0x1A
  match (if rounds then roundMode v (rvF3 i) else some 0) with
  | none => .trap 2
  | some rm =>
    if w = 0 then .trap 2
    else if f5 = 8 then
      let u := if w = 32 then 64 else 32
      if fmtBits (rvRs2 i) ≠ u then .trap 2
      else
        let r := ieCvt u w rm (frOf v u (rvRs1 i))
        goTo s c pc (fun k => putFr { k with fcsr := k.fcsr ||| r.2 } (rvRd i) w r.1)
    else
      let a := if f5 = 0x1C && rvF3 i = 0 then fr v (rvRs1 i) % 2 ^ w else frOf v w (rvRs1 i)
      match fpOp f5 w (rvRs2 i) (rvF3 i) rm a (frOf v w (rvRs2 i)) (xr v (rvRs1 i)) with
      | .freg w x fl => goTo s c pc (fun k => putFr { k with fcsr := k.fcsr ||| fl } (rvRd i) w x)
      | .xreg x fl => goTo s c pc (fun k => putXr { k with fcsr := k.fcsr ||| fl } (rvRd i) x)
      | .bad => .trap 2

/-! ## Control and status registers -/

/-- The number that a control and status register holds: those that an item may reach; the counters hold a free value. -/
def rvCsr (s : State) (v : Core) (n : Nat) : Option (Nat × State) :=
  match n with
  | 0x001 => some (v.fcsr % 32, s)
  | 0x002 => some (v.fcsr / 32 % 8, s)
  | 0x003 => some (v.fcsr, s)
  | 0x008 => some (v.vstart, s)
  | 0x009 => some (v.vcsr % 2, s)
  | 0x00A => some (v.vcsr / 2 % 4, s)
  | 0x00F => some (v.vcsr, s)
  | 0xC20 => some (v.vl, s)
  | 0xC21 => some (v.vtype, s)
  | 0xC22 => some (64, s)
  | 0xC00 | 0xC01 | 0xC02 => let r := freshFree s; some (r.1 % 2 ^ 64, r.2)
  | _ => none

/-- The core after a write of a control and status register. -/
def putCsr (v : Core) (n x : Nat) : Core :=
  match n with
  | 0x001 => { v with fcsr := v.fcsr / 32 * 32 + x % 32 }
  | 0x002 => { v with fcsr := v.fcsr % 32 + x % 8 * 32 }
  | 0x003 => { v with fcsr := x % 256 }
  | 0x008 => { v with vstart := x % 512 }
  | 0x009 => { v with vcsr := v.vcsr / 2 * 2 + x % 2 }
  | 0x00A => { v with vcsr := v.vcsr % 2 + x % 4 * 2 }
  | 0x00F => { v with vcsr := x % 8 }
  | _ => v

/-- SYSTEM instructions: calls trap, an item's control and status registers are read and written. -/
def rvSystem (s : State) (c pc i : Nat) : RvDone :=
  let v := getCore s c
  let n := bits i 31 20
  let x := if rvF3 i < 4 then xr v (rvRs1 i) else rvRs1 i
  let writes := rvF3 i % 4 = 1 || rvRs1 i ≠ 0
  if rvF3 i = 0 then (if i = 0x73 then .trap 8 else if i = 0x100073 then .trap 3 else .trap 2)
  else if rvF3 i = 4 || (writes && 0xC00 ≤ n) then .trap 2
  else
    match rvCsr s v n with
    | none => .trap 2
    | some (old, s) =>
      let new := match rvF3 i % 4 with
        | 1 => x
        | 2 => old ||| x
        | _ => old - (old &&& x)
      goTo s c pc (fun k => putXr (if writes then putCsr k n new else k) (rvRd i) old)

/-- VSETVLI, VSETIVLI and VSETVL. -/
def rvSetVl (s : State) (c pc i : Nat) : RvDone :=
  let v := getCore s c
  if bits i 31 30 = 2 && bits i 30 25 ≠ 0 then .trap 2 else
  let vt := if bits i 31 31 = 0 then bits i 30 20 else if bits i 30 30 = 1 then bits i 29 20 else xr v (rvRs2 i)
  let top := rvvLMax vt
  let vl := if bits i 31 30 = 3 then min top (rvRs1 i)
    else if rvRs1 i ≠ 0 then min top (xr v (rvRs1 i)) else if rvRd i ≠ 0 then top else min top v.vl
  if top = 0 then goTo s c pc (fun k => putXr { k with vl := 0, vtype := 2 ^ 63, vstart := 0 } (rvRd i) 0)
  else goTo s c pc (fun k => putXr { k with vl := vl, vtype := vt, vstart := 0 } (rvRd i) vl)

/-! ## Vector loads and stores -/

/-- The core stands before an access of a vector load or store: an instruction that waits goes on there. -/
def rvvMark (s : State) (c : Nat) (x : RvvAccess) : State :=
  putCore s c { getCore s c with vstart := x.elem, part := x.field }

/-- One access of a vector load or store. -/
def rvvAccess (s : State) (c p : Nat) (store : Bool) (x : RvvAccess) : CoreDone :=
  if x.addr % x.bytes ≠ 0 then .fault
  else if store then coreStore s c p x.addr x.bytes (rvvElem (getCore s c) x.reg x.bytes x.elem)
  else
    match coreLoad s c p x.addr x.bytes with
    | .done s v => .done (putCore s c (putVElem (getCore s c) x.reg x.bytes x.elem v)) 0
    | r => r

/-- The exception of an access. -/
def rvvCause (store : Bool) (x : RvvAccess) : Nat := if x.addr % x.bytes ≠ 0 then (if store then 6 else 4) else if store then 7 else 5

/-- The accesses of a vector load or store, one after the other; a fault-only-first load ends before an element after the
first that faults. -/
def rvvRun (c p : Nat) (store first : Bool) : List RvvAccess → State → RvDone
  | [], s => .next s
  | x :: xs, s =>
    match rvvAccess s c p store x with
    | .fault =>
      if first && x.elem ≠ 0 then .next (putCore s c { getCore s c with vl := x.elem }) else .trap (rvvCause store x)
    | .wait s => .wait (rvvMark s c x)
    | .done s _ => rvvRun c p store first xs s

/-- The accesses of a vector load or store; one vse64.v of 8 elements to an enqueue port writes the whole line (R289). -/
def rvvGo (s : State) (c p i : Nat) (store first : Bool) (l : List RvvAccess) : RvDone :=
  let v := getCore s c
  let a := xr v (rvRs1 i)
  let plain := store && bits i 31 26 == 0 && rvvAll i && rvRs2 i == 0 && v.vstart == 0
  match (if plain then coreSite s c p a 64 true else .nowhere) with
  | .port d => .next (coreEnqueue s d c (a % 64 == 0 && rvvWidth (rvF3 i) == 8 && v.vl == 8) (BitVec.ofNat 512 (rvvReg v (rvRd i))))
  | _ => rvvRun c p store first (l.filter (fun x => v.vstart < x.elem || v.part ≤ x.field)) s

/-- A vector load or store. -/
def rvVector (s : State) (c p pc i : Nat) (store : Bool) : RvDone :=
  match rvvMem (getCore s c) i store with
  | none => .trap 2
  | some (first, l) =>
    match rvvGo s c p i store first l with
    | .next s => goTo s c pc (fun k => { k with vstart := 0, part := 0 })
    | r => r

/-- FENCE: where earlier stores are among what it orders, they are visible before the item goes on (R295). -/
def rvFence (s : State) (c pc i : Nat) : RvDone :=
  if rvF3 i = 1 then goTo s c pc id
  else if rvF3 i ≠ 0 then .trap 2
  else if bits i 24 24 = 1 && !coreCovers s c then .wait s
  else goTo s c pc id

/-- One instruction of an item at `pc`, `len` bytes long. -/
def rvExec (s : State) (c p pc len i : Nat) : RvDone :=
  let v := getCore s c
  let a := xr v (rvRs1 i); let b := xr v (rvRs2 i)
  let nx := pc + len
  let set := fun (n : Nat) => goTo s c nx (fun k => putXr k (rvRd i) n)
  let w32 := fun (n : Nat) => set (sext 32 n)
  match rvOp i with
  | 0x37 => set (immU i)
  | 0x17 => set (add64 pc (immU i))
  | 0x6F => goTo s c (add64 pc (immJ i)) (fun k => putXr k (rvRd i) nx)
  | 0x67 => if rvF3 i ≠ 0 then .trap 2 else goTo s c (add64 a (immI i) / 2 * 2) (fun k => putXr k (rvRd i) nx)
  | 0x63 =>
    match rvTaken (rvF3 i) a b with
    | none => .trap 2
    | some t => goTo s c (if t then add64 pc (immB i) else nx) id
  | 0x03 => rvLoad s c p nx i
  | 0x23 => rvStore s c p nx i
  | 0x13 =>
    if rvF3 i = 1 && bits i 31 26 ≠ 0 || rvF3 i = 5 && bits i 31 26 ≠ 0 && bits i 31 26 ≠ 0x10 then .trap 2
    else set (rvAlu 64 (rvF3 i) (rvF3 i == 5 && bits i 30 30 == 1) a (immI i))
  | 0x1B =>
    match rvF3 i, rvF7 i with
    | 0, _ => w32 (rvAlu 32 0 false a (immI i))
    | 1, 0 => w32 (rvAlu 32 1 false a (rvRs2 i))
    | 5, 0 => w32 (rvAlu 32 5 false a (rvRs2 i))
    | 5, 0x20 => w32 (rvAlu 32 5 true a (rvRs2 i))
    | _, _ => .trap 2
  | 0x33 =>
    match rvF7 i with
    | 0 => set (rvAlu 64 (rvF3 i) false a b)
    | 0x20 => if rvF3 i = 0 || rvF3 i = 5 then set (rvAlu 64 (rvF3 i) true a b) else .trap 2
    | 1 => set (rvMul 64 (rvF3 i) a b)
    | _ => .trap 2
  | 0x3B =>
    match rvF7 i, rvF3 i with
    | 0, 0 => w32 (rvAlu 32 0 false a b)
    | 0, 1 => w32 (rvAlu 32 1 false a b)
    | 0, 5 => w32 (rvAlu 32 5 false a b)
    | 0x20, 0 => w32 (rvAlu 32 0 true a b)
    | 0x20, 5 => w32 (rvAlu 32 5 true a b)
    | 1, 1 | 1, 2 | 1, 3 => .trap 2
    | 1, f => w32 (rvMul 32 f a b)
    | _, _ => .trap 2
  | 0x0F => rvFence s c nx i
  | 0x2F => rvAtomic s c p nx i
  | 0x73 => rvSystem s c nx i
  | 0x57 => if rvF3 i = 7 then rvSetVl s c nx i
    else match rvvExec v i with
      | some k => goTo s c nx (fun _ => k)
      | none => .trap 2
  | 0x07 => if rvF3 i = 2 || rvF3 i = 3 then rvFLoad s c p nx i else rvVector s c p nx i false
  | 0x27 => if rvF3 i = 2 || rvF3 i = 3 then rvFStore s c p nx i else rvVector s c p nx i true
  | 0x43 | 0x47 | 0x4B | 0x4F => rvFma s c nx i
  | 0x53 => rvFloat s c nx i
  | _ => .trap 2

/-- The instruction bytes at an address, from the core's SRAM or from device memory. -/
def coreFetch (s : State) (c p a n : Nat) : CoreDone :=
  match coreSite s c p a n false with
  | .sram _ | .memory => coreLoad s c p a n
  | _ => .fault

/-- The instruction at a core's pc with its length, expanded when it is compressed. -/
def rvFetch (s : State) (c p pc : Nat) : RvDone ⊕ (State × Nat × Nat) :=
  match coreFetch s c p pc 2 with
  | .fault => .inl (.trap 1)
  | .wait s => .inl (.wait s)
  | .done s h =>
    if h % 4 ≠ 3 then (match expand h with | some i => .inr (s, 2, i) | none => .inl (.trap 2))
    else
      match coreFetch s c p (pc + 2) 2 with
      | .fault => .inl (.trap 1)
      | .wait s => .inl (.wait s)
      | .done s u => .inr (s, 4, h + 65536 * u)

/-- A work core executes the next instruction of its item: at the exit address the item returns with a0; an exception ends
it as R294 says. The planner's own code is not stepped (log 83, DESIGN CHOICE). -/
def coreStep (s : State) (c : Nat) : State :=
  match runningItem s c, partOfCore s c with
  | some i, some p =>
    let v := getCore s c
    if !coreGoes s c || i.desc == plannerItem then s
    else if v.pc = (Config.exitAddr i.die).toNat then itemReturns s c (xr v 10)
    else
      match (match rvFetch s c p v.pc with | .inl r => r | .inr x => rvExec x.1 c p v.pc x.2.1 x.2.2) with
      | .next s => s
      | .wait s => s
      | .trap k => itemFaults s c k v.pc
  | _, _ => s

/-- Every work core that runs an item executes an instruction. -/
def stepCores (s : State) : State :=
  ((s.sched.cores.filter (fun e => e.2.busy)).map Prod.fst).foldl coreStep s

end Sys2Proof.Machine
end

