-- ==== Sys2Proof/Machine/Tick.lean ====
section
/-! DEFINITION. Machine/Tick.lean: what the module does of its own when no command waits: one cycle of the AO clock
(log 3, DESIGN CHOICE). -/

namespace Sys2Proof.Machine

/-! ## Tiles (R31, R32, R34, R39, R76, R323) -/

/-- A running stream's instruction buffer takes a line more of its program, once it can be read (R31, R249, R251, R308). -/
def fillStream (p t : Nat) (s : State) (x : Stream) : State :=
  let c := getCtl (getTile s t) x
  if fillGoes s p t c then
    onceRead s [(fillAt c, 64)] (fun s => putTile s t (putCtl (getTile s t) x (fillBuffer s p t c)))
  else s

/-- The instruction buffers of a tile's streams fill (R31). -/
def fillBuffers (s : State) (t : Nat) : State :=
  match partOfTile s t with
  | none => s
  | some p => streams.foldl (fillStream p t) s

/-- The next word of a stream, the first of its instruction buffer, is dispatched; with none, an address that the program
may not use faults there (R31, R32, R308). -/
def dispatchNext (s : State) (t : Nat) (x : Stream) : State :=
  let c := getCtl (getTile s t) x
  if !mayDispatch s t x then s
  else match c.buf.head? with
    | some b => dispatch s t x b.2
    | none => if (fetchDetail s ((partOfTile s t).getD 0) t c.pc).isSome then dispatch s t x 0 else s

/-- The sequencer: at most one instruction of each stream and two of the tile. Which two of three streams that could
dispatch do so the spec does not say: the model takes them in the order of tile.stream_order (R32; log 69, DESIGN
CHOICE). -/
def sequence (s : State) (t : Nat) : State :=
  ((streamOrder s t).foldl (fun (r : State × Nat) x =>
    if 2 ≤ r.2 then r
    else
      let s' := dispatchNext r.1 t x
      (s', if getCtl (getTile s' t) x = getCtl (getTile r.1 t) x then r.2 else r.2 + 1)) (s, 0)).1

/-- A cycle of a tile: waiting posts, held parts, the hand-over, the instruction buffers, dispatch, one choice of each
engine, one vector instruction. -/
def tickTile (s : State) (t : Nat) : State :=
  if !tileGoes s t then s
  else
    let s := handOver (finishVisible (putTile s t (retryPosts (getTile s t))) t) t
    let s := streamOn s ((partOfTile s t).getD 0) t
    let s := engines.foldl (fun s e => arbitrate s t e) (sequence (fillBuffers s t) t)
    if (vecOwner (getTile s t)).isSome then vecFetch s t else s

/-! ## Ports (R361, R366) -/

/-- Priority of an LFT packet: WRITE, READ and READ_DATA are data, the others control (R361). -/
def pcpOf (s : State) (typ : Nat) : Nat := if 1 ≤ typ && typ ≤ 3 then setting s 0x1120 0x0A else setting s 0x1120 0x0B

/-- Bytes of the frame of a packet: Ethernet header and tag, encapsulation, LFT header, payload, CRC, FCS (R366). -/
def frameBytes (s : State) (o : OutPkt) : Nat :=
  18 + (match peerFld s o.peer 35 34 with | 1 => 28 | 2 => 48 | _ => 0) + 32 + o.p.payload.length + 8

/-- The ports send the packets handed to them, but those of a paused priority (R361). -/
def sendOut (s : State) : State :=
  let held := fun (o : OutPkt) => s.ports.paused.contains (prioKey o.path (pcpOf s o.p.typ))
  let go := s.lft.out.filter (fun o => !held o)
  go.foldl (fun s o => portCtr (portCtr s (o.path / 8) 2 1) (o.path / 8) 4 (frameBytes s o))
    (putLft s { s.lft with out := s.lft.out.filter held })

/-! ## The tick -/

/-- A counter lies in a partition's range at a stage object (R356). -/
def inStage (s : State) (p idx n : Nat) : Bool :=
  let v := settingAt s (1 + p) idx (p + 1)
  decide (bits v 15 0 ≤ n) && decide (n < bits v 15 0 + bits v 31 16)

/-- The counter that an engine's watch register watches, until its whistle has come (R44). -/
def watchedBy (s : State) (t : Nat) (x : Stream) (e : Engine) (r : Nat) : Option Nat :=
  ((s.sync.armed ++ s.sync.slotWaits ++ s.sync.registering ++ s.sync.whistles.map Whistle.w).find? (fun w => w.waiter == .reg t x e r)).map Watch.ctr

/-- The counter that a clock-gated engine's instruction waits on: a WAIT, or a slot sum, which waits as one (R327). -/
def waitsOn (s : State) (t : Nat) (i : Inflight) : Option Nat :=
  match i.why with
  | .watch r => watchedBy s t i.q.x i.eng r
  | .tie => some (bits i.desc 159 128)
  | _ => none

/-- Nanoseconds of device time, ns, of waiting of one clock-gated engine by its counter's range (R357). -/
def stageWait (ns p t : Nat) (s : State) (i : Inflight) : State :=
  match waitsOn s t i with
  | none => s
  | some n =>
    match i.q.x with
    | .f =>
      let s := if inStage s p 0x3505 n then addCtr s (0x4B00 + p) 1 ns else s
      if inStage s p 0x3506 n then addCtr s (0x4B00 + p) 3 ns else s
    | .b => if inStage s p 0x3505 n then addCtr s (0x4B00 + p) 2 ns else s
    | .u => s

/-- The stage waits of every partition (R357). -/
def stageWaits (ns : Nat) (s : State) : State :=
  s.tiles.foldl (fun s e =>
    match partOfTile s e.1 with
    | some p => e.2.inflight.foldl (stageWait ns p e.1) s
    | none => s) s

/-- Nanoseconds by which this tick advances device time (R382). -/
def tickNs (s : State) : Nat := (10 + (s.time.frac + s.time.corr) / 2 ^ 32).toNat

/-- Nanoseconds in each domain's state and in the power stage (R434), hours of operation (R485), stage waits over a tick
that advances device time by ns. -/
def tickCounters (ns : Nat) (s : State) : State :=
  let s := (upFrom 0 48).foldl (fun s i => addCtr s (0x4E00 + i) (1 + getDom s i) 10) s
  let s := (upFrom 0 4).foldl scrubTick (stageWaits ns (addCtr s 0x4F00 (1 + s.power.stage) 10))
  let n := if s.dev.inputOk then s.dev.okCycles + 1 else s.dev.okCycles
  let s := putDev s { s.dev with okCycles := n % 360000000000 }
  if n = 360000000000 then addCtr s 0x4000 3 1 else s

/-- Every domain but MGMT and DBG is in SLEEP or OFF: the module sleeps, and a clock that has a time transmitter is in
HOLDOVER (R382, R415). -/
def tickSleep (s : State) : State :=
  if (s.time.state = 1 || s.time.state = 2) && (upFrom 0 46).all (fun i => decide (3 ≤ getDom s i)) then enterHoldover s 2 else s

/-- A partition's cycle: gates and schedule, the end of a preemption, of a restart (R244, R246, R395, R406). -/
def tickPart (s : State) (p : Nat) : State := finishRestart (tryPreempt (evalEntries (takeGates s p) p) p) p

/-- A doorbell store that waited is acted on, or waits on (R251). -/
def ringAgain (s : State) (d : Nat × Nat × Nat) : State :=
  match d.1 with
  | 0 => houndStore d.2.1 d.2.2 s
  | 1 => maskStore d.2.1 d.2.2 s
  | 2 => reduceStore d.2.1 d.2.2 s
  | 3 => publishStore d.2.1 d.2.2 s
  | _ => startCmd s d.2.1

/-- The doorbell stores that wait are tried in their order. -/
def serveDoorbells (s : State) : State :=
  if s.sched.doorbells.isEmpty then s
  else s.sched.doorbells.foldl ringAgain (putSched s { s.sched with doorbells := [] })

/-- The cycle of everything that acts on its own. -/
def tickWork (s : State) : State :=
  let s := (s.tiles.map Prod.fst).foldl tickTile s
  let s := (upFrom 0 16).foldl tickPart (pumpAll s)
  let s := (upFrom 0 4).foldl armPass2 (runReqs (serveDoorbells (seekRefills (admitPoison (serveLandings (serveReads (stepCores s)))))))
  let s := checkRemoval (followRequests (holdupTick (retryBlocked (timerTick s))))
  (s.dap.sessions.map Session.number).foldl deliverEvents s

/-- One tick: a cycle of AO; a module that is off does nothing. -/
def tick (s : State) : State :=
  let s := { s with ao := s.ao + 1 }
  if s.dev.phase = .off then s
  else
    let s := sendOut { s with dap := { s.dap with out := [] } }
    tickSleep (tickWork (tickCounters (tickNs s) (advanceTime s)))

end Sys2Proof.Machine
end

