-- ==== Sys2Proof/Safety.lean ====
section
/-! DEFINITION. Safety.lean: what a sound state is: the invariant that every step keeps. -/

namespace Sys2Proof.Machine

/-- Device memory is in canonical form: addresses strictly rising, no entry equal to what an unlisted byte reads as. -/
abbrev Memory.wf (m : Map (BitVec 8)) : Prop := MapWf (0 : BitVec 8) m

/-- The event log is consistent (R468): at most 16,384 records, numbered without a gap up to the next number. -/
def EventLog.wf (l : EventLog) : Prop :=
  l.ring.length ≤ 16384 ∧ l.ring.length ≤ l.next ∧
    l.ring.map Event.seq = upFrom (l.next - l.ring.length) l.ring.length

/-- Every counter of the counter objects is a U64 (R542), listed in canonical form. -/
def Counters.wf (m : Map Nat) : Prop := MapWf 0 m ∧ ∀ e ∈ m, e.2 < 2 ^ 64

/-- The invariant: memory, event log and counter objects are well-formed. -/
structure Inv (s : State) : Prop where
  mem : Memory.wf s.mem
  log : EventLog.wf s.log
  ctr : Counters.wf s.ctr

/-- No line of memory waits or is in error, and every domain is up: whatever reads or writes acts at once (R249, R251, R253,
R420). -/
def calm (s : State) : Bool := memClean s && domsUp s

/-- A work core with a good tag, running an item of partition `p`, stores to a doorbell of it at which no earlier store waits,
and nothing holds what the store names (R165, R211, R288, R400); kinds: 0 Hound, 1 mask planner, 2 reductions, 3 table
publishes. -/
structure Rings (s : State) (kind : Nat) (c : Fin 96) (p : Fin 16) : Prop where
  goes : coreGoes s c = true
  part : partOfCore s c = some p.val
  tag : isStale s (coreUnit s c) = false
  first : s.sched.doorbells.any (fun x => x.1 == kind && x.2.1 == p.val) = false
  calm : calm s = true

/-- A packet reaches LFT: the ports carry LFT, its CRC-32C is right, its version is 1 and its type is not reserved (R366,
R367, R502). -/
structure Received (s : State) (h : LftPacket) : Prop where
  served : s.dev.phase ≠ .recovery
  crc : h.crcOk = true
  version : h.version = 1
  typ : h.typ.toNat < 8

/-- A PTP message is heard: its port takes part, the ports carry PTP, and its domain and transport are the module's (R380,
R502). -/
structure Heard (s : State) (port : Nat) (h : PtpHead) : Prop where
  on : (if port < 128 then bitSet (portSet s (port / 8) 6) (port % 8) else setting s 0x1200 9 == 1) = true
  served : s.dev.phase ≠ .recovery
  domain : h.domain.toNat = setting s 0x1200 6
  transport : h.transport.val = setting s 0x1200 8

/-! ## Vocabulary of the statements about tile instructions -/

/-- The word may be dispatched as the next instruction of a stream of a tile of partition `p` (R31, R307, R308, R332). -/
structure Dispatchable (s : State) (p t : Nat) (x : Stream) (w : BitVec 128) : Prop where
  may : mayDispatch s t x = true
  part : partOfTile s t = some p
  fetch : fetchDetail s p t (getCtl (getTile s t) x).pc = none
  code : decodeFault t x (getCtl (getTile s t) x).marked w = none

/-- The state with the trace record of a dispatch (R492). -/
def traced (s : State) (p t : Nat) (w : BitVec 128) : State :=
  traceRecord s 0 (tileUnit s t (firstEng w)) p w.toNat

/-- The instruction that a word becomes when it is dispatched next (R32, R330). -/
def nextInstr (s : State) (p t : Nat) (x : Stream) (w : BitVec 128) : QInstr :=
  let c := getCtl (getTile s t) x
  { pc := c.pc, seq := c.nextSeq, x := x, w := w, target := resolveTarget c w, step := c.step, marked := c.marked
    skip := isSkipped (getPart s p) c w }

/-- The word is an engine's instruction, and nothing but its own operands keeps it from starting at once: the tile holds
no instruction, its tokens are there, Matrix holds no other stream's tile, the stream stands in the stream order and was
not passed over too often (R34, R35, R39), and no line that its start reads waits or is bad
once the domains of those lines are woken (R249, R251, R417). -/
structure Startable (s : State) (p t : Nat) (x : Stream) (w : BitVec 128) : Prop where
  dispatchable : Dispatchable s p t x w
  engine : (enginesOf w).isSome = true
  waiting : (getTile s t).waiting = []
  inflight : (getTile s t).inflight = []
  tokens : tokensReady (getTile s t) x (wWait w) (firstEng w) = true
  free : matrixTaken (getTile s t) (nextInstr s p t x w) = false
  order : x ∈ streamOrder s t
  patient : mget 0 (getTile s t).starve (starveKey (firstEng w) x) < settingAt s (1 + t) 0x3110 2
  reads : startMeets (wakeStart (dispatch s t x w) p t (nextInstr s p t x w)) p t (nextInstr s p t x w) = none

/-- The state in which a dispatched word starts: its stream has moved on, the domains that it reads from are woken, its
tokens are taken (R32, R39, R417). -/
def startState (s : State) (p t : Nat) (x : Stream) (w : BitVec 128) : State :=
  let s1 := wakeStart (dispatch s t x w) p t (nextInstr s p t x w)
  putTile s1 t (takeTokens (dropWaiting (getTile s1 t) (nextInstr s p t x w)) x (wWait w) (firstEng w))

/-- The state after an engine chose a stream that was its only ready one (R34). -/
def chosen (s : State) (t : Nat) (x : Stream) (w : BitVec 128) : State :=
  putTile s t (starveAfter (getTile s t) (firstEng w) [x] x)

/-- The state after a dispatched word started and its effect `s'` is done: it completes, posting its tokens, as soon as what
it wrote is visible (R39, R42). -/
def completed (s' s : State) (p t : Nat) (x : Stream) (w : BitVec 128) : State :=
  chosen (finishInstr s' t (getTile s' t) (nextInstr s p t x w)) t x w

/-- The state after a dispatched word started with effect `s'` and goes on, waiting for `why`. -/
def underWay (s' s : State) (p t : Nat) (x : Stream) (w : BitVec 128) (why : Await) (desc : Nat) : State :=
  let v := getTile s' t
  chosen (putTile s' t { v with inflight := v.inflight ++ [⟨nextInstr s p t x w, lastEng w, why, [], desc⟩] }) t x w

/-- A vector program runs on the tile, its next word lies in the tile store and breaks no rule (R323, R325, R332). -/
structure VectorReady (s : State) (p t : Nat) (vop w : Nat) (i : Inflight) : Prop where
  owner : vecOwner (getTile s t) = some i
  part : partOfTile s t = some p
  goes : tileGoes s t = true
  inside : (getTile s t).vec.pc + 8 ≤ storeBytes
  sound : vFault (getTile s t) t (getTile s t).vec.count vop w = none

/-- The element-wise operations of R325: opcode, command, and the result of one element from the elements of va, vb and
vd and the `type`. -/
def elementOps : List (Nat × (Fin 64 → BitVec 58 → Instr) × (Nat → Nat → Nat → Nat → Nat)) :=
  [(0x03, .vadd, vArith 0), (0x04, .vsub, vArith 1), (0x05, .vmul, vArith 2), (0x06, .vfma, vArith 3),
   (0x07, .vmax, fun typ a b _ => vPick true typ a b), (0x08, .vmin, fun typ a b _ => vPick false typ a b),
   (0x09, .vcgt, fun typ a b _ => vGreater typ a b), (0x0A, .vsel, fun typ a b d => if vNonzero typ a then b else d),
   (0x0B, .vexp, fun _ a _ _ => (vexpOf (BitVec.ofNat 32 a)).toNat),
   (0x0C, .vlog, fun _ a _ _ => (vlogOf (BitVec.ofNat 32 a)).toNat),
   (0x0D, .vrcp, fun _ a _ _ => (vrcpOf (BitVec.ofNat 32 a)).toNat),
   (0x0E, .vrsq, fun _ a _ _ => (vrsqOf (BitVec.ofNat 32 a)).toNat)]

/-- The tile after a vector instruction that goes on with the next word (R323). -/
def vecAdvance (v v' : Tile) (pc : Nat) : Tile := { v' with vec := { v'.vec with pc := pc, count := v.vec.count + 1 } }

/-- A message of a READY session comes in its turn while the dictionary is served (R455, R471). -/
structure InTurn (s : State) (n seq : Nat) (x : Session) : Prop where
  session : getSession s n = some x
  ready : x.ready = true
  served : dapServed s = true
  turn : seq = x.next

/-- The data of a write have a length that the object's type takes (R458). -/
def lengthFits (typ : Nat) (data : List Byte) : Bool :=
  match typeLen typ with
  | some n => data.length == n
  | none => typ != 10 || decide (data.length ≤ 255)

/-- The vector instructions that write a register and go on, with their opcodes (R325). -/
def vectorRegisterForms (t : Fin 64) (w : BitVec 58) : List (Nat × Instr) :=
  [(0x01, .vld t w), (0x03, .vadd t w), (0x04, .vsub t w), (0x05, .vmul t w), (0x06, .vfma t w), (0x07, .vmax t w),
   (0x08, .vmin t w), (0x09, .vcgt t w), (0x0A, .vsel t w), (0x0B, .vexp t w), (0x0C, .vlog t w), (0x0D, .vrcp t w),
   (0x0E, .vrsq t w), (0x10, .vand t w), (0x11, .vor t w), (0x12, .vxor t w), (0x13, .vshl t w), (0x14, .vbc t w),
   (0x15, .vrsum t w), (0x16, .vrmax t w), (0x17, .sadd t w), (0x19, .sld t w), (0x1B, .swread t w)]

/-- Commands of the ports, the panel, the clock, the update and the dictionary's handshakes that training does not see. -/
def isHousekeeping (c : Instr) : Bool :=
  match c with
  | .identifyWrite _ | .identifyExpiry | .ledTest _ | .ledTestExpiry | .svcShortPress | .handlingSample _ | .leverClosed
  | .liveInsertion | .managementPortLinkDown | .traceArm _ | .alarmClear _ _ | .opticMonitorRead _ _ _ _ _
  | .alertClear _ | .attNonce _ _ | .attReportBuilt _ _ | .flashSettingsProgram | .holdupCharged
  | .fwUpdateBegin _ _ _ | .fwUpdateBlock _ _ _ _ _ | .fwUpdateManifest _ _ | .fwUpdateActivate _ _
  | .fwUpdateAbort _ _ | .fwBlockProgrammed | .fwVerifyDone | .ptpMessage _ _ | .announceTimeout | .holdoverLimit
  | .coolantSample _ _ | .inputSample _ _ | .dapHello _ _ _ _ _ _ | .dapKey _ _ _ | .handshakeTimeout _
  | .idleTimeout _ | .reassemblyTimeout _ _ => true
  | _ => false

end Sys2Proof.Machine
end

