-- ==== Sys2Proof/Certificates/Slice0/Obligations.lean ====
section
/-! DEFINITION. Certificates/Slice0/Obligations.lean: the statements for the provers. -/

open Sys2Proof Sys2Proof.Machine

/-! ## The tile sequencer and Matrix -/

/-- R309, R32, R31: NOP, STEP, JUMP and END at dispatch; the word leaves the stream's instruction buffer, which a JUMP
empties. STEP outside a pre-emption numbers the step: first_step first, then
one more than before. -/
def Obligations.ControlInstructionsMoveTheStream : Prop :=
  ∀ (s : State) (p : Nat) (t : Fin 64) (x : Stream) (w : BitVec 122),
    let after := fun (c : Nat) (f : StreamCtl → StreamCtl) =>
      let s1 := traced s p t (classWord c w)
      let b := getCtl (getTile s1 t) x
      putTile s1 t (settleHalt (putCtl (getTile s1 t) x
        (f { b with nextSeq := (b.nextSeq + 1) % 2 ^ 32, buf := b.buf.drop 1 })))
    let same := fun (c : Nat) (f : StreamCtl → StreamCtl) =>
      let s1 := traced s p t (classWord c w)
      let b := getCtl (getTile s1 t) x
      putTile s1 t (putCtl (getTile s1 t) x (f { b with nextSeq := (b.nextSeq + 1) % 2 ^ 32, buf := b.buf.drop 1 }))
    (Dispatchable s p t x (classWord 0x00 w) →
      exec (.nop t x w) s = .next (same 0x00 (fun b => { b with pc := b.pc + 16 }))) ∧
    (Dispatchable s p t x (classWord 0x01 w) → stopsAtStep (getPart s p) (getCtl (getTile s t) x) = false →
      exec (.step t x w) s = .next (same 0x01 (fun b =>
        { b with pc := b.pc + 16, step := (if b.marked then b.step + 1 else b.firstStep), mark0 := b.mark1
                 mark1 := b.pc, marked := true }))) ∧
    (Dispatchable s p t x (classWord 0x02 w) →
      exec (.jump t x w) s = .next (same 0x02 (fun b => { b with pc := fld (classWord 0x02 w) 103 47, buf := [] }))) ∧
    (Dispatchable s p t x (classWord 0x03 w) →
      exec (.endStream t x w) s = .next (after 0x03 (fun b => { b with pc := b.pc + 16, ended := true })))

/-- R57, R63, R68 to R72, R76, R78, R131: a dense MMA or MMA.T whose descriptor breaks no rule folds the chunk values of
its operands into the accumulator pairs, and matrix.busy grows by its ARITH cycles (R59); it completes, and matrix.macs
grows (R61), or with the end-of-tile flag waits for the hand-over. -/
def Obligations.DenseProductsAccumulate : Prop :=
  ∀ (s : State) (p : Nat) (t : Fin 64) (x : Stream) (w : BitVec 122) (cls : Nat) (acc : AccSet),
    cls = 0x08 ∨ cls = 0x09 →
    let wd := classWord cls w
    let s1 := startState s p t x wd
    let q := nextInstr s p t x wd
    let d := ownDesc s1 t (wDesc wd)
    let m := bits d 27 20; let n := bits d 35 28
    let k := bits d 95 64
    let fa := fmtA d; let fb := fmtB d
    Startable s p t x wd → wForm wd = 0 → denseFault s1 p d q = none → beginTile (getTile s1 t) x m n 0 = .set acc →
    let a' := { acc with stepped := acc.stepped || isSteppedDown s1 p q fa fb
                         pairs := densePairs s1 p t d q fa fb acc.pairs }
    let s2 := putTile s1 t { getTile s1 t with lastAcc := some (denseFeeders q) }
    let s3 := tileCtr (putTile s2 t { getTile s2 t with active := a' }) t 0x09 (ceilDiv k (pairKpc fa fb))
    exec (if cls = 0x08 then .mma t x w else .mmaT t x w) s =
      .next (if wEot wd then underWay s3 s p t x wd (.handOver (m * n * k)) 0
             else completed (tileCtr s3 t 0x21 (m * n * k)) s p t x wd)

/-- R92, R96: a dense BWD2 on a full panel adds DX or DW to the accumulator pairs; R98: an exposed transposing fill
is counted. R94, R218, R312: the end of a panel or half load whose lines can be read fills the buffer that the
instruction named with the panel that its descriptor, as read at the start, describes; then Matrix makes a choice. -/
def Obligations.Bwd2AccumulatesAgainstItsPanel : Prop :=
  (∀ (s : State) (p : Nat) (t : Fin 64) (x : Stream) (w : BitVec 122) (acc : AccSet),
     let wd := classWord 0x0A w
     let s1 := startState s p t x wd
     let q := nextInstr s p t x wd
     let d := ownDesc s1 t (wDesc wd)
     let m := bits d 27 20; let n := bits d 35 28
     let b := panelOf (getTile s1 t) wd (panelNo wd)
     Startable s p t x wd → wForm wd = 0 → loadsPanel wd = false → q.skip = false → b.full = true → b.loading = false →
     bwd2Fault s1 p d q b = none → beginTile (getTile s1 t) x m n (if isDw wd then 2 else 1) = .set acc →
     let k := if isDw wd then b.rows else b.cols
     let a' := { acc with pairs := bwd2Pairs s1 p t d q b ((bwd2Fmt d wd).getD .bf16) acc.pairs }
     let s2 := useFeeders s1 t q (bwd2Feeders q)
     let s3 := tileCtr (putTile s2 t { getTile s2 t with active := a' }) t 0x09 k
     exec (.bwd2 t x w) s =
       .next (if wEot wd then underWay s3 s p t x wd (.handOver (m * n * k)) 0
              else completed (tileCtr s3 t 0x21 (m * n * k)) s p t x wd)) ∧
  (∀ (s : State) (t : Fin 64) (x : Stream) (seq : BitVec 32) (i : Inflight),
     let v := getTile s t
     v.inflight.find? (fun i => i.q.x == x && i.q.seq == seq.toNat && i.why == .panel) = some i →
     calm s = true →
     ∃ u, exec (.panelLoadComplete t x seq) s = .next (arbitrate u t .matrix) ∧
       panelOf (getTile u t) i.q.w (panelNo i.q.w) =
         readPanel s t i.desc ((operandFmt (bits i.desc 419 416)).getD .bf16) ∧ u.mem = s.mem)

/-- R79, R82: a DRAIN of an ENDED shadow set of its stream without a side operand runs to its end; with one, it
waits for the side buffer. R76, R61: with the shadow set EMPTY the hand-over makes the ended active set the shadow
set, ENDED, and the active set EMPTY, and counts the products of the ending instruction. R82: once the side operand
is in the side buffer, the DRAIN of the ENDED tile runs with it. -/
def Obligations.HandOverAndDrainMoveTheShadowSet : Prop :=
  (∀ (s : State) (p : Nat) (t : Fin 64) (x : Stream) (w : BitVec 122),
     let wd := classWord 0x0B w
     let s1 := startState s p t x wd
     let a := (getTile s1 t).shadow
     let d := ownDesc s1 t (wDesc wd)
     let u := drainTile s1 p t (drainPlan s1 p d a.n) (drainElems a) []
     Startable s p t x wd → (nextInstr s p t x wd).skip = false → a.state = .ended → a.owner = x →
     ((getTile s1 t).active.state = .accumulating → (getTile s1 t).active.owner = x) →
     drainOk (drainPlan s1 p d a.n) a (drainElems a) = true →
     (bits d 25 24 = 0 →
       exec (.drain t x w) s = .next (completed u s p t x wd) ∧ (getTile u t).shadow = AccSet.reset) ∧
     (bits d 25 24 ≠ 0 → exec (.drain t x w) s = .next (underWay s1 s p t x wd .side d))) ∧
  ((∀ (s : State) (t : Fin 64) (i : Inflight),
     let v := getTile s t
     tileGoes s t = true → v.inflight.find? isHandOver = some i → v.shadow.state = .empty →
     ∃ u, exec (.handOver t) s = .next u ∧ (getTile u t).shadow = { v.active with state := .ended } ∧
       (getTile u t).active = AccSet.reset ∧
       ∀ macs, i.why = .handOver macs →
         getCtr u (0x4100 + t) 0x21 = min (getCtr s (0x4100 + t) 0x21 + macs) (2 ^ 64 - 1)) ∧
   (∀ (s : State) (p : Nat) (t : Fin 64) (seq : BitVec 32) (i : Inflight),
     let v := getTile s t
     let x := i.q.x
     partOfTile s t = some p → tileGoes s t = true → v.inflight = [i] → i.why = .side → i.q.seq = seq.toNat →
     wClass i.q.w = 0x0B → v.shadow.state = .ended → v.shadow.owner = x → v.waiting = [] →
     (v.active.state = .accumulating → v.active.owner = x) → calm s = true → x ∈ streamOrder s t →
     mget 0 v.starve (starveKey .matrix x) < settingAt s (1 + t) 0x3110 2 →
     let s1 := putTile (sideLoaded s t x seq.toNat) t { v with inflight := [] }
     let side := readSide s t i.desc (drainElems v.shadow)
     let u := drainTile s1 p t (drainPlan s1 p i.desc v.shadow.n) (drainElems v.shadow) side
     exec (.sideOperandLoaded t x seq) s = .next (chosen (finishInstr u t (getTile u t) i.q) t x i.q.w)))

/-! ## Fetch, Store, Vector and the tile's other commands -/

/-- R318, R319, R320, R40: LOAD and LOADT that break no rule are under way with their reads sent; a local STORE
writes its lines; at LOAD_COMPLETE the near rows of a load whose lines are all good stand in the tile store. -/
def Obligations.LoadsAndStoresCopyLines : Prop :=
  (∀ (s : State) (p : Nat) (t : Fin 64) (x : Stream) (w : BitVec 122) (cls : Nat), cls = 0x10 ∨ cls = 0x11 →
    let wd := classWord cls w
    let s1 := startState s p t x wd
    let q := nextInstr s p t x wd
    let d := if hasCopyDesc wd then ownDesc s1 t (wDesc wd) else 0
    let c := copyOf wd d
    Startable s p t x wd → copyFault s1 p t wd d false true = none →
    exec (if cls = 0x10 then .load t x w else .loadt t x w) s =
      .next (underWay ((upFrom 0 c.rows).foldl (fun s r =>
        readFar (wakeRun s (c.far + r * c.farStride) c.farLen) p (c.far + r * c.farStride) c.farLen
          (loadOwner t x q.seq) 0) s1) s p t x wd .load d)) ∧
  (∀ (s : State) (p : Nat) (t : Fin 64) (x : Stream) (w : BitVec 122),
    let wd := classWord 0x12 w
    let s1 := startState s p t x wd
    let d := if hasCopyDesc wd then ownDesc s1 t (wDesc wd) else 0
    let c := copyOf wd d
    Startable s p t x wd → portStore wd c = none → c.peer = 0xFFFF → copyFault s1 p t wd d true true = none →
    exec (.store t x w) s = .next (completed (localStore s1 t c) s p t x wd)) ∧
  (∀ (s : State) (t : Fin 64) (x : Stream) (seq : BitVec 32) (i : Inflight),
    let c := copyOf i.q.w i.desc
    let o := loadOwner t x seq.toNat
    (getTile s t).inflight.find? (fun i => i.q.x == x && i.q.seq == seq.toNat && i.why == .load) = some i →
    farReady s o 0 = true → calm s = true →
    let s1 := dropFar (writeNear s t c (nearRowsOf c ((upFrom 0 c.rows).map (farRow s o c)))) o
    exec (.loadComplete t x seq) s =
      .next (finishInstr s1 t { getTile s1 t with
        inflight := (getTile s1 t).inflight.filter (· != i) } i.q))

/-- R182, R188: GATHER and SCATTER.ADD hand an accepted request to Retriever. R148: UPD.P1 and UPD.P2 queue a command on
every die that holds a slice of the group, one that a frozen group's engines skip (R109) counted. -/
def Obligations.RequestsReachRetrieverAndUpdate : Prop :=
  (∀ (s : State) (p : Nat) (t : Fin 64) (x : Stream) (w : BitVec 122) (cls : Nat), cls = 0x13 ∨ cls = 0x14 →
    let wd := classWord cls w
    let s1 := startState s p t x wd
    let d := BitVec.ofNat 1024 (readNat s1 (tileAddr t (wDesc wd)) 128)
    Startable s p t x wd → (s1.retr.reqs.filter (fun r => r.part == p)).length < 512 →
    requestFault s1 p t (nextInstr s p t x wd) d = none →
    let s2 := if rVia d then
      (rTable d :: subTables (batchDesc s1 p (rTable d) (rStep d)) (rTable d)).dedup.foldl (pinTable (rStep d) p) s1 else s1
    let r := newReq s2.retr.nextId p t (nextInstr s p t x wd) d
    let s3 := wakeMem (takeSetting s2 (1 + p) 0x3405 (p + 1)) p
    let s4 := putRetr s3 { s3.retr with nextId := r.id + 1, reqs := s3.retr.reqs ++ [r] }
    r.desc = d ∧ r.part = p ∧
    exec (if cls = 0x13 then .gather t x w else .scatterAdd t x w) s =
      .next (completed (runReq (readIndex s4 r) r.id) s p t x wd)) ∧
  (∀ (s : State) (p : Nat) (t : Fin 64) (x : Stream) (w : BitVec 122) (cls : Nat), cls = 0x15 ∨ cls = 0x16 →
    let wd := classWord cls w
    let s1 := startState s p t x wd
    let ga := fld wd 103 47
    let pass := if cls = 0x15 then 1 else 2
    let dies := groupDies s1 (groupDesc s1 ga)
    let frozen := (getPart s1 p).frozen.contains (bits (groupDesc s1 ga) 47 32)
    Startable s p t x wd → groupOk s1 p ga = true → (updTable s1 p).isSome = true →
    (∀ d ∈ dies, (s1.upd.cmds.filter (fun c => c.die == d && c.pass == pass)).length < 256) →
    let s2 := if frozen then updCtr s1 p 3 1 else s1
    let s3 := putUpd s2 { s2.upd with
      nextId := s2.upd.nextId + 1
      cmds := s2.upd.cmds ++ dies.map (fun d =>
        { id := s2.upd.nextId, part := p, die := d, pass := pass, group := ga, step := (nextInstr s p t x wd).step
          next := 0, armed := false, going := false, skip := if frozen then 1 else 0, rows := false }) }
    let s4 := dies.foldl (fun s d => wakeDomain s (24 + d)) s3
    exec (if cls = 0x15 then .updP1 t x w else .updP2 t x w) s =
      .next (completed (if pass = 2 then dies.foldl armPass2 s4 else s4) s p t x wd))

/-- R327, R108: a slot sum without a tie counter writes its sum, with one it waits on it. R223, R225: selection and
audit write their lists and records. R103 to R106: NORMRC and SMAXRC whose descriptor breaks no rule write their
rows and count them. -/
def Obligations.ReducingInstructionsWriteTheirResults : Prop :=
  (∀ (s : State) (p : Nat) (t : Fin 64) (x : Stream) (w : BitVec 122),
     let wd := fun k => classWord 0x19 (withForm k w)
     let s1 := fun k => startState s p t x (wd k)
     let d := fun k => ownDesc (s1 k) t (wDesc (wd k))
     let q := fun k => nextInstr s p t x (wd k)
     (Startable s p t x (wd 0) → wForm (wd 0) = 0 → slotSumFault (s1 0) p t (q 0) (d 0) = none →
       (slotWaits (d 0) = false →
         exec (.reduceSlotSum t x w) s = .next (completed (runSlotSum (s1 0) t (d 0)) s p t x (wd 0))) ∧
       (slotWaits (d 0) = true → exec (.reduceSlotSum t x w) s =
         .next (underWay (requestWatch (s1 0) (bits (d 0) 159 128) (slotTarget (s1 0) t (q 0) (d 0)) (.tie t) p
           (tagOf (s1 0) t) 0) s p t x (wd 0) .tie (d 0)))) ∧
     (Startable s p t x (wd 1) → wForm (wd 1) = 1 → selectFault (s1 1) p t (d 1) = none →
       exec (.reduceSelect t x w) s = .next (completed (writeSelection (s1 1) p t (d 1)) s p t x (wd 1))) ∧
     (Startable s p t x (wd 2) → wForm (wd 2) = 2 → auditFault (s1 2) t (d 2) = none →
       exec (.reduceAudit t x w) s = .next (completed (writeAudit (s1 2) p t (d 2)) s p t x (wd 2)))) ∧
  (∀ (s : State) (p : Nat) (t : Fin 64) (x : Stream) (w : BitVec 122),
     let wn := classWord 0x1A w; let ws := classWord 0x1B w
     let sn := startState s p t x wn; let ss := startState s p t x ws
     let dn := ownDesc sn t (wDesc wn); let ds := ownDesc ss t (wDesc ws)
     (Startable s p t x wn → rcFault true dn = none → exec (.normrc t x w) s =
       .next (completed (tileCtr (runNorm sn t dn) t 0x28 (bits dn 111 96)) s p t x wn)) ∧
     (Startable s p t x ws → rcFault false ds = none → exec (.smaxrc t x w) s =
       .next (completed (tileCtr (runSoft ss t ds) t 0x28 (bits ds 111 96)) s p t x ws)))

/-- R263, R270, R328 to R331: a local SIGNAL leaves for its counter; a WATCH with a slot to be had arms its register and
completes; an inline WAIT arms it and blocks; a WAIT on a register that fired with SATISFIED completes. -/
def Obligations.SignalWatchAndWaitAct : Prop :=
  ∀ (s : State) (p : Nat) (t : Fin 64) (x : Stream) (w : BitVec 122),
    let wg := classWord 0x20 w; let wh := classWord 0x21 w; let wt := classWord 0x22 w
    let sg := startState s p t x wg; let sh := startState s p t x wh; let st := startState s p t x wt
    (Startable s p t x wg → fld wg 100 100 = 0 → ownsCounter sg p (fld wg 89 76) = true →
      exec (.signal t x w) s = .next (completed (sendSignal sg
        { ctr := fld wg 89 76, isMax := fld wg 101 101 == 1, operand := fld wg 63 0, unit := tileUnit sg t (lastEng wg)
          stream := streamNo x, part := p, counted := some (nextInstr s p t x wg).step }) s p t x wg)) ∧
    (Startable s p t x wh → watchFault sh p t (nextInstr s p t x wh) = none →
      slotLikely sh (hubOf (fld wh 97 84)) p = true →
      exec (.watch t x w) s = .next (completed (armRegister sh p t (nextInstr s p t x wh)) s p t x wh)) ∧
    (Startable s p t x wt → wForm wt = 1 → watchFault st p t (nextInstr s p t x wt) = none →
      exec (.wait t x w) s = .next (underWay (armRegister st p t (nextInstr s p t x wt)) s p t x wt
        (.watch (fld wt 101 100)) 0)) ∧
    (let r := getWatch (getTile st t) x (lastEng wt) (fld wt 101 100)
     Startable s p t x wt → wForm wt = 0 → r.armed = true → r.fired = true → r.status = 0 →
      exec (.wait t x w) s = .next (completed (putTile st t
        (putWatch (getTile st t) x (lastEng wt) (fld wt 101 100) { r with armed := false })) s p t x wt))

/-- R323: VEXEC starts a program at its descriptor with its two arguments in x1 and x2. R325: VEND ends the program and
completes the VEXEC. -/
def Obligations.VectorProgramsStartAndEnd : Prop :=
  (∀ (s : State) (p : Nat) (t : Fin 64) (x : Stream) (w : BitVec 122),
    let wd := classWord 0x18 w
    let s1 := startState s p t x wd
    Startable s p t x wd →
    exec (.vexec t x w) s = .next (underWay (putTile s1 t
      (putXreg (putXreg { getTile s1 t with vec := { VecState.reset with running := true, x := x, pc := wDesc wd } } 1
        (fld wd 84 53)) 2 (fld wd 52 21))) s p t x wd .vexec 0)) ∧
  (∀ (s : State) (p : Nat) (t : Fin 64) (w : BitVec 58) (i : Inflight),
    VectorReady s p t 0x00 (vWord 0x00 w) i →
    exec (.vend t w) s = .next (finishInstr s t { getTile s t with
      vec := VecState.reset, inflight := (getTile s t).inflight.filter (· != i) } i.q))

/-- R325: VLD, VST, SLD and SST move 2 KiB or a U64 between a register and the tile store; VST and SST change no byte
outside those they store. -/
def Obligations.VectorLoadsAndStoresMoveBytes : Prop :=
  ∀ (s : State) (p : Nat) (t : Fin 64) (w : BitVec 58) (i : Inflight),
    let v := getTile s t
    let wd := fun c => vWord c w
    let at64 := fun c => tileAddr t ((xreg v (vXs (wd c)) + vImm (wd c)) % 2 ^ 64)
    let at8 := fun c => tileAddr t (vImm (wd c))
    let pc := v.vec.pc + 8
    (VectorReady s p t 0x01 (wd 0x01) i → calm s = true → exec (.vld t w) s =
      .next (putTile s t (vecAdvance v (putVreg v (vDst (wd 0x01)) (readNat s (at64 0x01) 2048)) pc))) ∧
    (VectorReady s p t 0x02 (wd 0x02) i → ∃ u, exec (.vst t w) s = .next u ∧
      u = putTile (writeNat s (at64 0x02) 2048 (vreg v (vA (wd 0x02)))) t (vecAdvance v v pc) ∧
      ∀ k, k < at64 0x02 ∨ at64 0x02 + 2048 ≤ k → readByte u k = readByte s k) ∧
    (VectorReady s p t 0x19 (wd 0x19) i → calm s = true → exec (.sld t w) s =
      .next (putTile s t (vecAdvance v (putXreg v (vXs (wd 0x19)) (readNat s (at8 0x19) 8)) pc))) ∧
    (VectorReady s p t 0x1A (wd 0x1A) i → ∃ u, exec (.sst t w) s = .next u ∧
      u = putTile (writeNat s (at8 0x1A) 8 (xreg v (vXs (wd 0x1A)))) t (vecAdvance v v pc) ∧
      ∀ k, k < at8 0x1A ∨ at8 0x1A + 8 ≤ k → readByte u k = readByte s k)

/-- R325, R326: each element-wise operation writes vd alone, and every element of vd is the operation on the elements of
va, vb and the old vd at the same place. -/
def Obligations.VectorElementOperationsActElementwise : Prop :=
  ∀ e ∈ elementOps, ∀ (s : State) (p : Nat) (t : Fin 64) (w : BitVec 58) (i : Inflight),
    let v := getTile s t
    let wd := vWord e.1 w
    let n := typWidth (vTyp wd)
    VectorReady s p t e.1 wd i →
    ∃ r, exec (e.2.1 t w) s = .next (putTile s t (vecAdvance v (putVreg v (vDst wd) r) (v.vec.pc + 8))) ∧
      ∀ k, k < 16384 / n → elemBits r n k =
        e.2.2 (vTyp wd) (elemBits (vreg v (vA wd)) n k) (elemBits (vreg v (vB wd)) n k)
          (elemBits (vreg v (vDst wd)) n k) % 2 ^ n

/-- R325: the bitwise operations, the INT32 shift, the broadcast and the conversion write vd; R119, R120: a
conversion counts what it clamps and the NaNs it writes as zero, and a stochastic one advances the tile's counter.
R325: the scalar results: the sum and the largest element of va, SADD with its sign-extended immediate, SLOOP's
count and branch, and a watch register read. -/
def Obligations.VectorBitAndScalarOperationsWriteTheirRegister : Prop :=
  (∀ (s : State) (p : Nat) (t : Fin 64) (w : BitVec 58) (i : Inflight),
     let v := getTile s t
     let wd := fun c => vWord c w
     let a := vreg v (vA (wd 0)); let b := vreg v (vB (wd 0))
     let res := fun (c r : Nat) =>
       Host.Outcome.next (putTile s t (vecAdvance v (putVreg v (vDst (wd c)) r) (v.vec.pc + 8)))
     (VectorReady s p t 0x10 (wd 0x10) i → exec (.vand t w) s = res 0x10 (a &&& b)) ∧
     (VectorReady s p t 0x11 (wd 0x11) i → exec (.vor t w) s = res 0x11 (a ||| b)) ∧
     (VectorReady s p t 0x12 (wd 0x12) i → exec (.vxor t w) s = res 0x12 (a ^^^ b)) ∧
     (VectorReady s p t 0x13 (wd 0x13) i → exec (.vshl t w) s =
       res 0x13 (packBits 32 ((vElems 32 a).map (vShift (vImm (wd 0x13)))))) ∧
     (VectorReady s p t 0x14 (wd 0x14) i →
       let n := typWidth (vTyp (wd 0x14))
       exec (.vbc t w) s = res 0x14 (packBits n (List.replicate (16384 / n) (xreg v (vXs (wd 0x14)) % 2 ^ n)))) ∧
     (∀ f g, VectorReady s p t 0x0F (wd 0x0F) i →
       let m := vImm (wd 0x0F)
       outFmt (bits m 11 8) = some f → outFmt (bits m 3 0) = some g →
       let cs := vConvs f g (fun k => roundOf (bits m 5 4) (getPart s p).srSeed t v.srCount 0 k) a
       let v' := putVreg v (vDst (wd 0x0F)) (packBits (fmtWidth g) (cs.map Conv.w))
       exec (.vcvt t w) s = .next (putTile
         (tileCtr (tileCtr s t 0x24 (cs.filter Conv.clamped).length) t 0x29 (cs.filter Conv.nanZeroed).length) t
         (vecAdvance v (if bits m 5 4 = 2 then { v' with srCount := v.srCount + 1 } else v') (v.vec.pc + 8))))) ∧
  (∀ (s : State) (p : Nat) (t : Fin 64) (w : BitVec 58) (i : Inflight),
     let v := getTile s t
     let wd := fun c => vWord c w
     let x := vXs (wd 0)
     let elems := fun c => (vElems (typWidth (vTyp (wd c))) (vreg v (vA (wd c)))).map
       (fun e => f32of (fmtDecode (typFmt (vTyp (wd c))) e))
     let res := fun (r : Nat) => Host.Outcome.next (putTile s t (vecAdvance v (putXreg v x r) (v.vec.pc + 8)))
     let imm := BitVec.ofNat 32 (vImm (wd 0))
     (VectorReady s p t 0x15 (wd 0x15) i → exec (.vrsum t w) s = res (alignedTotal (elems 0x15)).toNat) ∧
     (VectorReady s p t 0x16 (wd 0x16) i → exec (.vrmax t w) s =
       (let m := pickWinner true ((elems 0x16).zip (upFrom 0 (elems 0x16).length)); res (m.1.toNat + m.2 * 2 ^ 32))) ∧
     (VectorReady s p t 0x17 (wd 0x17) i → exec (.sadd t w) s =
       res (BitVec.ofNat 64 (xreg v x) + imm.signExtend 64).toNat) ∧
     (VectorReady s p t 0x18 (wd 0x18) i →
       let v' := putXreg v x (BitVec.ofNat 64 (xreg v x) - 1).toNat
       (xreg v' x = 0 → exec (.sloop t w) s = .next (putTile s t (vecAdvance v v' (v.vec.pc + 8)))) ∧
       (xreg v' x ≠ 0 → 0 ≤ (v.vec.pc : Int) + 8 * imm.toInt → exec (.sloop t w) s =
         .next (putTile s t (vecAdvance v v' ((v.vec.pc : Int) + 8 * imm.toInt).toNat)))) ∧
     (VectorReady s p t 0x1B (wd 0x1B) i →
       let r := getWatch v v.vec.x (engOf (bits (vImm (wd 0)) 1 0)) (bits (vImm (wd 0)) 3 2)
       exec (.swread t w) s = res (if bitSet (vImm (wd 0)) 4 then r.value else r.status)))

/-- R307: a write of run = 1 while the job is stopped starts a present tile's stream at its entry with its watch
registers disarmed. R55: a head held on a token too long stops its tile and asks for a restart; R48, R49: a defined
bank-side operation on a line that neither waits nor is in error writes one line and replies, and leaves every other byte
alone; an undefined one faults its requester. -/
def Obligations.StreamsStartTokensTimeOutBanksOperate : Prop :=
  (∀ (s : State) (t : Fin 64) (x : Stream), tilePresent s t = true → jobStopped s t = true →
    (getCtl (getTile s t) x).state ≠ .running →
    ∃ u, exec (.streamRun t x) s = .next u ∧ (getCtl (getTile u t) x).state = .running ∧
      (getCtl (getTile u t) x).pc = (getCtl (getTile s t) x).entry ∧ (getCtl (getTile u t) x).nextSeq = 0 ∧
      (∀ e r, r < 4 → getWatch (getTile u t) x e r = WatchReg.reset) ∧ u.mem = s.mem) ∧
  (∀ (s : State) (p : Nat) (t : Fin 64) (x : Stream) (e : Engine), partOfTile s t = some p → tileGoes s t = true →
    heldOnToken s t x e = true →
    let s1 := putTile s t { getTile s t with stopped := true }
    exec (.tokenTimeout t x e) s = .next (addCause (raise s1 0x0A02 p (tileUnit s t e) [streamNo x]) p 0x0A02)) ∧
  (∀ (s : State) (t : Fin 64) (line : Fin 393216) (op : BankOp) (operand : BitVec 1024) (req : BankReq) (x : Nat × List Byte),
    bankRequest op (toBytes 128 operand.toNat) = some x →
    let a := tileAddr t (64 * line)
    let old := readBytes s a (bankSpan x.1 x.2.length)
    let r := bankApply x.1 old x.2
    lineHeld s a true = false → lineBad s a = false →
    ∃ u, exec (.bankSideOp t line op operand req) s = .next u ∧ u.bankReply = bankAnswer x.1 old x.2 ∧
      (∀ k, k < r.length → readByte u (a + k) = r.getD k 0) ∧
      (∀ k, k < a ∨ a + r.length ≤ k → readByte u k = readByte s k)) ∧
  (∀ (s : State) (t t' : Fin 64) (line : Fin 393216) (operand : BitVec 1024) (x : Stream) (e : Engine),
    let r := requesterOf (getTile s t') x e
    exec (.bankSideOp t line .undefined operand (.tile t' x e)) s =
      .next (tileFault s t' x (engNo e) r.1 r.2 ⟨1, 0, 0⟩))

/-! ## The sync hubs -/

/-- R261, R262: stores of a running work core to the lines of a counter that its partition owns: ADD of 1 to 65,535
saturates, MAX raises, INIT sets while the job is stopped; no other counter and no memory changes. The hub's domain is
ACTIVE (R420) and the stores before it are visible (R264, R295). -/
def Obligations.CounterStoresApplyToOwnedCounters : Prop :=
  ∀ (s : State) (p : Nat) (c : Fin 96) (n : Fin 16384) (v : BitVec 64),
    coreGoes s c = true → partOfCore s c = some p → isStale s (coreUnit s c) = false → ownsCounter s p n = true →
    settled s p = true → domAwake s (20 + hubOf n) = true →
    let sets := fun (i : Instr) (r : Nat) => ∃ u, exec i s = .next u ∧ (getCounter u n).value = r ∧
      (getCounter u n).owner = p ∧ (∀ k, k ≠ n.val → getCounter u k = getCounter s k) ∧ u.mem = s.mem ∧ u.tiles = s.tiles
    (1 ≤ v.toNat → v.toNat ≤ 65535 →
      sets (.counterAdd c n v) (min ((getCounter s n).value + v.toNat) 0xFFFFFFFFFFFFFFFF)) ∧
    sets (.counterMax c n v) (max (getCounter s n).value v.toNat) ∧
    ((getPart s p).state = .stopped → sets (.counterInit c n v) v.toNat)

/-- R261 to R265, R420: the oldest signal on its way from a unit to an owned counter is applied at its ACTIVE hub, once the
writes that it covers are visible, and leaves the way. R267, R268:
a held remote signal whose data landed is applied, and its sequence settled; its room in the hub goes to one that LFT
receive kept back. -/
def Obligations.SignalsApplyAtTheirHub : Prop :=
  (∀ (s : State) (k : Nat) (g : Signal), s.sync.signals[k]? = some g → earlierSignal s.sync.signals k g = false →
    isStale s g.unit = false → ownsCounter s g.part g.ctr = true → settled s g.part = true →
    domAwake s (20 + hubOf g.ctr) = true →
    ∃ u, exec (.hubSignalApply k) s = .next u ∧
      (getCounter u g.ctr).value = counterOp (getCounter s g.ctr).value (if g.isMax then 2 else 1) g.operand ∧
      u.sync.signals = dropAt s.sync.signals k ∧ ∀ n, n ≠ g.ctr → getCounter u n = getCounter s n) ∧
  (∀ (s : State) (k : Nat) (h : HeldSignal), s.sync.held[k]? = some h →
    (s.sync.held.take k).any (fun g => g.peer == h.peer && g.part == h.part) = false → markLanded s h = true →
    ownsCounter s h.part h.ctr = true → domAwake s (20 + hubOf h.ctr) = true →
    ∃ u, exec (.heldSignalApply k) s = .next u ∧
      (getCounter u h.ctr).value = counterOp (getCounter s h.ctr).value (if h.isMax then 2 else 1) h.operand ∧
      dropAt s.sync.held k <+: u.sync.held ∧ (s.sync.kept = [] → u.sync.held = dropAt s.sync.held k) ∧
      ∀ n, n ≠ h.ctr → getCounter u n = getCounter s n)

/-- R271, R272, R274, R398, R400: a registration of a unit with a good tag on an owned counter with a free slot
fires at once when its biased target holds and is armed otherwise; one that waited for a slot does the same when a
slot is free; a timeout completes the watch with status 2. R273, R281, R292, R420, R492: a whistle of a waiter that
is awake, not pre-empted and whose tag is good is delivered; a work item that watched becomes READY with its status
and value; a waiter whose domain is not ACTIVE is woken first. R282: a counter number below 16,384 takes its
snapshot. -/
def Obligations.WatchesFireAndWhistlesArrive : Prop :=
  (let admits := fun (s u : State) (w : Watch) =>
     (w.target ≤ (getCounter s w.ctr).value →
       u.sync.whistles = s.sync.whistles ++ [⟨w, 0, (getCounter s w.ctr).value, true⟩] ∧ u.sync.armed = s.sync.armed) ∧
     ((getCounter s w.ctr).value < w.target →
       u.sync.armed = s.sync.armed ++ [w] ∧ u.sync.whistles = s.sync.whistles)
   (∀ (s : State) (k : Nat) (w : Watch), s.sync.registering[k]? = some w → (getCounter s w.ctr).state = 1 →
     slotFree s (hubOf w.ctr) w.part = true → domAwake s (20 + hubOf w.ctr) = true →
     (∀ id, waiterUnit w = some id → isStale s id = false) →
     ∃ u, exec (.watchRegister k) s = .next u ∧ u.sync.registering = dropAt s.sync.registering k ∧
       admits s u (biased s w)) ∧
   (∀ (s : State) (k : Nat) (w : Watch), s.sync.slotWaits[k]? = some w → slotFree s (hubOf w.ctr) w.part = true →
     ∃ u, exec (.watchSlotFreed k) s = .next u ∧ u.sync.slotWaits = dropAt s.sync.slotWaits k ∧ admits s u w) ∧
   (∀ (s : State) (k : Nat) (w : Watch), s.sync.armed[k]? = some w → w.timeout ≠ 0 →
     ∃ u, exec (.watchTimeout 2 k) s = .next u ∧ u.sync.armed = dropAt s.sync.armed k ∧
       u.sync.whistles = s.sync.whistles ++ [⟨w, 2, (getCounter s w.ctr).value, true⟩])) ∧
  ((∀ (s : State) (k : Nat) (x : Whistle), s.sync.whistles[k]? = some x →
     (getPart s x.w.part).state ≠ .preempted → asleepDom s x.w = none →
     (∀ id, waiterUnit x.w = some id → isStale s id = false) →
     exec (.whistleArrival k) s =
       .next (deliver (wakeWaiter (putSync s { s.sync with whistles := dropAt s.sync.whistles k }) x.w) x)) ∧
   (∀ (s : State) (k d slot : Nat) (x : Whistle), s.sync.whistles[k]? = some x → x.w.waiter = .item d slot →
     asleepDom s x.w = none →
     ∃ u, exec (.whistleArrival k) s = .next u ∧ u.sync.whistles = dropAt s.sync.whistles k ∧
       u.sched.items = s.sched.items.map (fun i =>
         if i.die = d ∧ i.slot = slot ∧ i.state = 1 then
           { i with state := 2, status := x.status, value := x.value, enqNs := nowNs s } else i)) ∧
   (∀ (s : State) (k i : Nat) (x : Whistle), s.sync.whistles[k]? = some x → (getPart s x.w.part).state ≠ .preempted →
     asleepDom s x.w = some i → exec (.whistleArrival k) s = .next (wakeDomain s i)) ∧
   (∀ (s : State) (n : BitVec 16), n.toNat < 16384 →
     exec (.syncSelect n) s = .next (putSync s { s.sync with snap := syncSnap s n.toNat })))

/-! ## The work scheduler -/

/-- R289 to R292: an enqueue write of a core with a good tag that no rule refuses takes the lowest free slot when one is open, READY without a wait
counter; a held one takes a slot when one opens. R293, R296: a free core in service takes the item chosen for it, with its registers,
unless a core with a lower number became free at the same moment and chooses first. -/
def Obligations.WorkItemsAreQueuedAndDispatched : Prop :=
  (∀ (s : State) (p : Nat) (d : Fin 4) (c : Fin 96) (desc : BitVec 512), coreGoes s c = true →
    partOfCore s c = some p → isStale s (coreUnit s c) = false → refusalOf s d p false desc = none →
    slotOpen s d p = true →
    ∃ u it, exec (.enqueue d c true desc) s = .next u ∧ u.sched.items = s.sched.items ++ [it] ∧ it.die = d.val ∧
      it.slot = freeSlot s d ∧ it.part = p ∧ it.desc = desc ∧ it.level = itemFld desc 6 4 ∧
      it.state = (if itemFld desc 191 160 = 0xFFFFFFFF then 2 else 1)) ∧
  (∀ (s : State) (k : Nat) (h : HeldEnq), s.sched.held[k]? = some h → staleWriter s h = none →
    slotOpen s h.die h.part = true →
    ∃ u it, exec (.enqueueSlotFreed k) s = .next u ∧ u.sched.held = dropAt s.sched.held k ∧
      u.sched.items = s.sched.items ++ [it] ∧ it.desc = h.desc ∧ it.slot = freeSlot s h.die) ∧
  (∀ (s : State) (p : Nat) (c : Fin 96) (i : Item), coreFree s c = true → partOfCore s c = some p →
    chooseItem (runnable s c p) = some i → yieldsTo s c = false →
    ∃ u, exec (.itemDispatch c) s = .next u ∧ coreActive u c = true ∧
      (mget Core.reset u.sched.cores c).regs = itemRegs i ∧
      u.sched.items = s.sched.items.map (fun j =>
        if j.die = i.die ∧ j.slot = i.slot then { j with state := 3, core := c, startNs := nowNs s } else j))

/-- R294, R295, R291, R400: an item that returns, faults or overruns frees its core and slot, an overrun even of a core that
stalls on a held write, which goes with it; only a return of a core with a good tag signals its done_counter,
and a fault or overrun asks for a restart of its partition. R297: aging raises the level of READY items, by the period committed. -/
def Obligations.WorkItemsEndAndAge : Prop :=
  (∀ (s : State) (c : Fin 96) (i : Item), runningItem s c = some i →
    let s1 := freeCore s c i
    let s3 := putSched s1 { s1.sched with held := s1.sched.held.filter (fun h => h.src != .core c) }
    (coreStalled s c = false → i.desc ≠ plannerItem → isStale s (coreUnit s c) = false →
      exec (.itemReturn c 0) s = .next (signalOne s1 i.part (itemFld i.desc 159 128) (coreUnit s1 c)) ∧
      ∀ status : BitVec 64, status ≠ 0 → exec (.itemReturn c status) s =
        (let s2 := raise (addCtr s1 (0x4900 + i.die) 16 1) 0x0504 i.part (coreUnit s1 c) [itemId i.desc, status.toNat]
         .next (signalOne s2 i.part (itemFld i.desc 159 128) (coreUnit s2 c)))) ∧
    (∀ cause pc : BitVec 64, coreStalled s c = false →
      exec (.itemFault c cause pc) s = .next (addCause (raise s1 0x0502 i.part (coreUnit s1 c)
        [itemId i.desc, cause.toNat, pc.toNat]) i.part 0x0502)) ∧
    exec (.itemOverrun c) s =
      .next (addCause (raise s3 0x0503 i.part (coreUnit s3 c) [itemId i.desc, c.val]) i.part 0x0503) ∧
    coreActive s1 c = false) ∧
  (∀ (s0 : State) (d : Fin 4),
    let s := takeSetting s0 (d + 1) 0x3600 1
    setting s 0x3600 1 ≠ 0 →
    ∃ u, exec (.agingEvaluation d) s0 = .next u ∧ u.sched.items = s.sched.items.map (fun i =>
      let l := agedLevel (nowNs s) (setting s 0x3600 1 * 1000) i
      if i.die == d.val && ages s i && decide (i.level < l) then { i with level := l } else i))

/-! ## Hound and the mask planner -/

/-- R165 to R175: a sample descriptor that no rule refuses, stored by a core of the partition, becomes its last
trail; the running trail's next hop closes and signals its hop counter; after the last hop its header line shows
status 1, complete_counter is signalled and the next trail begins. R211 to R213, R216: a mask descriptor that no
rule refuses starts a load: its plan header shows that it is being built and its planner is enqueued; the planner,
running on a core, takes the partition's oldest load, writes the plan or a failed header, returns, and signals
done_counter. -/
def Obligations.TrailsAndMaskLoadsRunToTheirEnd : Prop :=
  ((∀ (s : State) (c : Fin 96) (p : Fin 16) (addr : BitVec 64),
     let d := BitVec.ofNat 1024 (readNat s addr.toNat 128)
     Rings s 0 c p → sampleRefusal s p addr.toNat d = none →
     ∃ t : Trail, t.part = p ∧ t.desc = d ∧ t.hop = 0 ∧ t.running = false ∧ t.nodes = [] ∧
       exec (.houndDoorbell ⟨c, p⟩ addr) s = .next (beginTrail (putTrails (wakeMem s p) (s.trails ++ [t])) p)) ∧
   (∀ (s : State) (p : Fin 16) (t : Trail), s.trails.find? (fun t => t.part == p.val && t.running) = some t →
     (t.hop ≤ sHops t.desc → calm s = true →
       let s1 := if t.hop = 0 then closeSeeds s t else closeHop s t t.hop
       exec (.hopClose p) s = .next (signalOne s1 p (sFld t.desc 575 544) (houndUnit s1 p))) ∧
     (sHops t.desc < t.hop → settled s p = true →
       let s1 := writeNat (houndCtr s p 1 1) (trailAddr t) 128 (trailHeader t 1)
       let s2 := signalOne (fillDedup s1 t t.nodes) p (sFld t.desc 607 576) (houndUnit s1 p)
       exec (.trailComplete p) s =
         .next (beginTrail (putTrails s2 (s2.trails.filter (fun u => !(u.part == p.val && u.running)))) p)))) ∧
  (∀ (s : State) (p : Fin 16),
     (∀ (c : Fin 96) (addr : BitVec 64),
       let d := BitVec.ofNat 512 (readNat s addr.toNat 64)
       Rings s 1 c p → maskRefusal s p addr.toNat d = none →
       let s1 := writeNat (putMasks (wakeMem s p) (s.masks ++ [⟨p, d⟩])) (mFld d 319 256) 64
         (planHeader 0 0 0 0 0 0 0 0 0 0 0xFFFFFFFF)
       exec (.maskLoadDoorbell ⟨c, p⟩ addr) s = .next (enqueue s1 (planDie s1 p) p .module true plannerItem).1) ∧
     (∀ (m : MaskLoad) (i : Item), s.masks.find? (fun m => m.part == p.val) = some m → runningPlanner s p = some i →
       calm s = true →
       let s1 := buildPlan (putMasks s (s.masks.filter (· != m))) p m.desc
       exec (.planBuilt p) s =
         .next (signalOne (freeCore s1 i.core i) p (mFld m.desc 223 192) (coreUnit s1 i.core))))

/-! ## Retriever and the merge units -/

/-- R186: a request whose rows are all written or added leaves the list and its done_counter is signalled for its step.
R195: a merge-add for the current or an earlier step goes into its row of the step's touched-row set. R196: a deferred
lookup that no row blocks is delivered. -/
def Obligations.RetrieverRequestsComplete : Prop :=
  (∀ (s : State) (k : Nat) (r0 r : RetrReq), s.retr.reqs[k]? = some r0 →
    let s1 := runReq s r0.id
    getReq s1 r0.id = some r → reqFinished s1 r = true → r.far = [] → settled s1 r.part = true →
    let s2 := dropFar s1 (retrOwner r.id)
    let s3 := putRetr s2 { s2.retr with reqs := s2.retr.reqs.filter (fun x => x.id != r.id) }
    exec (.retrieverRequestComplete k) s = .next (sendSignal s3
      { ctr := rFld r.desc 543 512, isMax := false, operand := 1, unit := retrUnit s3 r.part, stream := 3
        part := r.part, counted := some r.step })) ∧
  (∀ (s : State) (k : Nat) (a : MergeAdd), s.retr.adds[k]? = some a → a.step ≤ (getPart s a.part).step →
    let s1 := putRetr s { s.retr with adds := dropAt s.retr.adds k }
    ∀ sl t, sliceOf (batchDesc s1 a.part a.table a.step) a.row = some sl →
      findTouch s1 a.part a.table sl.1 a.step a.row = some t →
      exec (.mergeAdd k) s = .next (reqProgress (mergeInto s1 a sl.1 t) a.req)) ∧
  (∀ (s : State) (k : Nat) (x : Deferred) (r : RetrReq) (key : Nat),
    s.retr.deferred[k]? = some x → getReq s x.req = some r →
    rowKey s (retrOwner r.id) r.desc x.pos = some (key, true) →
    ∀ rows, indexRows s r.part (rTable r.desc) (rStep r.desc) key = some rows →
    (blockedOn s r.part (rStep r.desc - 1) rows).isSome = false → calm s = true →
    let s1 := putRetr s { s.retr with deferred := dropAt s.retr.deferred k }
    exec (.deferredRowDelivered k) s =
      .next (runReq (reqProgress (deliverIndex s1 r.part r.desc x.pos rows) x.req) x.req))

/-- R201: a migrating row is switched to its new home. R197: a cleared directory is empty in memory, its sets are gone and
waiting requests go on. R203: an allowed table number, stored by a core of the partition, is staged once. R288: a core that
stores to another partition's doorbell takes an access fault. R206: an old version without a pin is written to `freed` and raised. -/
def Obligations.TablesMigrateAndPublish : Prop :=
  (∀ (s : State) (k : Nat) (h : HotEntry), (s.retr.hot.filter (fun h => h.st != 2))[k]? = some h → calm s = true →
    exec (.migrationSwitch k) s = .next (switchRow s h)) ∧
  (∀ (s : State) (p : Fin 16) (t : Fin 256) (d : Fin 4),
    let gone := fun (v : TouchSet) => v.part == p.val && v.table == t.val && v.die == d.val && v.clearing
    let s1 := (s.retr.sets.filter gone).foldl (fun s v => clearDir s v.part v.table v.die v.step) s
    exec (.mergeDirectoryCleared p t d) s =
      .next (runReqs (putRetr s1 { s1.retr with sets := s1.retr.sets.filter (fun v => !gone v) }))) ∧
  (∀ (s : State) (c : Fin 96) (p : Fin 16) (a : BitVec 64) (t : BitVec 32), coreGoes s c = true →
    partOfCore s c ≠ some p.val → ∀ i ∈ [Instr.houndDoorbell ⟨c, p⟩ a, .maskLoadDoorbell ⟨c, p⟩ a, .reduceDoorbell ⟨c, p⟩ a,
      .publishDoorbell ⟨c, p⟩ t], exec i s = .next (itemFaults s c 7 (mget Core.reset s.sched.cores c).pc)) ∧
  (∀ (s : State) (c : Fin 96) (p : Fin 16) (t : BitVec 32),
    let e := regEntry s p (t.toNat % 256)
    Rings s 3 c p →
    t.toNat < 256 → bits e 255 224 = 0 → bits e 191 160 = 0 →
    (jobRuns s p = true → (trainedTables s p).contains t.toNat = false) →
    exec (.publishDoorbell ⟨c, p⟩ t) s = .next (putRetr s { s.retr with
      publish := (s.retr.publish.filter (fun x => !(x.1 == p.val && x.2 == t.toNat))) ++ [(p.val, t.toNat)] })) ∧
  (∀ (s : State) (k p t a : Nat), s.retr.old[k]? = some (p, t, a) →
    s.retr.pins.any (fun x => x.part == p && x.table == t && x.addr == a) = false →
    let s1 := putReg s p t 383 320 a
    exec (.versionFreed k) s =
      .next (raise (putRetr s1 { s1.retr with old := dropAt s1.retr.old k }) 0x0808 p 0 [t, a]))

/-! ## The Update engines -/

/-- R149: the head of a pass-1 queue whose partition's step has come and whose step records agree runs pass 1 on its next
slice; a die that finished pass 1 stamps its partial and signals the pass-1 counter once; the norm die combines a unit
whose die slots all show the step. -/
def Obligations.Pass1RunsSliceBySlice : Prop :=
  (∀ (s : State) (d : Fin 4) (c : UpdCmd) (e : Nat × Nat), queueHead s d 1 = some c →
    let g := groupDesc s c.group
    let es := dieEntries s g d
    updGoes s c.part = true → c.step ≤ (getPart s c.part).step → pass2Ahead s c = false → c.skip = 0 → calm s = true →
    (c.next = 0 → ∀ e ∈ es, bits (readNat s (recordAddr e.2 c.step) 64) 127 64 = expectedStep s c.part g c.step) →
    bits g 8 8 = 0 → es[c.next]? = some e →
    exec (.pass1Slice d) s = .next (pass1Next s c e.1 e.2 (decide (es.length ≤ c.next + 1)))) ∧
  (∀ (s : State) (p : Fin 16) (d : Fin 4) (t : UpdTable), updTable s p = some t →
    let step := (getPart s p).step
    let here := t.groups.filter (fun ga => (groupDies s (groupDesc s ga)).contains d.val)
    here ≠ [] → s.upd.p1sent.contains (p.val, d.val, step) = false →
    here.all (fun ga => s.upd.p1done.contains (p.val, d.val, step, ga)) = true → calm s = true → settled s p = true →
    let s1 := writeNat s (partialAddr s p d + 8) 8 step
    let s2 := putUpd s1 { s1.upd with p1sent := s1.upd.p1sent ++ [(p.val, d.val, step)] }
    exec (.diePass1Complete p d) s = .next (sendSignal s2
      { ctr := bits t.header 191 160, isMax := false, operand := 1, unit := updUnit s1 d, stream := 3, part := p
        counted := some step })) ∧
  (∀ (s : State) (p : Fin 16) (gi : Fin 4096) (k : Fin 65536) (t : UpdTable) (ga : Nat), updTable s p = some t →
    t.groups[gi.val]? = some ga →
    let step := (getPart s p).step
    let g := groupDesc s ga
    let dies := (unitSlices s g k).map (fun e => ueDie e.2)
    let a := landAddr (bits g 7 6) (bits g 127 96 + 128 * k)
    dies ≠ [] → (∀ d ∈ dies, readNat s (a + 32 * d + 24) 8 = step) → calm s = true →
    exec (.normCombine p gi k) s = .next (putUpd s { s.upd with
      norms := (s.upd.norms.filter (fun x => !(x.part == p.val && x.group == ga && x.unit == k.val))) ++
        [{ part := p, group := ga, unit := k, step := step, g := combineNorm s g k dies 0, w := combineNorm s g k dies 1
           u := combineNorm s g k dies 2 }] }))

/-- R152: the global-norm whistle starts the head of a pass-2 queue; a started head updates its next slice, writes its record
once its block or rows are visible, and after the last is finished. R146: when every die finished pass 2 of a group, its group step and the boundary counter are signalled
(outside a replay). -/
def Obligations.Pass2UpdatesAndSignals : Prop :=
  (∀ (s : State) (d : Fin 4) (c : UpdCmd) (x : Waiter × Nat), queueHead s d 2 = some c →
    s.sync.fired.find? (fun x => x.1 == .pass2 d.val c.id) = some x → c.going = false → c.armed = true → x.2 = 0 →
    calm s = true → exec (.pass2Start d) s = .next (beginPass2 (putSync s { s.sync with fired := s.sync.fired.filter (· != x) }) c)) ∧
  (∀ (s : State) (d : Fin 4) (c : UpdCmd) (e : Nat × Nat) (rho : W32), queueHead s d 2 = some c →
    let g := groupDesc s c.group
    let es := dieEntries s g d
    c.going = true → updGoes s c.part = true → es[c.next]? = some e → c.skip = 0 → bits g 8 8 = 0 →
    rhoOf s c (groupCoef s g) g e.1 e.2 = some rho →
    calm s = true → c.rows = false →
    let c' := { c with next := c.next + 1, rows := false }
    let fin := fun (u : State) => if es.length ≤ c.next + 1 then finishPass2 u c' else putCmd u c'
    let s1 := if ueEmb e.2 then pass2Rows s c e.1 e.2 rho else pass2Dense s c e.1 e.2 rho
    let s2 := putCmd s1 { c with rows := true }
    settled s2 c.part = true → (ueEmb e.2 = true → rowsHeld s2 c.part e.2 = false) →
    exec (.pass2SliceDone d) s =
      .next (fin (writeRecord s2 e.2 c.step (bits (readNat s2 (recordAddr e.2 c.step) 64) 63 32 + 1) 0 rho))) ∧
  (∀ (s : State) (p : Fin 16) (gi : Fin 4096) (t : UpdTable) (ga step d : Nat), updTable s p = some t →
    t.groups[gi.val]? = some ga →
    s.upd.p2done.find? (fun x => x.1 == p.val && x.2.2.1 == ga) = some (p.val, step, ga, d) →
    let g := groupDesc s ga
    (∀ d ∈ groupDies s g, s.upd.p2done.contains (p.val, step, ga, d) = true) → (getPart s p).replay = false →
    settled s p = true →
    let s1 := putUpd s { s.upd with
      p2done := s.upd.p2done.filter (fun y => !(y.1 == p.val && y.2.1 == step && y.2.2.1 == ga)) }
    let u := updUnit s1 (bits g 7 6)
    let s2 := signalOne s1 p (bits g 543 512) u
    exec (.groupUpdateDone p gi) s = .next (signalOne s2 p (updHdr s1 p 127 96) u))

/-! ## Placement, prefetch and memory errors -/

/-- R234: a write of 1 to place.reload has the table reread at the partition's next boundary; a write of another value does
nothing. R243, R244: PROGRESS_CHANGE of a running partition with a valid table notes the progress counter's value, counts a
position error once a step, and evaluates the entries; without a table, or while the partition does not run, it does
nothing. The commands complete in every state. -/
def Obligations.PlacementFollowsReloadAndProgress : Prop :=
  (∀ (s : State) (p : Fin 16),
    exec (.placementReload p 1) s = .next (putPart s p { getPart s p with reload := true })) ∧
  (∀ (s : State) (p : Fin 16) (v : BitVec 8), v ≠ 1 → exec (.placementReload p v) s = .next s) ∧
  (∀ (s : State) (p : Fin 16), (getPlace s p).valid = true → (getPart s p).state = .running →
    let v := getPlace s p
    let bad := decide (v.last + 1 < progress s v) || decide (bits v.header 287 256 < progress s v - v.p0)
    let s1 := if bad && !v.posErr then addCtr s (0x4700 + p) 5 1 else s
    exec (.progressChange p) s = .next (evalEntries
      (takeGates (putPlace s1 p { v with last := progress s v, posErr := v.posErr || bad }) p) p)) ∧
  (∀ (s : State) (p : Fin 16), ((getPlace s p).valid = false ∨ (getPart s p).state ≠ .running) →
    exec (.progressChange p) s = .next s)

/-- R242: the oldest issue of an entry that has not landed lands once its source can be read: its source bytes stand in the
landing store and its arrive_counter is signalled for its step; an entry with no such issue changes nothing. R245: issues
that the release counter has reached give their credits back, and the entries are evaluated again; where it has reached
none, nothing changes. -/
def Obligations.PrefetchLandsAndReturnsCredits : Prop :=
  (∀ (s : State) (p : Fin 16) (i : Fin 65536) (x : PfIssue),
    let v := getPlace s p
    let e := v.entries.getD i 0
    v.issues.find? (fun x => x.entry == i.val && !x.landed) = some x → farReady s (pfOwner p i x.step) x.step = true →
    calm s = true →
    let bs := (upFrom (bits e 511 448) (bits e 383 352)).map (farByte s (pfOwner p i x.step))
    let s1 := dropFar (writeBytes s (landAddr (bits e 7 6) (bits e 351 320)) bs) (pfOwner p i x.step)
    let s2 := putPlace s1 p { v with issues := v.issues.map (fun y => if y = x then { y with landed := true } else y) }
    let r := bits e 7 6 * 16
    exec (.prefetchLanded p i) s = .next (sendSignal s2
      { ctr := bits e 319 288, isMax := false, operand := 1, unit := unitId (tagOf s2 (unitNo 3 r)) 3 0 r, stream := 3
        part := p, counted := some x.step })) ∧
  (∀ (s : State) (p : Fin 16) (i : Fin 65536),
    (getPlace s p).issues.find? (fun x => x.entry == i.val && !x.landed) = none →
    exec (.prefetchLanded p i) s = .next s) ∧
  (∀ (s : State) (p : Fin 16) (i : Fin 65536),
    let v := getPlace s p
    let rel := getCounter s (bits (v.entries.getD i 0) 287 256)
    let back := fun (x : PfIssue) =>
      x.entry == i.val && x.landed && !x.released && decide ((x.nth + (if rel.owner = p then rel.bias else 0)) % 2 ^ 64 ≤ rel.value)
    (v.issues.any back = true → exec (.prefetchCreditsReturned p i) s =
      .next (evalEntries (putPlace s p { v with issues := v.issues.map (fun x =>
        if back x then { x with released := true } else x) }) p)) ∧
    (v.issues.any back = false → exec (.prefetchCreditsReturned p i) s = .next s))

/-- R251, R252: a request that meets an uncorrectable error parks; a line with room in its die's poison table and a
refill source is poisoned and its refill sought. R248: a parity error of a tile that goes on faults it. R253: a good
refill of a T1 or SRAM line writes the line, serves the parked requests in order and retires the line; a copied page
is retired and raised, and the writes that waited for it are applied. R249: a burst that exhausts its retries
retrains its interface; the end of a retrain is raised, and a failed interface stays failed; the requests that
waited for it are served. R250, R422: the scrub of an ACTIVE or DOZE memory die counts the corrected errors of a T1
line on its die and retires its page at the threshold. R241: an unanswered window read completes poisoned. -/
def Obligations.MemoryErrorsParkRefillAndScrub : Prop :=
  ((∀ (s : State) (n : BitVec 51) (req : MemReq) (p src : Nat),
     let line := 64 * n.toNat
     s.memErr.refilling.any (fun r => r.1 == line) = false → s.memErr.seeking.any (fun r => r.1 == line) = false →
     s.memErr.waiting.contains line = false → s.memErr.poison.contains line = false →
     (s.memErr.poison.filter (fun l => poisonDie l == poisonDie line)).length < 256 →
     lineOwner s line = some p → usesWindow s p line = false →
     refillSource s p line = some src →
     ∃ u, exec (.uncorrectableError (.line n) req) s = .next u ∧ u.memErr.poison = insertNew s.memErr.poison line ∧
       u.memErr.parked = s.memErr.parked ++ [⟨line, req⟩] ∧ u.memErr.refilling = s.memErr.refilling ++ [(line, src)] ∧
       u.mem = s.mem) ∧
   (∀ (s : State) (t : Fin 64) (x : Stream) (e : Engine) (req : MemReq), tileGoes s t = true →
     let r := requesterOf (getTile s t) x e
     exec (.uncorrectableError (.parity t x e) req) s = .next (tileFault s t x (engNo e) r.1 r.2 ⟨9, 0, 0⟩)) ∧
   (∀ (s : State) (k line src : Nat) (corrected : Bool), s.memErr.refilling[k]? = some (line, src) →
     isWindow line = false → isWindow src = false → refillWaits s line = false → lineHeld s src false = false →
     lineBad s src = false →
     let s1 := putMemErr s { s.memErr with refilling := dropAt s.memErr.refilling k }
     let s2 := if corrected then countCorrected s1 src else s1
     let s3 := if poisonDie line < 4 then addCtr s2 (0x4200 + poisonDie line) 5 1 else s2
     let t := takeParked (pokeMemory s3 line (readBytes s src 64)) line
     let s4 := retireLine (t.1.foldl (serveOne line) t.2) line
     exec (.refillArrived k true corrected) s =
       .next (admitPoison (if line < 0x028000000000 then healLine s4 line else s4))) ∧
   (∀ (s : State) (k page : Nat), s.memErr.copying[k]? = some page →
     let g := page / 2 ^ 37
     let s1 := putMemErr s { s.memErr with
       copying := dropAt s.memErr.copying k, retiredPages := s.memErr.retiredPages ++ [page] }
     exec (.pageCopyDone k) s = .next (serveParked
       (raise (addCtr s1 (0x4200 + g / 5) 7 1) 0x0304 ((partOfMemGroup s g).getD 0xFF) 0 [page, g])))) ∧
  ((∀ (s : State) (i : Fin 160) (retried : BitVec 32), ∃ u, exec (.linkCrcFailure ⟨i, retried⟩) s = .next u ∧
     u.memErr.retrain = insertNew s.memErr.retrain i.val ∧ u.memErr.failedIf = s.memErr.failedIf ∧ u.mem = s.mem) ∧
   (∀ (s : State) (i : Fin 160) (ok : Bool), s.memErr.retrain.contains i.val = true →
     let s1 := putMemErr s { s.memErr with
       retrain := s.memErr.retrain.filter (· != i.val)
       failedIf := if ok then s.memErr.failedIf else insertNew s.memErr.failedIf i.val }
     exec (.retrainDone i ok) s = .next (serveParked (raise s1 0x0306 0xFF 0 [i.val, if ok then 0 else 1]))) ∧
   (∀ (s : State) (n : BitVec 51) (found reads : BitVec 16) (g : Nat), placeOf (64 * n.toNat) = .t1 g →
     getDom s (24 + g / 5) ≤ 1 →
     let s0 := wakeDomain s (24 + g / 5)
     let page := pageOf (64 * n.toNat)
     let l := withCorrected s0 page (found.toNat + reads.toNat)
     let s1 := putMemErr (addCtr s0 (0x4200 + g / 5) 3 (found.toNat + reads.toNat)) { s0.memErr with corrected := l }
     exec (.patrolScrub n found reads) s = .next
       (if setting s 0x3300 2 ≠ 0 ∧ setting s 0x3300 2 ≤ correctedOf l page then retireLine s1 (64 * n.toNat) else s1)) ∧
   (∀ (s : State) (k : Nat) (r : FarRead), (s.lft.reads.filter (fun r => !r.failed))[k]? = some r →
     exec (.farReadTimeout k) s = .next (settleWindows (failRead s r))))

/-! ## The fabric -/

/-- R239: a write of state 1 opens a CLOSED window with the rest of the entry; state 2 closes an OPEN one, and it is
CLOSED at once when no read is outstanding. R363: a disabled peer's entry takes every field but its state and
version fields. R11: reserved bits of either read as zero. R368, R369: a HELLO of a known, enabled peer that agrees
on version 1 marks its path UP, takes its incarnation and number, and makes the peer UP. R369: the HELLO timer
greets on every path and drops paths silent for three intervals. R378: an UP peer without a path is lost. -/
def Obligations.WindowsArePlacedAndPeersComeAndGo : Prop :=
  ((∀ (s : State) (w : Fin 256) (entry : BitVec 512), bits (windowOf s w) 5 4 = 0 →
     ∃ u, exec (.windowOpen w entry) s = .next u ∧ windowOf u w = (withBits (windowEntry entry) 5 4 1).toNat ∧
       (∀ k, k ≠ w.val → windowOf u k = windowOf s k) ∧ u.mem = s.mem) ∧
   (∀ (s : State) (w : Fin 256), bits (windowOf s w) 5 4 = 1 →
     exec (.windowClose w) s = .next (settleWindows (putLft s { s.lft with
       windows := mset 0 s.lft.windows w.val (withBits (mget 0 s.lft.windows w.val) 5 4 2) }))) ∧
   (∀ (s : State) (n : Fin 1024) (entry : BitVec 512), peerOn s n = false →
     let s1 := putPeer s n { Peer.reset with entry := peerEntry entry }
     peerOn s1 n = true → peerSelf s1 n = false →
     exec (.peerTableWrite n entry) s = .next (setPeerState s1 n (idlePeerState s1 n)))) ∧
  ((∀ (s : State) (sub : Fin 128) (n : Fin 1024) (mid inc : BitVec 64) (vs : BitVec 16) (you : Fin 1024),
     peerOn s n = true → peerSelf s n = false → (peerFld s n 511 448 = 0 ∨ peerFld s n 511 448 = mid.toNat) →
     pathOf s n sub = true → ((getPeer s n).known = true → (getPeer s n).incarnation = inc.toNat) →
     vs.getLsbD 1 = true → boundParts s n = [] → s.dev.phase ≠ .recovery →
     ∃ u, exec (.lftHelloReceived sub n mid inc vs you) s = .next u ∧ (getPeer u n).known = true ∧
       (getPeer u n).incarnation = inc.toNat ∧ (getPeer u n).youAre = you ∧ (sub.val, 0) ∈ (getPeer u n).paths ∧
       peerFld u n 33 32 = 2 ∧ u.mem = s.mem) ∧
   (∀ (s : State) (n : Fin 1024), peerOn s n = true → peerSelf s n = false →
     let s1 := (s.ports.links.filter (fun l => pathOf s n l)).foldl (fun s l => sendHello s n l) s
     let s2 := putPeer s1 n { getPeer s1 n with paths := (getPeer s1 n).paths.map (fun x => (x.1, x.2 + 1)) }
     exec (.helloInterval n) s = .next
       (((getPeer s2 n).paths.filter (fun x => decide (3 ≤ x.2))).foldl (fun s x => removePath s x.1 n) s2)) ∧
   (∀ (s : State) (n : Fin 1024), peerUp s n = true → peerSelf s n = false → (getPeer s n).paths = [] →
     exec (.peerTimeout n) s = .next (peerLost s n 1)))

/-- R366, R367, R371 to R374: a sequenced WRITE, READ or SIGNAL of an enabled peer is counted and goes through the flow's
one check; a READ_DATA with a good status and the asked length completes its read with its bytes; any of them whose
CRC-32C fails, or of an unknown version or type, or from a peer that is not enabled, is dropped and counted (R387). -/
def Obligations.FabricPacketsReachTheirFlow : Prop :=
  ∀ (s : State) (h : LftPacket),
    let s1 := lftCtr (wakeDomain (wakeDomain s 44) 45) 2 1
    let n := h.srcPeer.val
    (Received s h → peerOn s1 n = true →
      exec (.lftWriteReceived h) s = .next (receiveSeq s1 n (packetOf 1 h)) ∧
      exec (.lftReadReceived h) s = .next (receiveSeq s1 n (packetOf 2 h)) ∧
      exec (.lftSignalReceived h) s = .next (receiveSeq s1 n (packetOf 4 h)) ∧
      (∀ r, s.lft.reads.find? (fun r => r.peer == n && r.part == h.dstPart.val && !r.failed &&
          r.seq == some h.aux.toNat) = some r → h.operand.toNat % 256 = 0 → h.payload.length = r.bytes →
        exec (.lftReadDataReceived h) s = .next (settleWindows (putLft s1 { s1.lft with
          reads := s1.lft.reads.filter (· != r)
          far := pokeBytes s1.lft.far (r.owner * 2 ^ 64 + r.src) h.payload })))) ∧
    (s.dev.phase ≠ .recovery → ∀ c ∈ [Instr.lftWriteReceived h, .lftReadReceived h, .lftSignalReceived h,
      .lftReadDataReceived h, .lftAckReceived h, .lftNakReceived h],
      (h.crcOk = false → exec c s = .next (lftCtr s1 6 1)) ∧
      (h.crcOk = true → (h.version ≠ 1 ∨ 8 ≤ h.typ.toNat ∨ peerOn s1 n = false) → exec c s = .next (lftCtr s1 5 1)))

/-- R372: an ACK takes the grant, settles what it acknowledges and lets the flow go on; a packet too old is sent again on
another path; an ACK is due while packets are unacknowledged. R373: a NAK of an unacknowledged packet settles it with its
effect. -/
def Obligations.AcknowledgementsSettlePackets : Prop :=
  (∀ (s : State) (h : LftPacket),
    let s1 := lftCtr (wakeDomain (wakeDomain s 44) 45) 2 1
    let n := h.srcPeer.val; let p := h.dstPart.val; let wm := h.seq.toNat
    let f := getFlow s1 n p
    Received s h → peerOn s1 n = true →
    exec (.lftAckReceived h) s = .next (pump (ackSeqs (putFlow s1 n p { f with grant := h.aux.toNat }) n p (fun q =>
      seqLe q wm || (let d := (q + 2 ^ 32 - (wm + 2) % 2 ^ 32) % 2 ^ 32
        decide (d < 64) && bitSet h.operand.toNat d))) n p) ∧
    (∀ o, f.unacked.find? (fun o => o.p.seq == wm) = some o →
      exec (.lftNakReceived h) s = .next (pump (nakEffect
        (putFlow s1 n p { f with unacked := f.unacked.filter (fun u => u.id != o.id) }) o h.aux.toNat) n p))) ∧
  (∀ (s : State) (n : Fin 1024) (p : Fin 16) (q : BitVec 32), peerUp s n = true → peerSelf s n = false →
    exec (.lftRetransmitTimeout n p q) s = .next (resend s n p (fun o => o.p.seq == q.toNat))) ∧
  (∀ (s : State) (n : Fin 1024) (p : Fin 16), (getFlow s n p).sinceAck ≠ 0 → peerOn s n = true →
    exec (.ackTimer n p) s = .next (sendAck s n p))

/-- R375, R376: a sound reduction descriptor whose tag is free starts its reduction and its moves; a new contribution goes
through the flow's check into its reduction; a reduction that made all its moves writes its eight values and signals. -/
def Obligations.ReductionsStartCombineAndEnd : Prop :=
  (∀ (s : State) (c : Fin 96) (p : Fin 16) (addr : BitVec 64),
    let d := readNat s addr.toNat 128
    let tag := bits d 383 320
    Rings s 2 c p → redOk s p addr.toNat d = true → s.lft.reductions.any (fun x => x.part == p.val && x.tag == tag) = false →
    s.lft.early = [] →
    ∃ r : Reduction, r.part = p ∧ r.tag = tag ∧ r.ops = bits d 287 256 ∧ r.rank = bits d 239 230 ∧ r.round = 0 ∧
      r.members.length = bits d 255 240 ∧
      r.vals = (upFrom 0 8).map (fun i => bits d (512 + 64 * i + 63) (512 + 64 * i)) ∧
      exec (.reduceDoorbell ⟨c, p⟩ addr) s =
        .next (runRed redFuel (putLft s { s.lft with reductions := s.lft.reductions ++ [r] }) r)) ∧
  (∀ (s : State) (h : LftPacket) (ops : BitVec 32),
    let s1 := lftCtr (wakeDomain (wakeDomain s 44) 45) 2 1
    let k := packetOf 5 h
    let n := h.srcPeer.val
    Received s h → peerOn s1 n = true → isOld (getFlow s1 n h.dstPart) k.seq = false → isHeldSeq s1 n k = false →
    refusalCode s1 n k = 0 →
    exec (.lftReduceReceived h ops) s = .next (contribute (receiveSeq s1 n k) h.dstPart k.addr n (k.aux % 65536)
      ((upFrom 0 8).map (fun i => ofBytesBE ((h.payload.drop (8 * i)).take 8)) ++ [ops.toNat]))) ∧
  (∀ (s : State) (k : Nat) (r : Reduction), s.lft.reductions[k]? = some r →
    (redMoves r.members.length r.rank).length ≤ r.round →
    ∃ u, exec (.reductionDone k) s = .next u ∧ u.lft.reductions = dropAt s.lft.reductions k ∧
      (∀ a, a < r.result ∨ r.result + 64 ≤ a → readByte u a = readByte s a) ∧
      u.mem = (writeBytes s r.result ((resultVals s r).1.flatMap (toBytes 8))).mem)

/-! ## The Ethernet ports, the optics and time -/

/-- R360: an enabled sub-port with a ready medium, not held and in a domain that is not OFF comes up; a lost one
goes down and is raised; a hold that expires ends. R359, R385: a good frame within 9,216 bytes is counted with its
length, an oversize or damaged one is dropped and counted, and so are the codewords that FEC corrected or could not.
R361: a PFC frame on a link that is up pauses the named priorities whose time is not 0 and releases those whose time
is 0; the watchdog has a paused priority ignored for 1 s, after which pause is honoured again. -/
def Obligations.LinksCarryFramesAndHonourPauses : Prop :=
  (∀ (s : State) (l : Fin 128),
     (s.ports.links.contains l.val = false → subOn s l = true → s.ports.holding.contains l.val = false →
       mediumReady s l = true → getDom s (28 + l / 8) < 4 →
       ∃ u, exec (.linkUp l) s = .next u ∧ u.ports.links = s.ports.links ++ [l.val] ∧ u.mem = s.mem ∧ u.tiles = s.tiles) ∧
     (s.ports.links.contains l.val = true →
       ∃ u, exec (.linkDown l) s = .next u ∧ u.ports.links = s.ports.links.filter (· != l.val) ∧
         (∀ k : Fin 8, prioKey l k ∉ u.ports.paused)) ∧
     (∃ u, exec (.linkHoldExpiry l) s = .next u ∧ u.ports.holding = s.ports.holding.filter (· != l.val) ∧
       u.ports.links = s.ports.links) ∧
     (∀ (len : BitVec 16) (c : FrameCheck), s.ports.links.contains l.val = true →
       let p := l.val / 8
       let s1 := portCtr (portCtr (wakeDomain s (28 + p)) p 5 c.corrected.toNat) p 6 c.uncorrectable.toNat
       exec (.frameReceived l len c) s = .next
         (if 9216 < len.toNat then portCtr s1 p 0x0C 1
          else if c.fcsOk then pfcAsk (portCtr (portCtr s1 p 1 1) p 3 len.toNat) l ((c.pcp.map BitVec.toNat).getD 0) c.full
          else portCtr s1 p 7 1))) ∧
  (∀ (s : State) (l : Fin 128) (k : Fin 8),
     let x := prioKey l k
     (∀ enable times : BitVec 8, s.ports.links.contains l.val = true → s.dev.phase ≠ .recovery →
       ∃ u, exec (.pfcFrameReceived l enable times) s = .next u ∧
         (enable.getLsbD k = true → x ∉ s.ports.ignored → (x ∈ u.ports.paused ↔ times.getLsbD k = true)) ∧
         (enable.getLsbD k = false → (x ∈ u.ports.paused ↔ x ∈ s.ports.paused)) ∧ u.mem = s.mem) ∧
     (x ∈ s.ports.paused →
       ∃ u, exec (.pfcWatchdog l k) s = .next u ∧ x ∉ u.ports.paused ∧ x ∈ u.ports.ignored ∧
         u.log.next = s.log.next + 1) ∧
     (∃ u, exec (.pauseIgnoreExpiry l k) s = .next u ∧ x ∉ u.ports.ignored ∧ u.ports.paused = s.ports.paused))

/-- R362, R487: an optic within the cage's power whose Applications include the port's mode is powered up, one that asks for
more is refused; a removed one takes its sub-ports down; its monitors latch flags until a write of 1 to
optic.alarm_clear, and one that becomes ready has the data paths of the enabled sub-ports. -/
def Obligations.OpticsAreIdentifiedAndMonitored : Prop :=
  ∀ (s : State) (p : Fin 4),
    let o := mget Optic.reset s.ports.optics p
    (∀ (mw : BitVec 32) (apps : BitVec 4) (ve pa se : List Byte), o.medium = 0 → getDom s (28 + p) < 4 →
      ∃ u, exec (.opticInserted p false mw apps ve pa se) s = .next u ∧ u.ports.links = s.ports.links ∧
        let ok := mw.toNat ≤ 1000 * portSet s p 9 ∧ bitSet apps.toNat (portMode s p) = true
        mget Optic.reset u.ports.optics p = { Optic.reset with
          medium := 2, state := if ok then 2 else 6, powerMw := mw.toNat, apps := apps.toNat, vendor := cmisName ve
          part := pa, serial := se }) ∧
    (o.medium ≠ 0 → exec (.opticRemoved p) s =
      .next (raise (putOptic (portDown (wakeDomain s (28 + p)) p) p Optic.reset) 0x0905 0xFF 0 [p.val])) ∧
    (∀ (te su : BitVec 32) (la : List Byte) (r : OpticReading), o.medium ≠ 0 → getDom s (28 + p) < 3 →
      let st := if o.medium = 1 ∨ o.state = 6 ∨ r.state.val = 0 then o.state else r.state.val
      ∃ u, exec (.opticMonitorRead p te su la r) s = .next u ∧
        mget Optic.reset u.ports.optics p = { o with
          temp := te, supply := su, lanes := la.take 96, flags := o.flags ||| r.flags.toNat, state := st
          paths := if st ≠ 3 then 0 else if o.state = 3 then o.paths else subMask s p }) ∧
    (o.medium ≠ 0 → ∃ u, exec (.alarmClear p 1) s = .next u ∧
      mget Optic.reset u.ports.optics p = { o with flags := 0 } ∧ u.log = s.log)

/-- R380, R382: where no time transmitter is selected, an Announce that is heard selects its sender and grandmaster; the other
messages that are heard go through the exchange, in which the answer to a Delay_Req gives a measurement; when Announces stop a LOCKED clock holds over, and HOLDOVER at its limit is FREERUN. -/
def Obligations.DeviceTimeFollowsItsGrandmaster : Prop :=
  ∀ (s : State),
    (∀ (port : Fin 129) (h : PtpHead), Heard s port h →
      (∀ c : PtpClock, exec (.ptpMessage port (.announce h c)) s = .next (announced s ⟨port, h.source.toNat, c⟩) ∧
        (s.time.parent = none → ∃ u, exec (.ptpMessage port (.announce h c)) s = .next u ∧ u.time.gm = c.gm.toNat ∧
          u.time.parent = some ⟨port, h.source.toNat, c⟩ ∧
          u.time.state = (if s.time.state = 2 ∧ s.time.gm = c.gm.toNat then 2 else 1) ∧ u.mem = s.mem)) ∧
      (∀ m : PtpMsg, ptpHead m = h → (∀ c, m ≠ .announce h c) →
        exec (.ptpMessage port m) s = .next (ptpExchange s port m)) ∧
      (∀ (received asker : BitVec 80) (q : PtpParent) (t1 t2 t3 : Int), s.time.parent = some q → q.port = port.val →
        q.source = h.source.toNat → setting s 0x1200 7 = 0 → s.time.ptp.asked = some (h.seq.toNat, t3) →
        asker.toNat = ptpPort port → s.time.ptp.sync = some (t1, t2) →
        let t4 := stampTime received - corrOf h + asymmetry s port
        exec (.ptpMessage port (.delayResp h received asker)) s =
          .next (useDelay (putPtp s { s.time.ptp with asked := none }) (((t2 - t1) + (t4 - t3)) / 2)))) ∧
    (s.time.state = 2 → ∃ u, exec .announceTimeout s = .next u ∧ u.time.state = 3 ∧ u.time.holdoverFrom = s.ao ∧
      u.time.s = s.time.s ∧ u.time.ns = s.time.ns ∧ u.mem = s.mem) ∧
    (s.time.state = 3 → ∃ u, exec .holdoverLimit s = .next u ∧ u.time.state = 0 ∧ u.time.locked = false ∧
      u.time.s = s.time.s ∧ u.time.ns = s.time.ns ∧ u.mem = s.mem)

/-! ## Partitions -/

/-- R390, R391: the commands of a partition in the states that allow them: FORM takes the committed resources, START
begins the job at the agreed step once the tables can be read and are accepted, STOP leaves it STOPPED, DISSOLVE
returns what it holds. R406, R390: PREEMPT asks a RUNNING partition to pause at its next boundary; RESUME lets a
PREEMPTED one run; RESTART of a RUNNING partition arises as a cause, and of a HELD one begins a restart with its
attempts at 0. -/
def Obligations.PartitionCommandsChangeItsState : Prop :=
  (∀ (s : State) (p : Fin 16), cmdReady s = true →
     let q := getPart s p
     (q.state = .unformed → mayForm s p (committedPart s p) = true →
       exec (.form p) s = .next (beginForm s p (committedPart s p))) ∧
     (∀ s1 s2 s0, q.state = .stopped → s.panel.removal = 0 → calm s = true →
       s.sched.doorbells.any (fun x => x.1 == 4 && x.2.1 == p.val) = false → readUpdTable s p = (s1, true) →
       loadTable s1 p = (s2, true) → agreedFirst s q = some s0 → exec (.start p) s = .next (startJob s2 p s0)) ∧
     (q.state = .running ∨ q.state = .preempted ∨ q.state = .held →
       ∃ u, exec (.stop p) s = .next u ∧ u = stopPart s p ∧ (getPart u p).state = .stopped ∧ (getPart u p).causes = []) ∧
     (q.state = .stopped → exec (.dissolve p) s = .next (dissolvePart s p))) ∧
  (∀ (s : State) (p : Fin 16), cmdReady s = true →
     let q := getPart s p
     (q.state = .running → ∃ u, exec (.preempt p) s = .next u ∧ (getPart u p).preemptAsked = true ∧
       0 ∈ (getPart u p).preemptBy ∧ u.mem = s.mem) ∧
     (q.state = .preempted → s.panel.removal = 0 → ∃ u, exec (.resume p) s = .next u ∧ (getPart u p).state = .running ∧
       (getPart u p).preemptAsked = false ∧ (getPart u p).step = q.step ∧ u.mem = s.mem) ∧
     (q.state = .running → ∃ u code, exec (.restart p) s = .next u ∧ (getPart u p).causes = q.causes ++ [code] ∧
       code < 65536 ∧ u.mem = s.mem) ∧
     (q.state = .held → ∃ u, exec (.restart p) s = .next u ∧ (getPart u p).state = .restarting ∧
       (getPart u p).attempts = 0 ∧ u.mem = s.mem))

/-- R395: the causes of a RUNNING partition within its attempts make one restart of its step. R393: more causes than the
limit, or one that holds, make it HELD under that cause, with its watches cancelled. R395: with the writes that step 2 left
written and memory at rest, a restart that has not rolled back does so; with that done, its replacements there and its
bound flows UP, one that names no restart item lets the streams run from their marks, in
a replay that is PER-BLOCK (R128), PREEMPTED if it was. R21 to R23: a boundary that is reached ends the step: the next one is
the current step, its attempts, its recurrences and its replay start anew, and the ledger of the step is forgotten; one
that is not reached leaves everything as it is. -/
def Obligations.RestartsAndBoundariesAreCarriedOut : Prop :=
  ∀ (s : State) (p : Fin 16),
    let q := getPart s p
    (∀ c l, q.state = .running → q.causes = c :: l → q.causes.all (fun c => decide (c < 65536)) = true →
      (q.attempts + 1 ≤ settingAt s (1 + p) 0x3007 (p + 1) →
        exec (.partitionRestart p) s = .next (finishRestart (restartPart s p c) p)) ∧
      (settingAt s (1 + p) 0x3007 (p + 1) < q.attempts + 1 →
        ∃ u, exec (.partitionRestart p) s = .next u ∧ (getPart u p).state = .held ∧ (getPart u p).causes = [] ∧
          (getPart u p).lastCause = c % 65536 ∧ (getPart u p).preemptAsked = false ∧
          ∀ w ∈ u.sync.armed, w.part ≠ p.val)) ∧
    (∀ h, q.state = .running → q.causes.find? (fun c => decide (65536 ≤ c)) = some h →
      ∃ u, exec (.partitionRestart p) s = .next u ∧ (getPart u p).state = .held ∧ (getPart u p).causes = [] ∧
        (getPart u p).lastCause = h % 65536 ∧ ∀ w ∈ u.sync.armed, w.part ≠ p.val) ∧
    (q.state = .restarting → q.causes = [] → flowsUp s p = true → settled s p = true → q.rolling = true → calm s = true →
      exec (.partitionRestart p) s = .next (rollBack p s)) ∧
    (q.state = .restarting → q.causes = [] → q.awaiting = [] → flowsUp s p = true → settled s p = true →
      q.rolling = false → setting s 0x3006 (p + 1) = 0 →
      ∃ u, exec (.partitionRestart p) s = .next u ∧
        (getPart u p).state = (if q.resumePreempted = true then .preempted else .running) ∧
        (getPart u p).replay = true ∧ (getPart u p).perBlock = true ∧ (getPart u p).step = q.step ∧
        (getPart u p).attempts = q.attempts ∧ u.mem = s.mem ∧ u.tiles = s.tiles ∧ u.sync = s.sync) ∧
    (q.state = .running → calm s = true → boundaryReached s p = true →
      ∃ u, exec (.stepBoundary p) s = .next u ∧ u = passBoundary s p ∧ (getPart u p).step = q.step + 1 ∧
        (getPart u p).attempts = 0 ∧ (getPart u p).recur = [] ∧ (getPart u p).replay = false ∧
        (getPart u p).reload = false ∧ ∀ l ∈ u.lft.ledger, l.part = p.val → l.step ≠ q.step) ∧
    ((q.state ≠ .running ∨ (calm s = true ∧ boundaryReached s p = false)) → exec (.stepBoundary p) s = .next s)

/-- R400: an answered probe of a served unit clears its misses, a missed one counts, and at the limit the unit is dead.
R402: an awaited tile gets the pool's tile once no cause waits for its restart and that has rolled back. R401, R403, R404: a retire request waits for its partition's boundary, tests
of pool tiles begin, and a passed test of a tile that serves no slot puts it into the pool, where no slot is owed one. -/
def Obligations.UnitsAreProbedReplacedAndTested : Prop :=
  (∀ (s : State) (u : Fin 264), (servedBy s u).any (jobRuns s) = true → getDom s (unitDom s u) < 2 →
    s.units.out.contains u.val = false → (u.val < 64 → tilePresent s u = true) →
    (∃ v, exec (.healthProbe u true) s = .next v ∧ v.units.misses = mset 0 s.units.misses u 0 ∧ v.mem = s.mem) ∧
    (let m := mget 0 s.units.misses u + 1
     (m < setting s 0x300A 2 → ∃ v, exec (.healthProbe u false) s = .next v ∧
       v.units.misses = mset 0 s.units.misses u m ∧ v.units.out = s.units.out) ∧
     (setting s 0x300A 2 ≤ m →
       exec (.healthProbe u false) s = .next (declareDead (takeSettings s 0 [0x300A]) u)))) ∧
  (∀ (s : State) (t : Fin 64) (p : Nat) (s2 : State),
    (upFrom 0 16).find? (fun p => (getPart s p).awaiting.contains t.val) = some p →
    (getPart s p).causes = [] → (getPart s p).rolling = false →
    let s1 := putPart s p { getPart s p with awaiting := (getPart s p).awaiting.filter (· != t.val) }
    takeReplacement s1 t p = (s2, true) →
    let s3 := addCtr s2 (0x4D00 + p) 4 1
    exec (.replacementReady t) s = .next (finishRestart (putPart s3 p { getPart s3 p with
      replaced := (getPart s3 p).replaced ||| 2 ^ t.val }) p)) ∧
  (∀ (s : State) (t : BitVec 8) (p : Nat), tilePresent s t.toNat = true → partOfTile s t.toNat = some p →
    ∃ u, exec (.retireRequest t) s = .next u ∧ t.toNat ∈ (getPart u p).retire ∧ u.units = s.units ∧ u.mem = s.mem) ∧
  (∀ (s : State) (ph : BitVec 8), ph.toNat < 68 → bitSet (poolOf s (ph.toNat / 17)) (ph.toNat % 17) = true →
    s.units.testing.contains ph.toNat = false → mfind s.power.entering (16 + ph.toNat / 17) = none →
    ∃ u, exec (.testRequest ph) s = .next u ∧ u.units.testing = s.units.testing ++ [ph.toNat] ∧
      u.tiles = s.tiles ∧ u.parts = s.parts) ∧
  (∀ (s : State) (d : Fin 4), mfind s.power.entering (16 + d) = none → ∃ u, exec (.poolTestTimer d) s = .next u ∧
    (∀ nn, nn < 17 → bitSet (poolOf s d) nn = true → 17 * d.val + nn ∈ u.units.testing) ∧ u.parts = s.parts) ∧
  (∀ (s : State) (ph : Fin 68), ph.val ∈ s.units.testing → logicalOf s ph = none → s.units.owed = [] →
    ∃ u, exec (.selfTestDone ⟨ph.val, by omega⟩ true) s = .next u ∧
      bitSet (poolOf u (ph / 17)) (ph % 17) = true ∧ u.units.testing = s.units.testing.filter (· != ph.val) ∧
      u.units.switched = s.units.switched.filter (· != ph.val))

/-! ## Power -/

/-- R411 to R413: a sample of a powered module is kept with its runs and band; an input fault found by the samples is
counted, powers the switched domains down and loses T0 and T1; the end of the kennel save turns the module off. -/
def Obligations.InputIsSampledAndItsFaultsShutDown : Prop :=
  (∀ (s : State) (mv ma : BitVec 32), poweredOn s = true →
    ∃ u, exec (.inputSample mv ma) s = .next u ∧ u.power.mv = mv.toNat ∧ u.power.ma = ma.toNat ∧
      u.power.lowRun = (if mv.toNat < 39000 then s.power.lowRun + 1 else 0) ∧
      u.power.overRun = (if 120000 < ma.toNat then s.power.overRun + 1 else 0) ∧
      u.dev.inputOk = (decide (40000 ≤ mv.toNat) && decide (mv.toNat ≤ 54000)) ∧ u.mem = s.mem ∧ u.parts = s.parts) ∧
  (∀ (s : State), s.power.faultCause ≠ 0 → poweredOn s = true →
    ∃ u, exec .inputFault s = .next u ∧ u.dev.phase = .saving ∧ u.mem = [] ∧ u.parts = [] ∧ u.power.faultCause = 0 ∧
      (∀ i, i < 48 → i ≠ 46 → getDom u i = 4) ∧ u.log.next = s.log.next + 1 ∧ u.fw = (finishFlash s).fw) ∧
  (∀ (s : State), s.dev.phase = .saving → (s.dev.pwrEn && s.dev.inputOk) = false →
    ∃ u, exec .kennelSaveDone s = .next u ∧ u.dev.phase = .off ∧ u.power.holdup = s.power.holdup ∧ u.dap.sessions = [] ∧
      (∀ i, i < 48 → getDom u i = 4) ∧ u.fw = s.fw)

/-- R426 to R428: ten evaluations in a row above the cap raise the stage by one, ten evaluations after the last step; a
module below its cap that may not step up keeps its stage. R443: a charged hold-up store writes the kept settings. -/
def Obligations.TheCapSetsTheStage : Prop :=
  (∀ (s : State) (a : BitVec 32),
    let s1 := putPower s { s.power with arrayMw := a.toNat }
    (capMw s1 < inputMw s1 → 9 ≤ s.power.overCap → 9 ≤ s.power.sinceStep → s.power.stage < 3 →
      ∃ u, exec (.powerEvaluation a) s = .next u ∧ u.power.stage = s.power.stage + 1 ∧ u.power.overCap = 0 ∧
        u.power.sinceStep = 0 ∧ u.mem = s.mem ∧ u.tiles = s.tiles) ∧
    (inputMw s1 ≤ capMw s1 → mayStepUp s1 = false →
      ∃ u, exec (.powerEvaluation a) s = .next u ∧ u.power.stage = s.power.stage ∧ u.power.overCap = 0 ∧
        u.power.underCap = 0 ∧ u.mem = s.mem ∧ u.tiles = s.tiles)) ∧
  (∀ (s : State), ∃ u, exec .holdupCharged s = .next u ∧ u.power.holdup = max 85 s.power.holdup ∧
    u.settings.flashWaiting = [] ∧ u.settings.committed = s.settings.committed ∧ u.mem = s.mem)

/-- R416, R418: the timer of a state of an idle domain commits it to the state where the floor allows that, and waits for
the floor, or for the end of another entry, where it does not; any other timer leaves the domain as it is, and a domain that
is not idle has taken its new timers (R433). R420, R421: a wake starts the exit of a domain in DOZE, NAP or
SLEEP, is held during an entry, ends the idle spell of an ACTIVE domain, and changes nothing of one that is OFF or on its way
out. R421: an entry ends in
its state, and a wake that it held starts the exit at once. R423, R424: NAP empties a tile's panels and buffers, SLEEP also
its store. R420 to R422: an exit ends in ACTIVE, with the misses of the domain's units forgotten; then what waited for the
domain's lines is served. -/
def Obligations.DomainsEnterAndLeaveTheirStates : Prop :=
  ∀ (s : State) (i : Fin 48),
    (∀ k : Fin 4,
      let s0 := takeTimers s i
      let due := hasState (domClass i) k && decide (settingAt s0 (i + 1) (0x2100 + domClass i) k ≠ 0) &&
        domIdle s0 i (decide (2 ≤ k.val)) && !s.power.exiting.contains i.val && decide (getDom s i < k.val) &&
        decide (mget 0 s.power.entering i < k.val)
      (due = true → k ≤ domFloor s0 i → mfind s.power.entering i = none →
        ∃ u, exec (.idleTimerExpiry i k) s = .next u ∧ mfind u.power.entering i = some k.val ∧
          (∀ j, j ≠ i.val → mfind u.power.entering j = mfind s.power.entering j) ∧ getDom u i = getDom s i ∧
          u.mem = s.mem ∧ u.tiles = s.tiles ∧ u.parts = s.parts) ∧
      (due = true → domFloor s0 i < k ∨ (mfind s.power.entering i).isSome = true →
        ∃ u, exec (.idleTimerExpiry i k) s = .next u ∧ bitSet (mget 0 u.power.blocked i) k = true ∧
          u.power.entering = s.power.entering ∧ u.power.dom = s.power.dom ∧ u.mem = s.mem ∧ u.tiles = s.tiles) ∧
      (due = false → exec (.idleTimerExpiry i k) s = .next s0)) ∧
    (mfind s.power.entering i = none → s.power.exiting.contains i.val = false →
      (0 < getDom s i → getDom s i ≠ 4 →
        ∃ u, exec (.domainWake i) s = .next u ∧ u.power.exiting = s.power.exiting ++ [i.val] ∧ u.power.dom = s.power.dom ∧
          u.mem = s.mem ∧ u.tiles = s.tiles ∧ u.parts = s.parts) ∧
      (getDom s i = 0 → ∃ u, exec (.domainWake i) s = .next u ∧ mfind u.power.blocked i = none ∧
        i.val ∉ u.power.resting ∧ u.power.dom = s.power.dom ∧ u.power.exiting = s.power.exiting) ∧
      (getDom s i = 4 → exec (.domainWake i) s = .next s)) ∧
    (mfind s.power.entering i = none → s.power.exiting.contains i.val = true → exec (.domainWake i) s = .next s) ∧
    (∀ st, mfind s.power.entering i = some st →
      (∃ u, exec (.domainWake i) s = .next u ∧ i.val ∈ u.power.woken ∧ u.power.exiting = s.power.exiting ∧
        u.power.dom = s.power.dom ∧ u.mem = s.mem ∧ u.tiles = s.tiles ∧ u.parts = s.parts) ∧
      (∃ u, exec (.stateEntryDone i) s = .next u ∧ getDom u i = st ∧ mfind u.power.entering i = none ∧
        i.val ∉ u.power.woken ∧ u.parts = s.parts ∧
        (s.power.woken.contains i.val = false → u.power.exiting = s.power.exiting) ∧
        (s.power.woken.contains i.val = true → s.power.exiting.contains i.val = false → 0 < st → st < 4 →
          u.power.exiting = s.power.exiting ++ [i.val]) ∧
        (st = 1 → u.tiles = s.tiles) ∧
        (st = 2 ∨ st = 3 → domClass i = 0 → ∀ t ∈ domTiles s i,
          (getTile u t).panels = [] ∧ (getTile u t).halves = [] ∧
          (st = 3 → ∀ b, b < storeBytes → readByte u (tileAddr t b) = 0)))) ∧
    (mfind s.power.entering i = none → exec (.stateEntryDone i) s = .next s) ∧
    (s.power.exiting.contains i.val = true →
      ∃ v, exec (.stateExitDone i) s = .next (serveParked v) ∧ getDom v i = 0 ∧ i.val ∉ v.power.exiting ∧
        (∀ n ∈ domUnits s i, mget 0 v.units.misses n = 0) ∧ v.tiles = s.tiles ∧ v.parts = s.parts) ∧
    (s.power.exiting.contains i.val = false → exec (.stateExitDone i) s = .next s)

/-- R430 to R432: a GDDR7 reading is kept; a die at or above its next threshold rises one level; a coolant sample is kept
with its range flags; a critical condition powers the switched domains down and loses memory, and a module that has FAILED stays so (R444). -/
def Obligations.HeatIsReportedAndLimited : Prop :=
  (∀ (s : State) (d : Fin 51) (c : Int), 11 ≤ d.val →
    exec (.thermalReport d c) s = .next (putPower s { s.power with gddrC := mset 0 s.power.gddrC (d - 11) c })) ∧
  (∀ (s : State) (d : Fin 51) (c th : Int), d.val < 11 →
    let l := mget 0 s.power.level d
    (levelAt d)[l]? = some th → th ≤ c →
    ∃ u, exec (.thermalReport d c) s = .next u ∧ mget 0 u.power.level d = l + 1 ∧ u.mem = s.mem ∧ u.tiles = s.tiles) ∧
  (∀ (s : State) (f : BitVec 32) (c : Int),
    ∃ u, exec (.coolantSample f c) s = .next u ∧ u.power.flow = f.toNat ∧ u.power.inlet = c ∧
      u.power.flowLow = decide (f.toNat < 4500) ∧ u.power.inletHigh = decide (40000 < c) ∧ u.mem = s.mem) ∧
  (∀ (s : State) (k : Fin 3) (n : Fin 64), poweredOn s = true → s.dev.phase ≠ .critical → isCritical s k n = true →
    ∃ u, exec (.thermalCritical k n) s = .next u ∧ u.mem = [] ∧
      u.dev.phase = (if s.dev.phase = .failed ∨ s.dev.phase = .failedRom then s.dev.phase else .critical) ∧
      (∀ i, i < 48 → i ≠ 46 → getDom u i = 4) ∧ u.log.next = s.log.next + 1)

/-! ## Start-up and reset -/

/-- R435, R436: PWR_EN rising with the input in range, for 100 ms after an input fault (R412; counted in samples,
the model's reading, log 24), begins a cold start, falling shuts the module down; RST_N low requests a warm reset of
a READY module, high releases a held start. R445: a write of 1 to dev.reset of a READY module requests a warm reset
and changes nothing else; the reset powers the domains off and, with RST_N high, runs the sequence from step 3. -/
def Obligations.PinsAndWarmResetsAct : Prop :=
  (∀ (s : State),
     (s.dev.pwrEn = false → s.dev.phase = .off → s.dev.inputOk = true →
       (s.power.faulted = false ∨ 10001 ≤ s.power.okRun) →
       ∃ u, exec .pwrEnHigh s = .next u ∧ u.dev.phase = .powered ∧ u.dev.pwrEn = true ∧ u.dev.lastReset = 1 ∧
         u.dev.warm = false ∧ u.settings = s.settings) ∧
     (poweredOn s = true → ∃ u, exec .pwrEnLow s = .next u ∧ u.dev.phase = .saving ∧ u.dev.pwrEn = false ∧ u.mem = [] ∧
       u.log = s.log) ∧
     (s.dev.phase = .ready → ∃ u, exec .rstNLow s = .next u ∧ u.dev.rstN = false ∧ u.dev.resetDue = 2 ∧
       u.dev.phase = .ready ∧ u.mem = s.mem ∧ u.parts = s.parts) ∧
     (s.dev.phase = .heldReset → ∃ u, exec .rstNHigh s = .next u ∧ u.dev.rstN = true ∧ u.dev.phase = .sensed ∧
       u.mem = s.mem)) ∧
  ((∀ (s : State), s.dev.phase = .ready →
     exec (.devReset 1) s = .next (putDev s { s.dev with resetDue := 3 })) ∧
   (∀ (s : State) (slot : BitVec 6) (svc : Bool) (fail : Fin 13) (detail : BitVec 32), s.dev.resetDue ≠ 0 →
     s.dev.rstN = true →
     let s1 := warmOff s
     s1.mem = [] ∧ s1.parts = [] ∧ s1.dev.lastReset = s.dev.resetDue ∧ s1.dev.resetDue = 0 ∧
     exec (.warmReset slot svc fail detail) s =
       .next (runFrom3 (putDev s1 { s1.dev with slotId := slot.toNat }) svc fail detail.toNat)))

/-- R438 to R443: a powered module with RST_N high and a good image runs steps 2 to 6; SVC released at step 3 lets it go on;
training, the PTP wait and the READY step complete their parts of the sequence. R440: SVC held too long enters recovery. -/
def Obligations.TheStartSequenceReachesReady : Prop :=
  (∀ (s : State) (slot : BitVec 6) (detail : BitVec 32), s.dev.phase = .powered → s.dev.rstN = true →
    let s1 := step2 s slot.toNat
    let s2 := stampStep (setDom (putDev s1 { s1.dev with svc := false }) 46 0) 3
    romCheck s2 s2.fw.active = 0 →
    exec (.coldStart slot false 0 detail) s = .next (step6 (step5 (stampStep s2 4) s2.fw.active none))) ∧
  (∀ (s : State), s.dev.phase = .heldSvc →
    (∃ u, exec .svcPowerUpRelease s = .next u ∧ u.dev.phase = .romStart ∧ u.dev.svc = false ∧ u.fw = s.fw) ∧
    (∃ u, exec .romRecovery s = .next u ∧ u.dev.phase = .recovery ∧ u.log.next = s.log.next + 1 ∧ u.fw = s.fw)) ∧
  (∀ (s : State), s.dev.phase = .bringup →
    (bitSet s.dev.steps 0 = false → s.dev.groups = 0xFFFFF →
      ∃ u, exec (.gddr7TrainingDone 0) s = .next u ∧ u.dev.steps = s.dev.steps ||| 1 ∧ u.dev.groups = 0xFFFFF ∧
        u.log = s.log) ∧
    (bitSet s.dev.steps 3 = false →
      ∃ u, exec .ptpWaitExpiry s = .next u ∧ u.dev.steps = s.dev.steps ||| 8 ∧ u.mem = s.mem) ∧
    (s.dev.steps = 15 → ∃ u, exec .bootReady s = .next u ∧ u.dev.phase = .ready ∧ u.log.next = s.log.next + 1 ∧
      (∀ i, i < 20 → getDom u i = 4)))

/-! ## The management dictionary's protocol -/

/-- R452 to R455: an acceptable HELLO opens a handshake with the next number and is answered; a KEY whose signature
verifies makes the session ready with the lower of the requested and the entitled role, any other is refused; the
timeouts end a handshake or a session. -/
def Obligations.HandshakesOpenSessions : Prop :=
  (∀ (s : State) (via : Fin 129) (src : DapSource) (nonce : BitVec 256) (vs : BitVec 16) (role : BitVec 8) (key : List Byte),
    dapServed s = true → viaServed s via src = true → key.length = 2592 → vs.toNat &&& setting s 0x1100 1 ≠ 0 →
    openCount s < setting s 0x1100 0x0C → (s.dap.sessions.filter (fun x => !x.ready)).length < 16 →
    ∃ u x, exec (.dapHello via src nonce vs role key) s = .next u ∧ u.dap.sessions = s.dap.sessions ++ [x] ∧
      x.number = s.dap.nextSession ∧ x.ready = false ∧ x.asked = role.toNat ∧ x.key = key ∧ x.via = via.val ∧ x.src = src ∧
      x.role = 0 ∧ x.version = 1 ∧
      u.dap.nextSession = (s.dap.nextSession + 1) % 2 ^ 32 ∧ u.mem = s.mem) ∧
  (∀ (s : State) (came : DapArrival) (ct sig : List Byte) (x : Session), handshakeOf s came = some x →
    ct.length = 1568 →
    let h := Config.sha3 (x.bodies ++ ct)
    let e := entitled s x.key x.via
    openCount s < setting s 0x1100 0x0C →
    let y : Session := { x with
      ready := true, role := min x.asked e, out := 2, bodies := [], pair := 0
      keys := Config.shake64 (Config.kemSecret x.pair ct ++ h) }
    exec (.dapKey came ct sig) s = .next (
      if Config.verifies "LZ-DAP-1" x.key h sig = true ∧ e ≠ 0 then
        sendDap (addCtr (putSession s y) 0x4C01 1 1)
          (sessionOut s y 4 1 false (toBytesBE 1 (min x.asked e) ++ toBytesBE 2 (setting s 0x1100 0x0B)))
      else refuseKey s x 11)) ∧
  (∀ (s : State) (n : BitVec 32) (x : Session), getSession s n.toNat = some x →
    (x.ready = false → exec (.handshakeTimeout n) s = .next (endSession s x.number)) ∧
    (x.ready = true → exec (.idleTimeout n) s = .next (endSession s x.number)))

/-- R450, R451, R469: a well-formed frame whose tag opens joins its message, another counts as a failed tag; the segments of a message that is not complete
in time are dropped; unacknowledged events are sent again. -/
def Obligations.FramesJoinTheirMessages : Prop :=
  ∀ (s : State) (x : Session),
    (∀ (came : DapArrival) (payload tag : List Byte),
      let h := came.header.toNat
      headOk h payload.length = true →
      (getSession s (bits h 95 64) = some x → x.ready = true → dapServed s = true → viaServed s came.via came.src = true →
        bits h 127 124 = x.version → bits h 16 16 = 1 →
        exec (.dapFrameReceived came payload tag) s =
          .next (match Config.gcmOpen (x.keys.take 32) (gcmNonce 0 h) (toBytesBE 16 h) payload tag with
            | some pl => joinSegment s { x with via := came.via.val, src := came.src } h pl
            | none => tagFailed s x)) ∧
      (bits h 16 16 = 0 → exec (.dapFrameReceived came payload tag) s = .next (openFrame s came payload))) ∧
    (∀ n q : BitVec 32, getSession s n.toNat = some x →
      ∃ u, exec (.reassemblyTimeout n q) s = .next u ∧
        getSession u n.toNat = some { x with segs := x.segs.filter (fun g => g.1 != q.toNat) } ∧
        ∀ g ∈ u.dap.segs, bits g.1.header.toNat 95 32 ≠ n.toNat * 2 ^ 32 + q.toNat) ∧
    (∀ (n : BitVec 32) (u : Subscription), getSession s n.toNat = some x → x.sub = some u →
      exec (.eventResendTimer n) s =
        .next (resendEvents s n.toNat (u.unacked.filterMap (fun k =>
          (s.log.ring.find? (fun e => e.seq == k.1)).map (fun e => (e, k.2))))))

/-- R455 to R457, R463, R467, R469: every message that comes in its turn is executed, with those held behind it; what
READ, DISCARD, PING and CLOSE do. -/
def Obligations.MessagesInTurnAreExecuted : Prop :=
  ∀ (s : State) (n q : BitVec 32) (x : Session), InTurn s n.toNat q.toNat x →
    let runs := fun (c : Instr) (m : DapMsg) =>
      exec c s = .next (drainHeld 8 (runInSession s n.toNat q.toNat m) n.toNat)
    (∀ l, runs (.read n q l) (.read l)) ∧ (∀ l, runs (.write n q l) (.write l)) ∧ runs (.commit n q) .commit ∧
    runs (.discard n q) .discard ∧ (∀ t, runs (.confirm n q t) (.confirm t)) ∧
    (∀ m v f, runs (.subscribe n q m v f) (.subscribe m v f)) ∧ (∀ a, runs (.eventAck n q a) (.eventAck a)) ∧
    runs (.ping n q) .ping ∧ runs (.close n q) .close ∧
    (∀ l : List ReadItem, l ≠ [] → l.length ≤ 64 → (runMsg s x (.read l)).1 = s ∧
      (runMsg s x (.read l)).2.2 = l.flatMap (fun i => (readItem s x i).2)) ∧
    (2 ≤ x.role → runMsg s x .discard = (putSession s { x with staged := [] }, 0, [])) ∧
    runMsg s x .ping = (s, 0, []) ∧ getSession (runInSession s n.toNat q.toNat .close) n.toNat = none

/-- R459 to R462, R470, R481, R508: a write to a writable setting of the dictionary stands among the settings, a staged one
in its session alone; entry and first_step of a stopped stream and the clearing of a fault record; alert_clear; a nonce
begins a report and its signing ends it. -/
def Obligations.RegistersAndReportsTakeTheirWrites : Prop :=
  (∀ (s : State) (n : BitVec 32) (idx : BitVec 16) (sub : BitVec 8) (data : List Byte) (x : Session) (r : ObjRow),
    getSession s n.toNat = some x → objFor s idx.toNat sub.toNat true = some r → roleMay x.role idx.toNat = true →
    lengthFits r.typ data = true → rangeOk r idx.toNat sub.toNat (decodeVal r.typ data) = true →
    let k := objKey idx.toNat sub.toNat
    (r.acc = 1 → idx.toNat ≠ 0x8000 → idx.toNat ≠ 0x8100 → k ≠ objKey 0x6000 1 →
      ∃ u, exec (.registerWrite (.object n idx sub data)) s = .next u ∧
        mfind u.settings.committed k = some (decodeVal r.typ data) ∧ u.dap = s.dap ∧ u.mem = s.mem ∧ u.log = s.log ∧
        ∀ k', k' ≠ k → mfind u.settings.committed k' = mfind s.settings.committed k') ∧
    (r.acc = 3 → ∃ u y, exec (.registerWrite (.object n idx sub data)) s = .next u ∧ getSession u n.toNat = some y ∧
      mfind y.staged k = some (decodeVal r.typ data) ∧ u.settings = s.settings ∧ u.mem = s.mem)) ∧
  (∀ (s : State) (t : Fin 64) (x : Stream) (a v : BitVec 64), tilePresent s t = true →
    jobStopped s t = true →
    let c := getCtl (getTile s t) x
    exec (.registerWrite (.entry t x a)) s = .next (putTile s t (putCtl (getTile s t) x { c with entry := a.toNat })) ∧
    exec (.registerWrite (.firstStep t x v)) s =
      .next (putTile s t (putCtl (getTile s t) x { c with firstStep := v.toNat })) ∧
    exec (.registerWrite (.faultValid t false)) s =
      .next (putTile s t { getTile s t with fault := { (getTile s t).fault with valid := false } })) ∧
  (∀ (s : State), exec (.alertClear 1) s = .next (putLog s { s.log with alertLow := false })) ∧
  (∀ (s : State) (n : BitVec 32) (nonce : BitVec 256) (x : Session), getSession s n.toNat = some x →
    exec (.attNonce n nonce) s =
      .next (putSession s { x with attState := 1, attNonce := toBytesBE 32 nonce.toNat, attReport := [] }) ∧
    (x.attState = 1 → exec (.attReportBuilt n true) s =
      (let b := attBody s x.attNonce
       .next (putSession s { x with attState := 2, attReport := b ++ Config.identitySign "LZ-ATT-1" (Config.sha3 b) }))))

/-- R462, R482, R506: the settings that wait are programmed once the store holds 85 %; so is the oldest retirement of a
die's remap row, with 40.5 V at the input. -/
def Obligations.FlashAndFuseRowsAreProgrammed : Prop :=
  (∀ (s : State), s.settings.flashWaiting ≠ [] → 85 ≤ s.power.holdup →
    exec .flashSettingsProgram s =
      .next (addCtr (putSettings s { s.settings with flashWaiting := [] }) 0x4000 5 1)) ∧
  (∀ (s : State) (d : Fin 4) (x : Nat), s.dap.remapDue.find? (fun x => x / 32 == d.val) = some x →
    let old := setting s 0x1303 (d + 1)
    fuseLeft s 0x1303 (d + 1) ≠ 0 → bitSet old (x % 32) = false → 85 ≤ s.power.holdup → 40500 ≤ s.power.mv →
    exec (.moduleRemapWrite d) s = .next (programFuse
      (putDap s { s.dap with remapDue := s.dap.remapDue.filter (· != x) }) 0x1303 (d + 1)
      (.num ((old + 2 ^ (x % 32) : Nat) : Int))).1)

/-- R498 to R500: what the steps of an update do when none of the module's conditions refuses them: begin, block, program,
manifest, activate, verification, activation and abort. -/
def Obligations.FirmwareIsReceivedVerifiedAndActivated : Prop :=
  ∀ (s : State), updateRefusal s = 0 →
    (∀ (n : BitVec 32), isOwner s n.toNat = true → (s.fw.update = 0 ∨ s.fw.owner = n.toNat) →
      (∀ (slot : BitVec 8) (len : BitVec 32), s.fw.update = 0 → slot.toNat < 2 → slot.toNat ≠ s.fw.active →
        65536 ≤ len.toNat → len.toNat ≤ 31457280 → len.toNat % 65536 = 0 →
        ∃ u, exec (.fwUpdateBegin n slot len) s = .next u ∧ u.fw.update = 1 ∧ u.fw.target = slot.toNat ∧
          u.fw.length = len.toNat ∧ u.fw.owner = n.toNat ∧ slotState u slot.toNat = 1 ∧ u.fw.active = s.fw.active ∧
          u.mem = s.mem) ∧
      (∀ (block : BitVec 16) (half : BitVec 8) (crc : BitVec 32) (data : List Byte), s.fw.update = 1 →
        data.length = 32768 → half.toNat < 2 → block.toNat < s.fw.length / 65536 → s.fw.queue.length < 8 →
        let other := mfind s.fw.halves (2 * block.toNat + (1 - half.toNat))
        (other = none → exec (.fwUpdateBlock n block half crc data) s =
          .next (putFw s { s.fw with
            halves := mput s.fw.halves (2 * block.toNat + half.toNat) (crc.toNat, data) })) ∧
        (∀ first, half.toNat = 1 → other = some (crc.toNat, first) → crc32c (first ++ data) = crc.toNat →
          ∃ u, exec (.fwUpdateBlock n block half crc data) s = .next u ∧
            u.fw.queue = s.fw.queue ++ [(block.toNat, first ++ data)] ∧ u.fw.blocks = s.fw.blocks)) ∧
      (∀ m, s.fw.update = 1 →
        exec (.fwUpdateManifest n m) s = .next (putFw s { s.fw with manifest := m })) ∧
      (s.fw.update = 1 → ∃ u, exec (.fwUpdateActivate n 1) s = .next u ∧ u.fw.update = 2 ∧
        slotState u s.fw.target = 2 ∧ u.fw.active = s.fw.active) ∧
      (s.fw.update = 3 → exec (.fwUpdateActivate n 1) s = .next (putFw s { s.fw with update := 4 })) ∧
      (s.fw.update = 1 ∨ s.fw.update = 2 ∨ s.fw.update = 3 → ∃ u, exec (.fwUpdateAbort n 1) s = .next u ∧
        u.fw.update = 0 ∧ u.fw.queue = [] ∧ u.fw.manifest = [] ∧ u.fw.active = s.fw.active ∧ u.mem = s.mem)) ∧
    (∀ b data rest, s.fw.queue = (b, data) :: rest → ∃ u, exec .fwBlockProgrammed s = .next u ∧ u.fw.queue = rest ∧
      mfind u.fw.blocks (512 * s.fw.target + b) = some data ∧ b ∈ u.fw.counted ∧ u.fw.manifest = s.fw.manifest) ∧
    (s.fw.update = 2 →
      let why := (imageCheck s s.fw.target s.fw.manifest (some s.fw.length) s.fw.counted.length).1
      ∃ u, exec .fwVerifyDone s = .next u ∧ u.fw.active = s.fw.active ∧
        (why = 0 → u.fw.update = 4 ∧ slotState u s.fw.target = 3 ∧
          mfind u.fw.manifests s.fw.target = some s.fw.manifest) ∧
        (why ≠ 0 → slotState u s.fw.target = 4 ∧ u.fw.update = (if why = 7 then 1 else 0) ∧
          u.log.next = s.log.next + 1)) ∧
    (s.fw.update = 4 → s.dev.phase ≠ .recovery → ∃ u, exec .fwActivation s = .next u ∧ u.fw.update = 0 ∧
      u.fw.active = s.fw.target ∧ u.fw.running = s.fw.target ∧ u.dap.sessions = [] ∧ u.mem = s.mem ∧
      u.parts = s.parts)

/-! ## The front panel, insertion and tracing -/

/-- R488, R512, R516, R518, R520, R491: identify and the LED test, a handling sample above its limit, the seating of a
module that is off, the management link, and the arming of the trace. -/
def Obligations.PanelPortAndTraceCommandsAct : Prop :=
  ∀ (s : State),
    (∀ v : BitVec 16, 1 ≤ v.toNat → v.toNat ≤ 3600 → ∃ u, exec (.identifyWrite v) s = .next u ∧
      u.panel.identify = s.ao + 100000000 * v.toNat ∧ u.log.next = s.log.next + 1 ∧ u.mem = s.mem) ∧
    exec (.identifyWrite 0) s = .next (putFront s { s.panel with identify := 0 }) ∧
    exec .identifyExpiry s = .next (putFront s { s.panel with identify := 0 }) ∧
    (firmwareRuns s = true → bitSet (setting s 0x6000 2) 0 = true → ∃ u, exec .svcShortPress s = .next u ∧
      u.panel.identify = (if identifyLeft s = 0 then s.ao + 6000000000 else 0) ∧ u.mem = s.mem) ∧
    exec (.ledTest 1) s = .next (putFront s { s.panel with ledTest := true }) ∧
    exec .ledTestExpiry s = .next (putFront s { s.panel with ledTest := false }) ∧
    (∀ mg : BitVec 16, setting s 0x6000 0x0A < mg.toNat → ∃ u, exec (.handlingSample mg) s = .next u ∧
      u.panel.handling = true ∧ u.panel.handledNs = some (10 * s.ao) ∧ u.panel.removal = s.panel.removal ∧
      u.mem = s.mem) ∧
    (s.dev.phase = .off → exec .liveInsertion s = .next (putDev s { s.dev with seated := true })) ∧
    (∃ u, exec .managementPortLinkUp s = .next u ∧ u.dev.mgmtLink = true ∧ u.mem = s.mem ∧ u.dap = s.dap) ∧
    exec .managementPortLinkDown s = .next (putDev s { s.dev with mgmtLink := false }) ∧
    (debugOff s = false → ringOk s = true →
      exec (.traceArm 1) s = .next (putTrace s { state := 1, records := 0, lost := 0 }))

/-- R518 to R523: SVC held and the quiesce request ask for a quiesce; it ends once every partition rests. The dictionary,
the pad and the lever ask for removal, which is safe once its conditions hold and may be cancelled. -/
def Obligations.QuiesceAndRemovalArePursued : Prop :=
  ∀ (s : State),
    (s.panel.quiesce = 0 →
      exec .quiesceRequest s = .next (quiesceRequest s) ∧
      (firmwareRuns s = true → bitSet (setting s 0x6000 2) 1 = true → exec .svcHold s = .next (quiesceRequest s)) ∧
      ((∀ p, p < 16 → (getPart s p).state ≠ .running) → s.panel.removal = 0 →
        quiesceRequest s = raise (putFront s { s.panel with quiesce := 1 }) 0x0C02 0xFF 0 [])) ∧
    (s.panel.quiesce = 1 → allRest s = true →
      exec .quiesced s = .next (raise (putFront s { s.panel with quiesce := 2 }) 0x0C03 0xFF 0 [])) ∧
    (s.panel.removal = 0 →
      exec .removalRequest s = .next (removalRequest s 3) ∧
      (firmwareRuns s = true → bitSet (setting s 0x6000 2) 2 = true →
        exec (.handlePadTouch 0) s = .next (removalRequest s 1)) ∧
      ((∀ p, p < 16 → (getPart s p).state = .unformed) → s.panel.quiesce = 0 →
        ∀ why, removalRequest s why =
          putFront (raise (putFront s { s.panel with removal := 1 }) 0x0C04 0xFF 0 [why]) { s.panel with removal := 2 })) ∧
    (s.panel.removal = 2 → removalOk s = true →
      exec .removalSafe s = .next (raise (putFront s { s.panel with removal := 3 }) 0x0C05 0xFF 0 [])) ∧
    (s.panel.removal ≠ 0 → exec .removalCancel s =
      .next (dropPreempts (raise (putFront s { s.panel with removal := 0 }) 0x0C06 0xFF 0 []) 2)) ∧
    (s.panel.lever = false → exec .leverOpen s =
      .next (removalRequest (raise (putFront s { s.panel with lever := true }) 0x0C07 0xFF 0 []) 2)) ∧
    (s.panel.lever = true → exec .leverClosed s =
      .next (raise (putFront s { s.panel with lever := false }) 0x0C08 0xFF 0 []))

/-! ## Rules stated whole -/

/-- R307 as the manual states it: entry, first_step and run are written only while the job is stopped; a run of a stream
that runs, or while the job runs, is ignored; what starting a stream does. -/
def Obligations.StreamControlIsWrittenOnlyWhileStopped : Prop :=
  ∀ (s : State) (t : Fin 64) (x : Stream),
    (jobStopped s t = false → exec (.streamRun t x) s = .next s ∧
      (∀ a, exec (.registerWrite (.entry t x a)) s = .next s) ∧
      (∀ v, exec (.registerWrite (.firstStep t x v)) s = .next s)) ∧
    ((getCtl (getTile s t) x).state = .running → exec (.streamRun t x) s = .next s) ∧
    (tilePresent s t = true → jobStopped s t = true →
      (∀ a : BitVec 64, ∃ u, exec (.registerWrite (.entry t x a)) s = .next u ∧
        (getCtl (getTile u t) x).entry = a.toNat) ∧
      (∀ v : BitVec 64, ∃ u, exec (.registerWrite (.firstStep t x v)) s = .next u ∧
        (getCtl (getTile u t) x).firstStep = v.toNat) ∧
      ((getCtl (getTile s t) x).state ≠ .running → ∃ u, exec (.streamRun t x) s = .next u ∧
        let c := getCtl (getTile u t) x
        c.pc = (getCtl (getTile s t) x).entry ∧ c.nextSeq = 0 ∧ c.mark0 = 0 ∧ c.mark1 = 0 ∧ c.marked = false ∧
        c.state = .running ∧ ∀ e r, r < 4 → getWatch (getTile u t) x e r = WatchReg.reset))

/-- R446 as the manual states it: the reset pin and dev.reset are refused while any die of a module in CRITICAL_OFF reads
85 °C or more. -/
def Obligations.WarmResetIsRefusedWhileHot : Prop :=
  ∀ (s : State), s.dev.phase = .critical → allCool s = false →
    (exec (.devReset 1) s = .next (raise s 0x0B03 0xFF 0 [0, 0])) ∧
    (∃ u, exec .rstNLow s = .next u ∧ u.dev.phase = .critical ∧ u.dev.resetDue = s.dev.resetDue ∧
      u.log.next = s.log.next + 1 ∧ ∃ e, u.log.ring.getLast? = some e ∧ e.code = 0x0B03 ∧ e.args.head? = some 0)

/-- R466 as the manual states it: once debug is disabled, no role reads or writes an object from 0x8000 up but those at
0x8100, which stay readable. -/
def Obligations.DebugObjectsVanishOnceDisabled : Prop :=
  ∀ (s : State) (x : Session), debugOff s = true →
    (∀ i : ReadItem, 0x8000 ≤ i.index.toNat → i.index.toNat ≠ 0x8100 → (readItem s x i).1 = 1) ∧
    (∀ n idx sub data, 0x8000 ≤ idx → idx ≠ 0x8100 → writeObj s n idx sub data = (s, 1, [])) ∧
    (∀ i : ReadItem, s.dev.phase ≠ .recovery → i.index.toNat = 0x8100 → i.sub.toNat ≤ 10 → (readItem s x i).1 = 0)

/-! ## The queue, the invariant and the frames -/

/-- A step takes the command at the front of the queue and runs it on the state with the queue's rest. With nothing
waiting, the module's own activity goes on (the model's choice, log 3). -/
def Obligations.AStepRunsTheFrontCommand : Prop :=
  (∀ (c : Instr) (l : List Instr) (s : State), s.pending = c :: l → step s = exec c (s.withPending l)) ∧
  (∀ (c : Instr) (s : State), step (s.withPending (c :: s.pending)) = exec c s) ∧
  (∀ (s : State), s.pending = [] → step s = .next (tick s))

/-- Every command of every state answers a next state: none ends in a fault or a refusal. -/
def Obligations.EveryCommandAnswersANextState : Prop :=
  ∀ (c : Instr) (s : State), ∃ u, exec c s = .next u

/-- No command changes the queue: commands run in the order in which they came. -/
def Obligations.CommandsLeaveTheQueueAlone : Prop :=
  ∀ (c : Instr) (s u : State), exec c s = .next u → u.pending = s.pending

/-- Every step keeps memory, the counter objects and the event log well-formed. -/
def Obligations.EveryStepKeepsTheInvariant : Prop :=
  ∀ (s u : State), Inv s → step s = .next u → Inv u

/-- R382, R443, R447: what a cold start leaves: READY, every partition UNFORMED, memory zero, device time at 0 in FREERUN,
nothing waiting; the reset state has the invariant. -/
def Obligations.ResetIsReadyEmptyAndWellFormed : Prop :=
  Inv State.reset ∧ State.reset.pending = [] ∧ State.reset.dev.phase = .ready ∧
    (∀ p, (getPart State.reset p).state = .unformed) ∧ (∀ a, readByte State.reset a = 0) ∧
    (∀ n, getCounter State.reset n = Counter.reset) ∧ State.reset.time.s = 0 ∧ State.reset.time.state = 0

/-- A vector instruction that breaks no rule, and whose loads meet no line that waits or cannot be read, changes nothing
outside its own tile. -/
def Obligations.VectorInstructionsChangeOnlyTheirTile : Prop :=
  ∀ (s u : State) (p vop : Nat) (t : Fin 64) (w : BitVec 58) (i : Inflight) (c : Instr),
    (vop, c) ∈ vectorRegisterForms t w → VectorReady s p t vop (vWord vop w) i →
    (vop = 0x01 ∨ vop = 0x19 → calm s = true) → exec c s = .next u →
    u = { s with tiles := u.tiles } ∧ ∀ k, k ≠ t.val → getTile u k = getTile s k

/-- The commands at the ports, the panel, the clock and the dictionary's log leave memory, tiles, counters and partitions
as they are. -/
def Obligations.HousekeepingCommandsTouchNoTraining : Prop :=
  ∀ (c : Instr) (s u : State), isHousekeeping c = true → exec c s = .next u →
    u.mem = s.mem ∧ u.tiles = s.tiles ∧ u.parts = s.parts ∧ u.sync = s.sync
end

