-- ==== Sys2Proof/Laws/Maps.lean ====
section
/-! SUPPORT. Laws/Maps.lean: the laws of the sparse maps: read after write, and that every operation keeps the canonical
form. -/

namespace Sys2Proof.Machine

variable {α : Type}

/-- What mput leaves at another key. -/
theorem mget_mput_ne (d : α) (m : Map α) {k k' : Nat} (v : α) (h : k' ≠ k) : mget d (mput m k v) k' = mget d m k' := by
  induction m with
  | nil => simp [mput, mget, Ne.symm h]
  | cons e m ih =>
    simp only [mput]
    split_ifs with h1 h2
    · simp [mget, Ne.symm h]
    · subst h2; simp [mget, Ne.symm h]
    · simp [mget, ih]

/-- What mput writes. -/
theorem mget_mput_same (d : α) (m : Map α) (k : Nat) (v : α) : mget d (mput m k v) k = v := by
  induction m with
  | nil => simp [mput, mget]
  | cons e m ih =>
    simp only [mput]
    split_ifs with h1 h2
    · simp [mget]
    · simp [mget]
    · simp [mget, Ne.symm h2, ih]

/-- What mdel leaves at another key. -/
theorem mget_mdel_ne (d : α) (m : Map α) {k k' : Nat} (h : k' ≠ k) : mget d (mdel m k) k' = mget d m k' := by
  induction m with
  | nil => rfl
  | cons e m ih =>
    unfold mdel at ih ⊢
    by_cases h1 : e.1 = k
    · simp [h1, mget, Ne.symm h, ih]
    · simp [h1, mget, ih]

/-- An unlisted key reads as the default. -/
theorem mget_notin (d : α) (m : Map α) (k : Nat) (h : k ∉ m.map Prod.fst) : mget d m k = d := by
  induction m with
  | nil => rfl
  | cons e m ih =>
    simp only [List.map_cons, List.mem_cons, not_or] at h
    simp [mget, Ne.symm h.1, ih h.2]

/-- A key that a map lost reads as the default. -/
theorem mget_mdel_same (d : α) (m : Map α) (k : Nat) : mget d (mdel m k) k = d :=
  mget_notin d _ k (by simp [mdel])

/-- Read after write at another key. -/
theorem mget_mset_ne [DecidableEq α] (d : α) (m : Map α) {k k' : Nat} (v : α) (h : k' ≠ k) :
    mget d (mset d m k v) k' = mget d m k' := by
  unfold mset
  split_ifs
  · exact mget_mdel_ne d m h
  · exact mget_mput_ne d m v h

/-- Read after write at the same key. -/
theorem mget_mset_same [DecidableEq α] (d : α) (m : Map α) (k : Nat) (v : α) : mget d (mset d m k v) k = v := by
  unfold mset
  split_ifs with hv
  · rw [mget_mdel_same d m k, hv]
  · exact mget_mput_same d m k v

/-- An optional entry after mput. -/
theorem mfind_mput (m : Map α) (k k' : Nat) (v : α) : mfind (mput m k v) k' = if k' = k then some v else mfind m k' := by
  induction m with
  | nil => simp [mput, mfind, eq_comm]
  | cons e m ih =>
    obtain ⟨a, x⟩ := e
    rcases lt_trichotomy k a with h | h | h
    · simp [mput, mfind, h, eq_comm]
    · subst h
      by_cases h3 : k' = k <;> simp [mput, mfind, h3, Ne.symm]
    · have h1 : ¬k < a := Nat.not_lt_of_gt h
      have h2 : ¬k = a := (Nat.ne_of_lt h).symm
      by_cases h4 : a = k'
      · subst h4; simp [mput, mfind, h1, h2, Ne.symm h2]
      · simp [mput, mfind, h1, h2, h4, ih]

/-- A key that a map lost has no entry. -/
theorem mfind_mdel_same (m : Map α) (k : Nat) : mfind (mdel m k) k = none := by
  induction m with
  | nil => rfl
  | cons e m ih =>
    unfold mdel at ih ⊢
    by_cases h1 : e.1 = k
    · simp [h1, ih]
    · simp [h1, mfind, ih]

/-- The members of a map after mput. -/
theorem mem_mput {m : Map α} {k : Nat} {v : α} {e : Nat × α} (h : e ∈ mput m k v) : e = (k, v) ∨ e ∈ m := by
  induction m with
  | nil => simpa [mput] using h
  | cons a m ih =>
    simp only [mput] at h
    split_ifs at h with h1 h2
    · simpa using h
    · subst h2
      rcases List.mem_cons.mp h with h | h
      · exact .inl h
      · exact .inr (List.mem_cons_of_mem _ h)
    · rcases List.mem_cons.mp h with h | h
      · exact .inr (by simp [h])
      · rcases ih h with h | h
        · exact .inl h
        · exact .inr (List.mem_cons_of_mem _ h)

/-- mput keeps keys rising. -/
theorem mput_rising {m : Map α} (k : Nat) (v : α) (h : (m.map Prod.fst).Pairwise (· < ·)) :
    ((mput m k v).map Prod.fst).Pairwise (· < ·) := by
  induction m with
  | nil => simp [mput]
  | cons a m ih =>
    obtain ⟨k', v'⟩ := a
    simp only [List.map_cons, List.pairwise_cons] at h
    simp only [mput]
    split_ifs with h1 h2
    · simp only [List.map_cons, List.pairwise_cons, List.mem_cons]
      refine ⟨?_, h⟩
      rintro x (rfl | hx)
      · exact h1
      · exact lt_trans h1 (h.1 x hx)
    · subst h2
      exact List.pairwise_cons.mpr h
    · simp only [List.map_cons, List.pairwise_cons]
      refine ⟨fun x hx => ?_, ih h.2⟩
      obtain ⟨e, he, rfl⟩ := List.mem_map.mp hx
      rcases mem_mput he with rfl | he
      · exact lt_of_le_of_ne (Nat.le_of_not_lt h1) (Ne.symm h2)
      · exact h.1 _ (List.mem_map_of_mem he)

/-- mdel leaves a sublist. -/
theorem mdel_sublist (m : Map α) (k : Nat) : (mdel m k).Sublist m := List.filter_sublist

/-- A sublist of a canonical map is canonical. -/
theorem mapWf_sublist {d : α} {m m' : Map α} (h : MapWf d m) (hs : m'.Sublist m) : MapWf d m' :=
  ⟨h.1.sublist (hs.map _), fun e he => h.2 e (hs.subset he)⟩

/-- mset keeps the canonical form. -/
theorem mapWf_mset [DecidableEq α] {d : α} {m : Map α} (k : Nat) (v : α) (h : MapWf d m) : MapWf d (mset d m k v) := by
  unfold mset
  split_ifs with hv
  · exact mapWf_sublist h (mdel_sublist m k)
  · refine ⟨mput_rising k v h.1, fun e he => ?_⟩
    rcases mem_mput he with rfl | he
    · exact hv
    · exact h.2 e he

/-- mdrop keeps the canonical form. -/
theorem mapWf_mdrop {d : α} {m : Map α} (p : Nat → Bool) (h : MapWf d m) : MapWf d (mdrop p m) :=
  mapWf_sublist h List.filter_sublist

end Sys2Proof.Machine
end

