-- ==== Sys2Proof/Laws/State.lean ====
section
/-! SUPPORT. Laws/State.lean: what each update of the state leaves in each field, so that no proof unfolds a record update. -/

namespace Sys2Proof.Machine

/-! ### putTile -/

@[simp] theorem putTile_pending (s : State) (t : Nat) (v : Tile) : (putTile s t v).pending = s.pending := rfl
@[simp] theorem putTile_mem (s : State) (t : Nat) (v : Tile) : (putTile s t v).mem = s.mem := rfl
@[simp] theorem putTile_ctr (s : State) (t : Nat) (v : Tile) : (putTile s t v).ctr = s.ctr := rfl
@[simp] theorem putTile_parts (s : State) (t : Nat) (v : Tile) : (putTile s t v).parts = s.parts := rfl
@[simp] theorem putTile_sync (s : State) (t : Nat) (v : Tile) : (putTile s t v).sync = s.sync := rfl
@[simp] theorem putTile_sched (s : State) (t : Nat) (v : Tile) : (putTile s t v).sched = s.sched := rfl
@[simp] theorem putTile_units (s : State) (t : Nat) (v : Tile) : (putTile s t v).units = s.units := rfl
@[simp] theorem putTile_memErr (s : State) (t : Nat) (v : Tile) : (putTile s t v).memErr = s.memErr := rfl
@[simp] theorem putTile_lft (s : State) (t : Nat) (v : Tile) : (putTile s t v).lft = s.lft := rfl
@[simp] theorem putTile_log (s : State) (t : Nat) (v : Tile) : (putTile s t v).log = s.log := rfl
@[simp] theorem putTile_settings (s : State) (t : Nat) (v : Tile) : (putTile s t v).settings = s.settings := rfl
@[simp] theorem putTile_time (s : State) (t : Nat) (v : Tile) : (putTile s t v).time = s.time := rfl
@[simp] theorem putTile_ao (s : State) (t : Nat) (v : Tile) : (putTile s t v).ao = s.ao := rfl
@[simp] theorem putTile_free (s : State) (t : Nat) (v : Tile) : (putTile s t v).free = s.free := rfl
@[simp] theorem putTile_bankReply (s : State) (t : Nat) (v : Tile) : (putTile s t v).bankReply = s.bankReply := rfl
@[simp] theorem putTile_trace (s : State) (t : Nat) (v : Tile) : (putTile s t v).trace = s.trace := rfl
@[simp] theorem putTile_place (s : State) (t : Nat) (v : Tile) : (putTile s t v).place = s.place := rfl
@[simp] theorem putTile_ports (s : State) (t : Nat) (v : Tile) : (putTile s t v).ports = s.ports := rfl
@[simp] theorem putTile_retr (s : State) (t : Nat) (v : Tile) : (putTile s t v).retr = s.retr := rfl
@[simp] theorem putTile_upd (s : State) (t : Nat) (v : Tile) : (putTile s t v).upd = s.upd := rfl
@[simp] theorem putTile_trails (s : State) (t : Nat) (v : Tile) : (putTile s t v).trails = s.trails := rfl
@[simp] theorem putTile_masks (s : State) (t : Nat) (v : Tile) : (putTile s t v).masks = s.masks := rfl
@[simp] theorem putTile_plans (s : State) (t : Nat) (v : Tile) : (putTile s t v).plans = s.plans := rfl
@[simp] theorem putTile_trailSlots (s : State) (t : Nat) (v : Tile) : (putTile s t v).trailSlots = s.trailSlots := rfl
@[simp] theorem putTile_power (s : State) (t : Nat) (v : Tile) : (putTile s t v).power = s.power := rfl
@[simp] theorem putTile_dev (s : State) (t : Nat) (v : Tile) : (putTile s t v).dev = s.dev := rfl
@[simp] theorem putTile_panel (s : State) (t : Nat) (v : Tile) : (putTile s t v).panel = s.panel := rfl
@[simp] theorem putTile_dap (s : State) (t : Nat) (v : Tile) : (putTile s t v).dap = s.dap := rfl
@[simp] theorem putTile_fw (s : State) (t : Nat) (v : Tile) : (putTile s t v).fw = s.fw := rfl

/-! ### putPart -/

@[simp] theorem putPart_pending (s : State) (p : Nat) (v : Part) : (putPart s p v).pending = s.pending := rfl
@[simp] theorem putPart_mem (s : State) (p : Nat) (v : Part) : (putPart s p v).mem = s.mem := rfl
@[simp] theorem putPart_ctr (s : State) (p : Nat) (v : Part) : (putPart s p v).ctr = s.ctr := rfl
@[simp] theorem putPart_tiles (s : State) (p : Nat) (v : Part) : (putPart s p v).tiles = s.tiles := rfl
@[simp] theorem putPart_sync (s : State) (p : Nat) (v : Part) : (putPart s p v).sync = s.sync := rfl
@[simp] theorem putPart_sched (s : State) (p : Nat) (v : Part) : (putPart s p v).sched = s.sched := rfl
@[simp] theorem putPart_units (s : State) (p : Nat) (v : Part) : (putPart s p v).units = s.units := rfl
@[simp] theorem putPart_memErr (s : State) (p : Nat) (v : Part) : (putPart s p v).memErr = s.memErr := rfl
@[simp] theorem putPart_lft (s : State) (p : Nat) (v : Part) : (putPart s p v).lft = s.lft := rfl
@[simp] theorem putPart_log (s : State) (p : Nat) (v : Part) : (putPart s p v).log = s.log := rfl
@[simp] theorem putPart_settings (s : State) (p : Nat) (v : Part) : (putPart s p v).settings = s.settings := rfl
@[simp] theorem putPart_time (s : State) (p : Nat) (v : Part) : (putPart s p v).time = s.time := rfl
@[simp] theorem putPart_ao (s : State) (p : Nat) (v : Part) : (putPart s p v).ao = s.ao := rfl
@[simp] theorem putPart_free (s : State) (p : Nat) (v : Part) : (putPart s p v).free = s.free := rfl
@[simp] theorem putPart_bankReply (s : State) (p : Nat) (v : Part) : (putPart s p v).bankReply = s.bankReply := rfl
@[simp] theorem putPart_trace (s : State) (p : Nat) (v : Part) : (putPart s p v).trace = s.trace := rfl
@[simp] theorem putPart_place (s : State) (p : Nat) (v : Part) : (putPart s p v).place = s.place := rfl
@[simp] theorem putPart_ports (s : State) (p : Nat) (v : Part) : (putPart s p v).ports = s.ports := rfl
@[simp] theorem putPart_retr (s : State) (p : Nat) (v : Part) : (putPart s p v).retr = s.retr := rfl
@[simp] theorem putPart_upd (s : State) (p : Nat) (v : Part) : (putPart s p v).upd = s.upd := rfl
@[simp] theorem putPart_trails (s : State) (p : Nat) (v : Part) : (putPart s p v).trails = s.trails := rfl
@[simp] theorem putPart_masks (s : State) (p : Nat) (v : Part) : (putPart s p v).masks = s.masks := rfl
@[simp] theorem putPart_plans (s : State) (p : Nat) (v : Part) : (putPart s p v).plans = s.plans := rfl
@[simp] theorem putPart_trailSlots (s : State) (p : Nat) (v : Part) : (putPart s p v).trailSlots = s.trailSlots := rfl
@[simp] theorem putPart_power (s : State) (p : Nat) (v : Part) : (putPart s p v).power = s.power := rfl
@[simp] theorem putPart_dev (s : State) (p : Nat) (v : Part) : (putPart s p v).dev = s.dev := rfl
@[simp] theorem putPart_panel (s : State) (p : Nat) (v : Part) : (putPart s p v).panel = s.panel := rfl
@[simp] theorem putPart_dap (s : State) (p : Nat) (v : Part) : (putPart s p v).dap = s.dap := rfl
@[simp] theorem putPart_fw (s : State) (p : Nat) (v : Part) : (putPart s p v).fw = s.fw := rfl

/-! ### putSync -/

@[simp] theorem putSync_pending (s : State) (v : Sync) : (putSync s v).pending = s.pending := rfl
@[simp] theorem putSync_mem (s : State) (v : Sync) : (putSync s v).mem = s.mem := rfl
@[simp] theorem putSync_ctr (s : State) (v : Sync) : (putSync s v).ctr = s.ctr := rfl
@[simp] theorem putSync_tiles (s : State) (v : Sync) : (putSync s v).tiles = s.tiles := rfl
@[simp] theorem putSync_parts (s : State) (v : Sync) : (putSync s v).parts = s.parts := rfl
@[simp] theorem putSync_sync (s : State) (v : Sync) : (putSync s v).sync = v := rfl
@[simp] theorem putSync_sched (s : State) (v : Sync) : (putSync s v).sched = s.sched := rfl
@[simp] theorem putSync_units (s : State) (v : Sync) : (putSync s v).units = s.units := rfl
@[simp] theorem putSync_memErr (s : State) (v : Sync) : (putSync s v).memErr = s.memErr := rfl
@[simp] theorem putSync_lft (s : State) (v : Sync) : (putSync s v).lft = s.lft := rfl
@[simp] theorem putSync_log (s : State) (v : Sync) : (putSync s v).log = s.log := rfl
@[simp] theorem putSync_settings (s : State) (v : Sync) : (putSync s v).settings = s.settings := rfl
@[simp] theorem putSync_time (s : State) (v : Sync) : (putSync s v).time = s.time := rfl
@[simp] theorem putSync_ao (s : State) (v : Sync) : (putSync s v).ao = s.ao := rfl
@[simp] theorem putSync_free (s : State) (v : Sync) : (putSync s v).free = s.free := rfl
@[simp] theorem putSync_bankReply (s : State) (v : Sync) : (putSync s v).bankReply = s.bankReply := rfl
@[simp] theorem putSync_trace (s : State) (v : Sync) : (putSync s v).trace = s.trace := rfl
@[simp] theorem putSync_place (s : State) (v : Sync) : (putSync s v).place = s.place := rfl
@[simp] theorem putSync_ports (s : State) (v : Sync) : (putSync s v).ports = s.ports := rfl
@[simp] theorem putSync_retr (s : State) (v : Sync) : (putSync s v).retr = s.retr := rfl
@[simp] theorem putSync_upd (s : State) (v : Sync) : (putSync s v).upd = s.upd := rfl
@[simp] theorem putSync_trails (s : State) (v : Sync) : (putSync s v).trails = s.trails := rfl
@[simp] theorem putSync_masks (s : State) (v : Sync) : (putSync s v).masks = s.masks := rfl
@[simp] theorem putSync_plans (s : State) (v : Sync) : (putSync s v).plans = s.plans := rfl
@[simp] theorem putSync_trailSlots (s : State) (v : Sync) : (putSync s v).trailSlots = s.trailSlots := rfl
@[simp] theorem putSync_power (s : State) (v : Sync) : (putSync s v).power = s.power := rfl
@[simp] theorem putSync_dev (s : State) (v : Sync) : (putSync s v).dev = s.dev := rfl
@[simp] theorem putSync_panel (s : State) (v : Sync) : (putSync s v).panel = s.panel := rfl
@[simp] theorem putSync_dap (s : State) (v : Sync) : (putSync s v).dap = s.dap := rfl
@[simp] theorem putSync_fw (s : State) (v : Sync) : (putSync s v).fw = s.fw := rfl

/-! ### putSched -/

@[simp] theorem putSched_pending (s : State) (v : Sched) : (putSched s v).pending = s.pending := rfl
@[simp] theorem putSched_mem (s : State) (v : Sched) : (putSched s v).mem = s.mem := rfl
@[simp] theorem putSched_ctr (s : State) (v : Sched) : (putSched s v).ctr = s.ctr := rfl
@[simp] theorem putSched_tiles (s : State) (v : Sched) : (putSched s v).tiles = s.tiles := rfl
@[simp] theorem putSched_parts (s : State) (v : Sched) : (putSched s v).parts = s.parts := rfl
@[simp] theorem putSched_sync (s : State) (v : Sched) : (putSched s v).sync = s.sync := rfl
@[simp] theorem putSched_sched (s : State) (v : Sched) : (putSched s v).sched = v := rfl
@[simp] theorem putSched_units (s : State) (v : Sched) : (putSched s v).units = s.units := rfl
@[simp] theorem putSched_memErr (s : State) (v : Sched) : (putSched s v).memErr = s.memErr := rfl
@[simp] theorem putSched_lft (s : State) (v : Sched) : (putSched s v).lft = s.lft := rfl
@[simp] theorem putSched_log (s : State) (v : Sched) : (putSched s v).log = s.log := rfl
@[simp] theorem putSched_settings (s : State) (v : Sched) : (putSched s v).settings = s.settings := rfl
@[simp] theorem putSched_time (s : State) (v : Sched) : (putSched s v).time = s.time := rfl
@[simp] theorem putSched_ao (s : State) (v : Sched) : (putSched s v).ao = s.ao := rfl
@[simp] theorem putSched_free (s : State) (v : Sched) : (putSched s v).free = s.free := rfl
@[simp] theorem putSched_bankReply (s : State) (v : Sched) : (putSched s v).bankReply = s.bankReply := rfl
@[simp] theorem putSched_trace (s : State) (v : Sched) : (putSched s v).trace = s.trace := rfl
@[simp] theorem putSched_place (s : State) (v : Sched) : (putSched s v).place = s.place := rfl
@[simp] theorem putSched_ports (s : State) (v : Sched) : (putSched s v).ports = s.ports := rfl
@[simp] theorem putSched_retr (s : State) (v : Sched) : (putSched s v).retr = s.retr := rfl
@[simp] theorem putSched_upd (s : State) (v : Sched) : (putSched s v).upd = s.upd := rfl
@[simp] theorem putSched_trails (s : State) (v : Sched) : (putSched s v).trails = s.trails := rfl
@[simp] theorem putSched_masks (s : State) (v : Sched) : (putSched s v).masks = s.masks := rfl
@[simp] theorem putSched_plans (s : State) (v : Sched) : (putSched s v).plans = s.plans := rfl
@[simp] theorem putSched_trailSlots (s : State) (v : Sched) : (putSched s v).trailSlots = s.trailSlots := rfl
@[simp] theorem putSched_power (s : State) (v : Sched) : (putSched s v).power = s.power := rfl
@[simp] theorem putSched_dev (s : State) (v : Sched) : (putSched s v).dev = s.dev := rfl
@[simp] theorem putSched_panel (s : State) (v : Sched) : (putSched s v).panel = s.panel := rfl
@[simp] theorem putSched_dap (s : State) (v : Sched) : (putSched s v).dap = s.dap := rfl
@[simp] theorem putSched_fw (s : State) (v : Sched) : (putSched s v).fw = s.fw := rfl

/-! ### putUnits -/

@[simp] theorem putUnits_pending (s : State) (v : Units) : (putUnits s v).pending = s.pending := rfl
@[simp] theorem putUnits_mem (s : State) (v : Units) : (putUnits s v).mem = s.mem := rfl
@[simp] theorem putUnits_ctr (s : State) (v : Units) : (putUnits s v).ctr = s.ctr := rfl
@[simp] theorem putUnits_tiles (s : State) (v : Units) : (putUnits s v).tiles = s.tiles := rfl
@[simp] theorem putUnits_parts (s : State) (v : Units) : (putUnits s v).parts = s.parts := rfl
@[simp] theorem putUnits_sync (s : State) (v : Units) : (putUnits s v).sync = s.sync := rfl
@[simp] theorem putUnits_sched (s : State) (v : Units) : (putUnits s v).sched = s.sched := rfl
@[simp] theorem putUnits_units (s : State) (v : Units) : (putUnits s v).units = v := rfl
@[simp] theorem putUnits_memErr (s : State) (v : Units) : (putUnits s v).memErr = s.memErr := rfl
@[simp] theorem putUnits_lft (s : State) (v : Units) : (putUnits s v).lft = s.lft := rfl
@[simp] theorem putUnits_log (s : State) (v : Units) : (putUnits s v).log = s.log := rfl
@[simp] theorem putUnits_settings (s : State) (v : Units) : (putUnits s v).settings = s.settings := rfl
@[simp] theorem putUnits_time (s : State) (v : Units) : (putUnits s v).time = s.time := rfl
@[simp] theorem putUnits_ao (s : State) (v : Units) : (putUnits s v).ao = s.ao := rfl
@[simp] theorem putUnits_free (s : State) (v : Units) : (putUnits s v).free = s.free := rfl
@[simp] theorem putUnits_bankReply (s : State) (v : Units) : (putUnits s v).bankReply = s.bankReply := rfl
@[simp] theorem putUnits_trace (s : State) (v : Units) : (putUnits s v).trace = s.trace := rfl
@[simp] theorem putUnits_place (s : State) (v : Units) : (putUnits s v).place = s.place := rfl
@[simp] theorem putUnits_ports (s : State) (v : Units) : (putUnits s v).ports = s.ports := rfl
@[simp] theorem putUnits_retr (s : State) (v : Units) : (putUnits s v).retr = s.retr := rfl
@[simp] theorem putUnits_upd (s : State) (v : Units) : (putUnits s v).upd = s.upd := rfl
@[simp] theorem putUnits_trails (s : State) (v : Units) : (putUnits s v).trails = s.trails := rfl
@[simp] theorem putUnits_masks (s : State) (v : Units) : (putUnits s v).masks = s.masks := rfl
@[simp] theorem putUnits_plans (s : State) (v : Units) : (putUnits s v).plans = s.plans := rfl
@[simp] theorem putUnits_trailSlots (s : State) (v : Units) : (putUnits s v).trailSlots = s.trailSlots := rfl
@[simp] theorem putUnits_power (s : State) (v : Units) : (putUnits s v).power = s.power := rfl
@[simp] theorem putUnits_dev (s : State) (v : Units) : (putUnits s v).dev = s.dev := rfl
@[simp] theorem putUnits_panel (s : State) (v : Units) : (putUnits s v).panel = s.panel := rfl
@[simp] theorem putUnits_dap (s : State) (v : Units) : (putUnits s v).dap = s.dap := rfl
@[simp] theorem putUnits_fw (s : State) (v : Units) : (putUnits s v).fw = s.fw := rfl

/-! ### putMemErr -/

@[simp] theorem putMemErr_pending (s : State) (v : MemErr) : (putMemErr s v).pending = s.pending := rfl
@[simp] theorem putMemErr_mem (s : State) (v : MemErr) : (putMemErr s v).mem = s.mem := rfl
@[simp] theorem putMemErr_ctr (s : State) (v : MemErr) : (putMemErr s v).ctr = s.ctr := rfl
@[simp] theorem putMemErr_tiles (s : State) (v : MemErr) : (putMemErr s v).tiles = s.tiles := rfl
@[simp] theorem putMemErr_parts (s : State) (v : MemErr) : (putMemErr s v).parts = s.parts := rfl
@[simp] theorem putMemErr_sync (s : State) (v : MemErr) : (putMemErr s v).sync = s.sync := rfl
@[simp] theorem putMemErr_sched (s : State) (v : MemErr) : (putMemErr s v).sched = s.sched := rfl
@[simp] theorem putMemErr_units (s : State) (v : MemErr) : (putMemErr s v).units = s.units := rfl
@[simp] theorem putMemErr_memErr (s : State) (v : MemErr) : (putMemErr s v).memErr = v := rfl
@[simp] theorem putMemErr_lft (s : State) (v : MemErr) : (putMemErr s v).lft = s.lft := rfl
@[simp] theorem putMemErr_log (s : State) (v : MemErr) : (putMemErr s v).log = s.log := rfl
@[simp] theorem putMemErr_settings (s : State) (v : MemErr) : (putMemErr s v).settings = s.settings := rfl
@[simp] theorem putMemErr_time (s : State) (v : MemErr) : (putMemErr s v).time = s.time := rfl
@[simp] theorem putMemErr_ao (s : State) (v : MemErr) : (putMemErr s v).ao = s.ao := rfl
@[simp] theorem putMemErr_free (s : State) (v : MemErr) : (putMemErr s v).free = s.free := rfl
@[simp] theorem putMemErr_bankReply (s : State) (v : MemErr) : (putMemErr s v).bankReply = s.bankReply := rfl
@[simp] theorem putMemErr_trace (s : State) (v : MemErr) : (putMemErr s v).trace = s.trace := rfl
@[simp] theorem putMemErr_place (s : State) (v : MemErr) : (putMemErr s v).place = s.place := rfl
@[simp] theorem putMemErr_ports (s : State) (v : MemErr) : (putMemErr s v).ports = s.ports := rfl
@[simp] theorem putMemErr_retr (s : State) (v : MemErr) : (putMemErr s v).retr = s.retr := rfl
@[simp] theorem putMemErr_upd (s : State) (v : MemErr) : (putMemErr s v).upd = s.upd := rfl
@[simp] theorem putMemErr_trails (s : State) (v : MemErr) : (putMemErr s v).trails = s.trails := rfl
@[simp] theorem putMemErr_masks (s : State) (v : MemErr) : (putMemErr s v).masks = s.masks := rfl
@[simp] theorem putMemErr_plans (s : State) (v : MemErr) : (putMemErr s v).plans = s.plans := rfl
@[simp] theorem putMemErr_trailSlots (s : State) (v : MemErr) : (putMemErr s v).trailSlots = s.trailSlots := rfl
@[simp] theorem putMemErr_power (s : State) (v : MemErr) : (putMemErr s v).power = s.power := rfl
@[simp] theorem putMemErr_dev (s : State) (v : MemErr) : (putMemErr s v).dev = s.dev := rfl
@[simp] theorem putMemErr_panel (s : State) (v : MemErr) : (putMemErr s v).panel = s.panel := rfl
@[simp] theorem putMemErr_dap (s : State) (v : MemErr) : (putMemErr s v).dap = s.dap := rfl
@[simp] theorem putMemErr_fw (s : State) (v : MemErr) : (putMemErr s v).fw = s.fw := rfl

/-! ### putLft -/

@[simp] theorem putLft_pending (s : State) (v : Lft) : (putLft s v).pending = s.pending := rfl
@[simp] theorem putLft_mem (s : State) (v : Lft) : (putLft s v).mem = s.mem := rfl
@[simp] theorem putLft_ctr (s : State) (v : Lft) : (putLft s v).ctr = s.ctr := rfl
@[simp] theorem putLft_tiles (s : State) (v : Lft) : (putLft s v).tiles = s.tiles := rfl
@[simp] theorem putLft_parts (s : State) (v : Lft) : (putLft s v).parts = s.parts := rfl
@[simp] theorem putLft_sync (s : State) (v : Lft) : (putLft s v).sync = s.sync := rfl
@[simp] theorem putLft_sched (s : State) (v : Lft) : (putLft s v).sched = s.sched := rfl
@[simp] theorem putLft_units (s : State) (v : Lft) : (putLft s v).units = s.units := rfl
@[simp] theorem putLft_memErr (s : State) (v : Lft) : (putLft s v).memErr = s.memErr := rfl
@[simp] theorem putLft_lft (s : State) (v : Lft) : (putLft s v).lft = v := rfl
@[simp] theorem putLft_log (s : State) (v : Lft) : (putLft s v).log = s.log := rfl
@[simp] theorem putLft_settings (s : State) (v : Lft) : (putLft s v).settings = s.settings := rfl
@[simp] theorem putLft_time (s : State) (v : Lft) : (putLft s v).time = s.time := rfl
@[simp] theorem putLft_ao (s : State) (v : Lft) : (putLft s v).ao = s.ao := rfl
@[simp] theorem putLft_free (s : State) (v : Lft) : (putLft s v).free = s.free := rfl
@[simp] theorem putLft_bankReply (s : State) (v : Lft) : (putLft s v).bankReply = s.bankReply := rfl
@[simp] theorem putLft_trace (s : State) (v : Lft) : (putLft s v).trace = s.trace := rfl
@[simp] theorem putLft_place (s : State) (v : Lft) : (putLft s v).place = s.place := rfl
@[simp] theorem putLft_ports (s : State) (v : Lft) : (putLft s v).ports = s.ports := rfl
@[simp] theorem putLft_retr (s : State) (v : Lft) : (putLft s v).retr = s.retr := rfl
@[simp] theorem putLft_upd (s : State) (v : Lft) : (putLft s v).upd = s.upd := rfl
@[simp] theorem putLft_trails (s : State) (v : Lft) : (putLft s v).trails = s.trails := rfl
@[simp] theorem putLft_masks (s : State) (v : Lft) : (putLft s v).masks = s.masks := rfl
@[simp] theorem putLft_plans (s : State) (v : Lft) : (putLft s v).plans = s.plans := rfl
@[simp] theorem putLft_trailSlots (s : State) (v : Lft) : (putLft s v).trailSlots = s.trailSlots := rfl
@[simp] theorem putLft_power (s : State) (v : Lft) : (putLft s v).power = s.power := rfl
@[simp] theorem putLft_dev (s : State) (v : Lft) : (putLft s v).dev = s.dev := rfl
@[simp] theorem putLft_panel (s : State) (v : Lft) : (putLft s v).panel = s.panel := rfl
@[simp] theorem putLft_dap (s : State) (v : Lft) : (putLft s v).dap = s.dap := rfl
@[simp] theorem putLft_fw (s : State) (v : Lft) : (putLft s v).fw = s.fw := rfl

/-! ### putLog -/

@[simp] theorem putLog_pending (s : State) (v : EventLog) : (putLog s v).pending = s.pending := rfl
@[simp] theorem putLog_mem (s : State) (v : EventLog) : (putLog s v).mem = s.mem := rfl
@[simp] theorem putLog_ctr (s : State) (v : EventLog) : (putLog s v).ctr = s.ctr := rfl
@[simp] theorem putLog_tiles (s : State) (v : EventLog) : (putLog s v).tiles = s.tiles := rfl
@[simp] theorem putLog_parts (s : State) (v : EventLog) : (putLog s v).parts = s.parts := rfl
@[simp] theorem putLog_sync (s : State) (v : EventLog) : (putLog s v).sync = s.sync := rfl
@[simp] theorem putLog_sched (s : State) (v : EventLog) : (putLog s v).sched = s.sched := rfl
@[simp] theorem putLog_units (s : State) (v : EventLog) : (putLog s v).units = s.units := rfl
@[simp] theorem putLog_memErr (s : State) (v : EventLog) : (putLog s v).memErr = s.memErr := rfl
@[simp] theorem putLog_lft (s : State) (v : EventLog) : (putLog s v).lft = s.lft := rfl
@[simp] theorem putLog_log (s : State) (v : EventLog) : (putLog s v).log = v := rfl
@[simp] theorem putLog_settings (s : State) (v : EventLog) : (putLog s v).settings = s.settings := rfl
@[simp] theorem putLog_time (s : State) (v : EventLog) : (putLog s v).time = s.time := rfl
@[simp] theorem putLog_ao (s : State) (v : EventLog) : (putLog s v).ao = s.ao := rfl
@[simp] theorem putLog_free (s : State) (v : EventLog) : (putLog s v).free = s.free := rfl
@[simp] theorem putLog_bankReply (s : State) (v : EventLog) : (putLog s v).bankReply = s.bankReply := rfl
@[simp] theorem putLog_trace (s : State) (v : EventLog) : (putLog s v).trace = s.trace := rfl
@[simp] theorem putLog_place (s : State) (v : EventLog) : (putLog s v).place = s.place := rfl
@[simp] theorem putLog_ports (s : State) (v : EventLog) : (putLog s v).ports = s.ports := rfl
@[simp] theorem putLog_retr (s : State) (v : EventLog) : (putLog s v).retr = s.retr := rfl
@[simp] theorem putLog_upd (s : State) (v : EventLog) : (putLog s v).upd = s.upd := rfl
@[simp] theorem putLog_trails (s : State) (v : EventLog) : (putLog s v).trails = s.trails := rfl
@[simp] theorem putLog_masks (s : State) (v : EventLog) : (putLog s v).masks = s.masks := rfl
@[simp] theorem putLog_plans (s : State) (v : EventLog) : (putLog s v).plans = s.plans := rfl
@[simp] theorem putLog_trailSlots (s : State) (v : EventLog) : (putLog s v).trailSlots = s.trailSlots := rfl
@[simp] theorem putLog_power (s : State) (v : EventLog) : (putLog s v).power = s.power := rfl
@[simp] theorem putLog_dev (s : State) (v : EventLog) : (putLog s v).dev = s.dev := rfl
@[simp] theorem putLog_panel (s : State) (v : EventLog) : (putLog s v).panel = s.panel := rfl
@[simp] theorem putLog_dap (s : State) (v : EventLog) : (putLog s v).dap = s.dap := rfl
@[simp] theorem putLog_fw (s : State) (v : EventLog) : (putLog s v).fw = s.fw := rfl

/-! ### putSettings -/

@[simp] theorem putSettings_pending (s : State) (v : Settings) : (putSettings s v).pending = s.pending := rfl
@[simp] theorem putSettings_mem (s : State) (v : Settings) : (putSettings s v).mem = s.mem := rfl
@[simp] theorem putSettings_ctr (s : State) (v : Settings) : (putSettings s v).ctr = s.ctr := rfl
@[simp] theorem putSettings_tiles (s : State) (v : Settings) : (putSettings s v).tiles = s.tiles := rfl
@[simp] theorem putSettings_parts (s : State) (v : Settings) : (putSettings s v).parts = s.parts := rfl
@[simp] theorem putSettings_sync (s : State) (v : Settings) : (putSettings s v).sync = s.sync := rfl
@[simp] theorem putSettings_sched (s : State) (v : Settings) : (putSettings s v).sched = s.sched := rfl
@[simp] theorem putSettings_units (s : State) (v : Settings) : (putSettings s v).units = s.units := rfl
@[simp] theorem putSettings_memErr (s : State) (v : Settings) : (putSettings s v).memErr = s.memErr := rfl
@[simp] theorem putSettings_lft (s : State) (v : Settings) : (putSettings s v).lft = s.lft := rfl
@[simp] theorem putSettings_log (s : State) (v : Settings) : (putSettings s v).log = s.log := rfl
@[simp] theorem putSettings_settings (s : State) (v : Settings) : (putSettings s v).settings = v := rfl
@[simp] theorem putSettings_time (s : State) (v : Settings) : (putSettings s v).time = s.time := rfl
@[simp] theorem putSettings_ao (s : State) (v : Settings) : (putSettings s v).ao = s.ao := rfl
@[simp] theorem putSettings_free (s : State) (v : Settings) : (putSettings s v).free = s.free := rfl
@[simp] theorem putSettings_bankReply (s : State) (v : Settings) : (putSettings s v).bankReply = s.bankReply := rfl
@[simp] theorem putSettings_trace (s : State) (v : Settings) : (putSettings s v).trace = s.trace := rfl
@[simp] theorem putSettings_place (s : State) (v : Settings) : (putSettings s v).place = s.place := rfl
@[simp] theorem putSettings_ports (s : State) (v : Settings) : (putSettings s v).ports = s.ports := rfl
@[simp] theorem putSettings_retr (s : State) (v : Settings) : (putSettings s v).retr = s.retr := rfl
@[simp] theorem putSettings_upd (s : State) (v : Settings) : (putSettings s v).upd = s.upd := rfl
@[simp] theorem putSettings_trails (s : State) (v : Settings) : (putSettings s v).trails = s.trails := rfl
@[simp] theorem putSettings_masks (s : State) (v : Settings) : (putSettings s v).masks = s.masks := rfl
@[simp] theorem putSettings_plans (s : State) (v : Settings) : (putSettings s v).plans = s.plans := rfl
@[simp] theorem putSettings_trailSlots (s : State) (v : Settings) : (putSettings s v).trailSlots = s.trailSlots := rfl
@[simp] theorem putSettings_power (s : State) (v : Settings) : (putSettings s v).power = s.power := rfl
@[simp] theorem putSettings_dev (s : State) (v : Settings) : (putSettings s v).dev = s.dev := rfl
@[simp] theorem putSettings_panel (s : State) (v : Settings) : (putSettings s v).panel = s.panel := rfl
@[simp] theorem putSettings_dap (s : State) (v : Settings) : (putSettings s v).dap = s.dap := rfl
@[simp] theorem putSettings_fw (s : State) (v : Settings) : (putSettings s v).fw = s.fw := rfl

/-! ### putTime -/

@[simp] theorem putTime_pending (s : State) (v : Time) : (putTime s v).pending = s.pending := rfl
@[simp] theorem putTime_mem (s : State) (v : Time) : (putTime s v).mem = s.mem := rfl
@[simp] theorem putTime_ctr (s : State) (v : Time) : (putTime s v).ctr = s.ctr := rfl
@[simp] theorem putTime_tiles (s : State) (v : Time) : (putTime s v).tiles = s.tiles := rfl
@[simp] theorem putTime_parts (s : State) (v : Time) : (putTime s v).parts = s.parts := rfl
@[simp] theorem putTime_sync (s : State) (v : Time) : (putTime s v).sync = s.sync := rfl
@[simp] theorem putTime_sched (s : State) (v : Time) : (putTime s v).sched = s.sched := rfl
@[simp] theorem putTime_units (s : State) (v : Time) : (putTime s v).units = s.units := rfl
@[simp] theorem putTime_memErr (s : State) (v : Time) : (putTime s v).memErr = s.memErr := rfl
@[simp] theorem putTime_lft (s : State) (v : Time) : (putTime s v).lft = s.lft := rfl
@[simp] theorem putTime_log (s : State) (v : Time) : (putTime s v).log = s.log := rfl
@[simp] theorem putTime_settings (s : State) (v : Time) : (putTime s v).settings = s.settings := rfl
@[simp] theorem putTime_time (s : State) (v : Time) : (putTime s v).time = v := rfl
@[simp] theorem putTime_ao (s : State) (v : Time) : (putTime s v).ao = s.ao := rfl
@[simp] theorem putTime_free (s : State) (v : Time) : (putTime s v).free = s.free := rfl
@[simp] theorem putTime_bankReply (s : State) (v : Time) : (putTime s v).bankReply = s.bankReply := rfl
@[simp] theorem putTime_trace (s : State) (v : Time) : (putTime s v).trace = s.trace := rfl
@[simp] theorem putTime_place (s : State) (v : Time) : (putTime s v).place = s.place := rfl
@[simp] theorem putTime_ports (s : State) (v : Time) : (putTime s v).ports = s.ports := rfl
@[simp] theorem putTime_retr (s : State) (v : Time) : (putTime s v).retr = s.retr := rfl
@[simp] theorem putTime_upd (s : State) (v : Time) : (putTime s v).upd = s.upd := rfl
@[simp] theorem putTime_trails (s : State) (v : Time) : (putTime s v).trails = s.trails := rfl
@[simp] theorem putTime_masks (s : State) (v : Time) : (putTime s v).masks = s.masks := rfl
@[simp] theorem putTime_plans (s : State) (v : Time) : (putTime s v).plans = s.plans := rfl
@[simp] theorem putTime_trailSlots (s : State) (v : Time) : (putTime s v).trailSlots = s.trailSlots := rfl
@[simp] theorem putTime_power (s : State) (v : Time) : (putTime s v).power = s.power := rfl
@[simp] theorem putTime_dev (s : State) (v : Time) : (putTime s v).dev = s.dev := rfl
@[simp] theorem putTime_panel (s : State) (v : Time) : (putTime s v).panel = s.panel := rfl
@[simp] theorem putTime_dap (s : State) (v : Time) : (putTime s v).dap = s.dap := rfl
@[simp] theorem putTime_fw (s : State) (v : Time) : (putTime s v).fw = s.fw := rfl

/-! ### putDap -/

@[simp] theorem putDap_pending (s : State) (v : Dap) : (putDap s v).pending = s.pending := rfl
@[simp] theorem putDap_mem (s : State) (v : Dap) : (putDap s v).mem = s.mem := rfl
@[simp] theorem putDap_ctr (s : State) (v : Dap) : (putDap s v).ctr = s.ctr := rfl
@[simp] theorem putDap_tiles (s : State) (v : Dap) : (putDap s v).tiles = s.tiles := rfl
@[simp] theorem putDap_parts (s : State) (v : Dap) : (putDap s v).parts = s.parts := rfl
@[simp] theorem putDap_sync (s : State) (v : Dap) : (putDap s v).sync = s.sync := rfl
@[simp] theorem putDap_sched (s : State) (v : Dap) : (putDap s v).sched = s.sched := rfl
@[simp] theorem putDap_units (s : State) (v : Dap) : (putDap s v).units = s.units := rfl
@[simp] theorem putDap_memErr (s : State) (v : Dap) : (putDap s v).memErr = s.memErr := rfl
@[simp] theorem putDap_lft (s : State) (v : Dap) : (putDap s v).lft = s.lft := rfl
@[simp] theorem putDap_log (s : State) (v : Dap) : (putDap s v).log = s.log := rfl
@[simp] theorem putDap_settings (s : State) (v : Dap) : (putDap s v).settings = s.settings := rfl
@[simp] theorem putDap_time (s : State) (v : Dap) : (putDap s v).time = s.time := rfl
@[simp] theorem putDap_ao (s : State) (v : Dap) : (putDap s v).ao = s.ao := rfl
@[simp] theorem putDap_free (s : State) (v : Dap) : (putDap s v).free = s.free := rfl
@[simp] theorem putDap_bankReply (s : State) (v : Dap) : (putDap s v).bankReply = s.bankReply := rfl
@[simp] theorem putDap_trace (s : State) (v : Dap) : (putDap s v).trace = s.trace := rfl
@[simp] theorem putDap_place (s : State) (v : Dap) : (putDap s v).place = s.place := rfl
@[simp] theorem putDap_ports (s : State) (v : Dap) : (putDap s v).ports = s.ports := rfl
@[simp] theorem putDap_retr (s : State) (v : Dap) : (putDap s v).retr = s.retr := rfl
@[simp] theorem putDap_upd (s : State) (v : Dap) : (putDap s v).upd = s.upd := rfl
@[simp] theorem putDap_trails (s : State) (v : Dap) : (putDap s v).trails = s.trails := rfl
@[simp] theorem putDap_masks (s : State) (v : Dap) : (putDap s v).masks = s.masks := rfl
@[simp] theorem putDap_plans (s : State) (v : Dap) : (putDap s v).plans = s.plans := rfl
@[simp] theorem putDap_trailSlots (s : State) (v : Dap) : (putDap s v).trailSlots = s.trailSlots := rfl
@[simp] theorem putDap_power (s : State) (v : Dap) : (putDap s v).power = s.power := rfl
@[simp] theorem putDap_dev (s : State) (v : Dap) : (putDap s v).dev = s.dev := rfl
@[simp] theorem putDap_panel (s : State) (v : Dap) : (putDap s v).panel = s.panel := rfl
@[simp] theorem putDap_dap (s : State) (v : Dap) : (putDap s v).dap = v := rfl
@[simp] theorem putDap_fw (s : State) (v : Dap) : (putDap s v).fw = s.fw := rfl

/-! ### putPorts -/

@[simp] theorem putPorts_pending (s : State) (v : Ports) : (putPorts s v).pending = s.pending := rfl
@[simp] theorem putPorts_mem (s : State) (v : Ports) : (putPorts s v).mem = s.mem := rfl
@[simp] theorem putPorts_ctr (s : State) (v : Ports) : (putPorts s v).ctr = s.ctr := rfl
@[simp] theorem putPorts_tiles (s : State) (v : Ports) : (putPorts s v).tiles = s.tiles := rfl
@[simp] theorem putPorts_parts (s : State) (v : Ports) : (putPorts s v).parts = s.parts := rfl
@[simp] theorem putPorts_sync (s : State) (v : Ports) : (putPorts s v).sync = s.sync := rfl
@[simp] theorem putPorts_sched (s : State) (v : Ports) : (putPorts s v).sched = s.sched := rfl
@[simp] theorem putPorts_units (s : State) (v : Ports) : (putPorts s v).units = s.units := rfl
@[simp] theorem putPorts_memErr (s : State) (v : Ports) : (putPorts s v).memErr = s.memErr := rfl
@[simp] theorem putPorts_lft (s : State) (v : Ports) : (putPorts s v).lft = s.lft := rfl
@[simp] theorem putPorts_log (s : State) (v : Ports) : (putPorts s v).log = s.log := rfl
@[simp] theorem putPorts_settings (s : State) (v : Ports) : (putPorts s v).settings = s.settings := rfl
@[simp] theorem putPorts_time (s : State) (v : Ports) : (putPorts s v).time = s.time := rfl
@[simp] theorem putPorts_ao (s : State) (v : Ports) : (putPorts s v).ao = s.ao := rfl
@[simp] theorem putPorts_free (s : State) (v : Ports) : (putPorts s v).free = s.free := rfl
@[simp] theorem putPorts_bankReply (s : State) (v : Ports) : (putPorts s v).bankReply = s.bankReply := rfl
@[simp] theorem putPorts_trace (s : State) (v : Ports) : (putPorts s v).trace = s.trace := rfl
@[simp] theorem putPorts_place (s : State) (v : Ports) : (putPorts s v).place = s.place := rfl
@[simp] theorem putPorts_ports (s : State) (v : Ports) : (putPorts s v).ports = v := rfl
@[simp] theorem putPorts_retr (s : State) (v : Ports) : (putPorts s v).retr = s.retr := rfl
@[simp] theorem putPorts_upd (s : State) (v : Ports) : (putPorts s v).upd = s.upd := rfl
@[simp] theorem putPorts_trails (s : State) (v : Ports) : (putPorts s v).trails = s.trails := rfl
@[simp] theorem putPorts_masks (s : State) (v : Ports) : (putPorts s v).masks = s.masks := rfl
@[simp] theorem putPorts_plans (s : State) (v : Ports) : (putPorts s v).plans = s.plans := rfl
@[simp] theorem putPorts_trailSlots (s : State) (v : Ports) : (putPorts s v).trailSlots = s.trailSlots := rfl
@[simp] theorem putPorts_power (s : State) (v : Ports) : (putPorts s v).power = s.power := rfl
@[simp] theorem putPorts_dev (s : State) (v : Ports) : (putPorts s v).dev = s.dev := rfl
@[simp] theorem putPorts_panel (s : State) (v : Ports) : (putPorts s v).panel = s.panel := rfl
@[simp] theorem putPorts_dap (s : State) (v : Ports) : (putPorts s v).dap = s.dap := rfl
@[simp] theorem putPorts_fw (s : State) (v : Ports) : (putPorts s v).fw = s.fw := rfl

/-! ### putFront -/

@[simp] theorem putFront_pending (s : State) (v : FrontPanel) : (putFront s v).pending = s.pending := rfl
@[simp] theorem putFront_mem (s : State) (v : FrontPanel) : (putFront s v).mem = s.mem := rfl
@[simp] theorem putFront_ctr (s : State) (v : FrontPanel) : (putFront s v).ctr = s.ctr := rfl
@[simp] theorem putFront_tiles (s : State) (v : FrontPanel) : (putFront s v).tiles = s.tiles := rfl
@[simp] theorem putFront_parts (s : State) (v : FrontPanel) : (putFront s v).parts = s.parts := rfl
@[simp] theorem putFront_sync (s : State) (v : FrontPanel) : (putFront s v).sync = s.sync := rfl
@[simp] theorem putFront_sched (s : State) (v : FrontPanel) : (putFront s v).sched = s.sched := rfl
@[simp] theorem putFront_units (s : State) (v : FrontPanel) : (putFront s v).units = s.units := rfl
@[simp] theorem putFront_memErr (s : State) (v : FrontPanel) : (putFront s v).memErr = s.memErr := rfl
@[simp] theorem putFront_lft (s : State) (v : FrontPanel) : (putFront s v).lft = s.lft := rfl
@[simp] theorem putFront_log (s : State) (v : FrontPanel) : (putFront s v).log = s.log := rfl
@[simp] theorem putFront_settings (s : State) (v : FrontPanel) : (putFront s v).settings = s.settings := rfl
@[simp] theorem putFront_time (s : State) (v : FrontPanel) : (putFront s v).time = s.time := rfl
@[simp] theorem putFront_ao (s : State) (v : FrontPanel) : (putFront s v).ao = s.ao := rfl
@[simp] theorem putFront_free (s : State) (v : FrontPanel) : (putFront s v).free = s.free := rfl
@[simp] theorem putFront_bankReply (s : State) (v : FrontPanel) : (putFront s v).bankReply = s.bankReply := rfl
@[simp] theorem putFront_trace (s : State) (v : FrontPanel) : (putFront s v).trace = s.trace := rfl
@[simp] theorem putFront_place (s : State) (v : FrontPanel) : (putFront s v).place = s.place := rfl
@[simp] theorem putFront_ports (s : State) (v : FrontPanel) : (putFront s v).ports = s.ports := rfl
@[simp] theorem putFront_retr (s : State) (v : FrontPanel) : (putFront s v).retr = s.retr := rfl
@[simp] theorem putFront_upd (s : State) (v : FrontPanel) : (putFront s v).upd = s.upd := rfl
@[simp] theorem putFront_trails (s : State) (v : FrontPanel) : (putFront s v).trails = s.trails := rfl
@[simp] theorem putFront_masks (s : State) (v : FrontPanel) : (putFront s v).masks = s.masks := rfl
@[simp] theorem putFront_plans (s : State) (v : FrontPanel) : (putFront s v).plans = s.plans := rfl
@[simp] theorem putFront_trailSlots (s : State) (v : FrontPanel) : (putFront s v).trailSlots = s.trailSlots := rfl
@[simp] theorem putFront_power (s : State) (v : FrontPanel) : (putFront s v).power = s.power := rfl
@[simp] theorem putFront_dev (s : State) (v : FrontPanel) : (putFront s v).dev = s.dev := rfl
@[simp] theorem putFront_panel (s : State) (v : FrontPanel) : (putFront s v).panel = v := rfl
@[simp] theorem putFront_dap (s : State) (v : FrontPanel) : (putFront s v).dap = s.dap := rfl
@[simp] theorem putFront_fw (s : State) (v : FrontPanel) : (putFront s v).fw = s.fw := rfl

/-! ### putTrace -/

@[simp] theorem putTrace_pending (s : State) (v : Trace) : (putTrace s v).pending = s.pending := rfl
@[simp] theorem putTrace_mem (s : State) (v : Trace) : (putTrace s v).mem = s.mem := rfl
@[simp] theorem putTrace_ctr (s : State) (v : Trace) : (putTrace s v).ctr = s.ctr := rfl
@[simp] theorem putTrace_tiles (s : State) (v : Trace) : (putTrace s v).tiles = s.tiles := rfl
@[simp] theorem putTrace_parts (s : State) (v : Trace) : (putTrace s v).parts = s.parts := rfl
@[simp] theorem putTrace_sync (s : State) (v : Trace) : (putTrace s v).sync = s.sync := rfl
@[simp] theorem putTrace_sched (s : State) (v : Trace) : (putTrace s v).sched = s.sched := rfl
@[simp] theorem putTrace_units (s : State) (v : Trace) : (putTrace s v).units = s.units := rfl
@[simp] theorem putTrace_memErr (s : State) (v : Trace) : (putTrace s v).memErr = s.memErr := rfl
@[simp] theorem putTrace_lft (s : State) (v : Trace) : (putTrace s v).lft = s.lft := rfl
@[simp] theorem putTrace_log (s : State) (v : Trace) : (putTrace s v).log = s.log := rfl
@[simp] theorem putTrace_settings (s : State) (v : Trace) : (putTrace s v).settings = s.settings := rfl
@[simp] theorem putTrace_time (s : State) (v : Trace) : (putTrace s v).time = s.time := rfl
@[simp] theorem putTrace_ao (s : State) (v : Trace) : (putTrace s v).ao = s.ao := rfl
@[simp] theorem putTrace_free (s : State) (v : Trace) : (putTrace s v).free = s.free := rfl
@[simp] theorem putTrace_bankReply (s : State) (v : Trace) : (putTrace s v).bankReply = s.bankReply := rfl
@[simp] theorem putTrace_trace (s : State) (v : Trace) : (putTrace s v).trace = v := rfl
@[simp] theorem putTrace_place (s : State) (v : Trace) : (putTrace s v).place = s.place := rfl
@[simp] theorem putTrace_ports (s : State) (v : Trace) : (putTrace s v).ports = s.ports := rfl
@[simp] theorem putTrace_retr (s : State) (v : Trace) : (putTrace s v).retr = s.retr := rfl
@[simp] theorem putTrace_upd (s : State) (v : Trace) : (putTrace s v).upd = s.upd := rfl
@[simp] theorem putTrace_trails (s : State) (v : Trace) : (putTrace s v).trails = s.trails := rfl
@[simp] theorem putTrace_masks (s : State) (v : Trace) : (putTrace s v).masks = s.masks := rfl
@[simp] theorem putTrace_plans (s : State) (v : Trace) : (putTrace s v).plans = s.plans := rfl
@[simp] theorem putTrace_trailSlots (s : State) (v : Trace) : (putTrace s v).trailSlots = s.trailSlots := rfl
@[simp] theorem putTrace_power (s : State) (v : Trace) : (putTrace s v).power = s.power := rfl
@[simp] theorem putTrace_dev (s : State) (v : Trace) : (putTrace s v).dev = s.dev := rfl
@[simp] theorem putTrace_panel (s : State) (v : Trace) : (putTrace s v).panel = s.panel := rfl
@[simp] theorem putTrace_dap (s : State) (v : Trace) : (putTrace s v).dap = s.dap := rfl
@[simp] theorem putTrace_fw (s : State) (v : Trace) : (putTrace s v).fw = s.fw := rfl

/-! ### putMem -/

@[simp] theorem putMem_pending (s : State) (v : Map (BitVec 8)) : (putMem s v).pending = s.pending := rfl
@[simp] theorem putMem_mem (s : State) (v : Map (BitVec 8)) : (putMem s v).mem = v := rfl
@[simp] theorem putMem_ctr (s : State) (v : Map (BitVec 8)) : (putMem s v).ctr = s.ctr := rfl
@[simp] theorem putMem_tiles (s : State) (v : Map (BitVec 8)) : (putMem s v).tiles = s.tiles := rfl
@[simp] theorem putMem_parts (s : State) (v : Map (BitVec 8)) : (putMem s v).parts = s.parts := rfl
@[simp] theorem putMem_sync (s : State) (v : Map (BitVec 8)) : (putMem s v).sync = s.sync := rfl
@[simp] theorem putMem_sched (s : State) (v : Map (BitVec 8)) : (putMem s v).sched = s.sched := rfl
@[simp] theorem putMem_units (s : State) (v : Map (BitVec 8)) : (putMem s v).units = s.units := rfl
@[simp] theorem putMem_memErr (s : State) (v : Map (BitVec 8)) : (putMem s v).memErr = s.memErr := rfl
@[simp] theorem putMem_lft (s : State) (v : Map (BitVec 8)) : (putMem s v).lft = s.lft := rfl
@[simp] theorem putMem_log (s : State) (v : Map (BitVec 8)) : (putMem s v).log = s.log := rfl
@[simp] theorem putMem_settings (s : State) (v : Map (BitVec 8)) : (putMem s v).settings = s.settings := rfl
@[simp] theorem putMem_time (s : State) (v : Map (BitVec 8)) : (putMem s v).time = s.time := rfl
@[simp] theorem putMem_ao (s : State) (v : Map (BitVec 8)) : (putMem s v).ao = s.ao := rfl
@[simp] theorem putMem_free (s : State) (v : Map (BitVec 8)) : (putMem s v).free = s.free := rfl
@[simp] theorem putMem_bankReply (s : State) (v : Map (BitVec 8)) : (putMem s v).bankReply = s.bankReply := rfl
@[simp] theorem putMem_trace (s : State) (v : Map (BitVec 8)) : (putMem s v).trace = s.trace := rfl
@[simp] theorem putMem_place (s : State) (v : Map (BitVec 8)) : (putMem s v).place = s.place := rfl
@[simp] theorem putMem_ports (s : State) (v : Map (BitVec 8)) : (putMem s v).ports = s.ports := rfl
@[simp] theorem putMem_retr (s : State) (v : Map (BitVec 8)) : (putMem s v).retr = s.retr := rfl
@[simp] theorem putMem_upd (s : State) (v : Map (BitVec 8)) : (putMem s v).upd = s.upd := rfl
@[simp] theorem putMem_trails (s : State) (v : Map (BitVec 8)) : (putMem s v).trails = s.trails := rfl
@[simp] theorem putMem_masks (s : State) (v : Map (BitVec 8)) : (putMem s v).masks = s.masks := rfl
@[simp] theorem putMem_plans (s : State) (v : Map (BitVec 8)) : (putMem s v).plans = s.plans := rfl
@[simp] theorem putMem_trailSlots (s : State) (v : Map (BitVec 8)) : (putMem s v).trailSlots = s.trailSlots := rfl
@[simp] theorem putMem_power (s : State) (v : Map (BitVec 8)) : (putMem s v).power = s.power := rfl
@[simp] theorem putMem_dev (s : State) (v : Map (BitVec 8)) : (putMem s v).dev = s.dev := rfl
@[simp] theorem putMem_panel (s : State) (v : Map (BitVec 8)) : (putMem s v).panel = s.panel := rfl
@[simp] theorem putMem_dap (s : State) (v : Map (BitVec 8)) : (putMem s v).dap = s.dap := rfl
@[simp] theorem putMem_fw (s : State) (v : Map (BitVec 8)) : (putMem s v).fw = s.fw := rfl

/-! ### putCtrs -/

@[simp] theorem putCtrs_pending (s : State) (v : Map Nat) : (putCtrs s v).pending = s.pending := rfl
@[simp] theorem putCtrs_mem (s : State) (v : Map Nat) : (putCtrs s v).mem = s.mem := rfl
@[simp] theorem putCtrs_ctr (s : State) (v : Map Nat) : (putCtrs s v).ctr = v := rfl
@[simp] theorem putCtrs_tiles (s : State) (v : Map Nat) : (putCtrs s v).tiles = s.tiles := rfl
@[simp] theorem putCtrs_parts (s : State) (v : Map Nat) : (putCtrs s v).parts = s.parts := rfl
@[simp] theorem putCtrs_sync (s : State) (v : Map Nat) : (putCtrs s v).sync = s.sync := rfl
@[simp] theorem putCtrs_sched (s : State) (v : Map Nat) : (putCtrs s v).sched = s.sched := rfl
@[simp] theorem putCtrs_units (s : State) (v : Map Nat) : (putCtrs s v).units = s.units := rfl
@[simp] theorem putCtrs_memErr (s : State) (v : Map Nat) : (putCtrs s v).memErr = s.memErr := rfl
@[simp] theorem putCtrs_lft (s : State) (v : Map Nat) : (putCtrs s v).lft = s.lft := rfl
@[simp] theorem putCtrs_log (s : State) (v : Map Nat) : (putCtrs s v).log = s.log := rfl
@[simp] theorem putCtrs_settings (s : State) (v : Map Nat) : (putCtrs s v).settings = s.settings := rfl
@[simp] theorem putCtrs_time (s : State) (v : Map Nat) : (putCtrs s v).time = s.time := rfl
@[simp] theorem putCtrs_ao (s : State) (v : Map Nat) : (putCtrs s v).ao = s.ao := rfl
@[simp] theorem putCtrs_free (s : State) (v : Map Nat) : (putCtrs s v).free = s.free := rfl
@[simp] theorem putCtrs_bankReply (s : State) (v : Map Nat) : (putCtrs s v).bankReply = s.bankReply := rfl
@[simp] theorem putCtrs_trace (s : State) (v : Map Nat) : (putCtrs s v).trace = s.trace := rfl
@[simp] theorem putCtrs_place (s : State) (v : Map Nat) : (putCtrs s v).place = s.place := rfl
@[simp] theorem putCtrs_ports (s : State) (v : Map Nat) : (putCtrs s v).ports = s.ports := rfl
@[simp] theorem putCtrs_retr (s : State) (v : Map Nat) : (putCtrs s v).retr = s.retr := rfl
@[simp] theorem putCtrs_upd (s : State) (v : Map Nat) : (putCtrs s v).upd = s.upd := rfl
@[simp] theorem putCtrs_trails (s : State) (v : Map Nat) : (putCtrs s v).trails = s.trails := rfl
@[simp] theorem putCtrs_masks (s : State) (v : Map Nat) : (putCtrs s v).masks = s.masks := rfl
@[simp] theorem putCtrs_plans (s : State) (v : Map Nat) : (putCtrs s v).plans = s.plans := rfl
@[simp] theorem putCtrs_trailSlots (s : State) (v : Map Nat) : (putCtrs s v).trailSlots = s.trailSlots := rfl
@[simp] theorem putCtrs_power (s : State) (v : Map Nat) : (putCtrs s v).power = s.power := rfl
@[simp] theorem putCtrs_dev (s : State) (v : Map Nat) : (putCtrs s v).dev = s.dev := rfl
@[simp] theorem putCtrs_panel (s : State) (v : Map Nat) : (putCtrs s v).panel = s.panel := rfl
@[simp] theorem putCtrs_dap (s : State) (v : Map Nat) : (putCtrs s v).dap = s.dap := rfl
@[simp] theorem putCtrs_fw (s : State) (v : Map Nat) : (putCtrs s v).fw = s.fw := rfl

/-! ### putPower -/

@[simp] theorem putPower_pending (s : State) (v : Power) : (putPower s v).pending = s.pending := rfl
@[simp] theorem putPower_mem (s : State) (v : Power) : (putPower s v).mem = s.mem := rfl
@[simp] theorem putPower_ctr (s : State) (v : Power) : (putPower s v).ctr = s.ctr := rfl
@[simp] theorem putPower_tiles (s : State) (v : Power) : (putPower s v).tiles = s.tiles := rfl
@[simp] theorem putPower_parts (s : State) (v : Power) : (putPower s v).parts = s.parts := rfl
@[simp] theorem putPower_sync (s : State) (v : Power) : (putPower s v).sync = s.sync := rfl
@[simp] theorem putPower_sched (s : State) (v : Power) : (putPower s v).sched = s.sched := rfl
@[simp] theorem putPower_units (s : State) (v : Power) : (putPower s v).units = s.units := rfl
@[simp] theorem putPower_memErr (s : State) (v : Power) : (putPower s v).memErr = s.memErr := rfl
@[simp] theorem putPower_lft (s : State) (v : Power) : (putPower s v).lft = s.lft := rfl
@[simp] theorem putPower_log (s : State) (v : Power) : (putPower s v).log = s.log := rfl
@[simp] theorem putPower_settings (s : State) (v : Power) : (putPower s v).settings = s.settings := rfl
@[simp] theorem putPower_time (s : State) (v : Power) : (putPower s v).time = s.time := rfl
@[simp] theorem putPower_ao (s : State) (v : Power) : (putPower s v).ao = s.ao := rfl
@[simp] theorem putPower_free (s : State) (v : Power) : (putPower s v).free = s.free := rfl
@[simp] theorem putPower_bankReply (s : State) (v : Power) : (putPower s v).bankReply = s.bankReply := rfl
@[simp] theorem putPower_trace (s : State) (v : Power) : (putPower s v).trace = s.trace := rfl
@[simp] theorem putPower_place (s : State) (v : Power) : (putPower s v).place = s.place := rfl
@[simp] theorem putPower_ports (s : State) (v : Power) : (putPower s v).ports = s.ports := rfl
@[simp] theorem putPower_retr (s : State) (v : Power) : (putPower s v).retr = s.retr := rfl
@[simp] theorem putPower_upd (s : State) (v : Power) : (putPower s v).upd = s.upd := rfl
@[simp] theorem putPower_trails (s : State) (v : Power) : (putPower s v).trails = s.trails := rfl
@[simp] theorem putPower_masks (s : State) (v : Power) : (putPower s v).masks = s.masks := rfl
@[simp] theorem putPower_plans (s : State) (v : Power) : (putPower s v).plans = s.plans := rfl
@[simp] theorem putPower_trailSlots (s : State) (v : Power) : (putPower s v).trailSlots = s.trailSlots := rfl
@[simp] theorem putPower_power (s : State) (v : Power) : (putPower s v).power = v := rfl
@[simp] theorem putPower_dev (s : State) (v : Power) : (putPower s v).dev = s.dev := rfl
@[simp] theorem putPower_panel (s : State) (v : Power) : (putPower s v).panel = s.panel := rfl
@[simp] theorem putPower_dap (s : State) (v : Power) : (putPower s v).dap = s.dap := rfl
@[simp] theorem putPower_fw (s : State) (v : Power) : (putPower s v).fw = s.fw := rfl

/-! ### putTrails -/

@[simp] theorem putTrails_pending (s : State) (l : List Trail) : (putTrails s l).pending = s.pending := rfl
@[simp] theorem putTrails_mem (s : State) (l : List Trail) : (putTrails s l).mem = s.mem := rfl
@[simp] theorem putTrails_ctr (s : State) (l : List Trail) : (putTrails s l).ctr = s.ctr := rfl
@[simp] theorem putTrails_tiles (s : State) (l : List Trail) : (putTrails s l).tiles = s.tiles := rfl
@[simp] theorem putTrails_parts (s : State) (l : List Trail) : (putTrails s l).parts = s.parts := rfl
@[simp] theorem putTrails_sync (s : State) (l : List Trail) : (putTrails s l).sync = s.sync := rfl
@[simp] theorem putTrails_sched (s : State) (l : List Trail) : (putTrails s l).sched = s.sched := rfl
@[simp] theorem putTrails_units (s : State) (l : List Trail) : (putTrails s l).units = s.units := rfl
@[simp] theorem putTrails_memErr (s : State) (l : List Trail) : (putTrails s l).memErr = s.memErr := rfl
@[simp] theorem putTrails_lft (s : State) (l : List Trail) : (putTrails s l).lft = s.lft := rfl
@[simp] theorem putTrails_log (s : State) (l : List Trail) : (putTrails s l).log = s.log := rfl
@[simp] theorem putTrails_settings (s : State) (l : List Trail) : (putTrails s l).settings = s.settings := rfl
@[simp] theorem putTrails_time (s : State) (l : List Trail) : (putTrails s l).time = s.time := rfl
@[simp] theorem putTrails_ao (s : State) (l : List Trail) : (putTrails s l).ao = s.ao := rfl
@[simp] theorem putTrails_free (s : State) (l : List Trail) : (putTrails s l).free = s.free := rfl
@[simp] theorem putTrails_bankReply (s : State) (l : List Trail) : (putTrails s l).bankReply = s.bankReply := rfl
@[simp] theorem putTrails_trace (s : State) (l : List Trail) : (putTrails s l).trace = s.trace := rfl
@[simp] theorem putTrails_place (s : State) (l : List Trail) : (putTrails s l).place = s.place := rfl
@[simp] theorem putTrails_ports (s : State) (l : List Trail) : (putTrails s l).ports = s.ports := rfl
@[simp] theorem putTrails_retr (s : State) (l : List Trail) : (putTrails s l).retr = s.retr := rfl
@[simp] theorem putTrails_upd (s : State) (l : List Trail) : (putTrails s l).upd = s.upd := rfl
@[simp] theorem putTrails_trails (s : State) (l : List Trail) : (putTrails s l).trails = l := rfl
@[simp] theorem putTrails_masks (s : State) (l : List Trail) : (putTrails s l).masks = s.masks := rfl
@[simp] theorem putTrails_plans (s : State) (l : List Trail) : (putTrails s l).plans = s.plans := rfl
@[simp] theorem putTrails_trailSlots (s : State) (l : List Trail) : (putTrails s l).trailSlots = s.trailSlots := rfl
@[simp] theorem putTrails_power (s : State) (l : List Trail) : (putTrails s l).power = s.power := rfl
@[simp] theorem putTrails_dev (s : State) (l : List Trail) : (putTrails s l).dev = s.dev := rfl
@[simp] theorem putTrails_panel (s : State) (l : List Trail) : (putTrails s l).panel = s.panel := rfl
@[simp] theorem putTrails_dap (s : State) (l : List Trail) : (putTrails s l).dap = s.dap := rfl
@[simp] theorem putTrails_fw (s : State) (l : List Trail) : (putTrails s l).fw = s.fw := rfl

/-! ### putMasks -/

@[simp] theorem putMasks_pending (s : State) (l : List MaskLoad) : (putMasks s l).pending = s.pending := rfl
@[simp] theorem putMasks_mem (s : State) (l : List MaskLoad) : (putMasks s l).mem = s.mem := rfl
@[simp] theorem putMasks_ctr (s : State) (l : List MaskLoad) : (putMasks s l).ctr = s.ctr := rfl
@[simp] theorem putMasks_tiles (s : State) (l : List MaskLoad) : (putMasks s l).tiles = s.tiles := rfl
@[simp] theorem putMasks_parts (s : State) (l : List MaskLoad) : (putMasks s l).parts = s.parts := rfl
@[simp] theorem putMasks_sync (s : State) (l : List MaskLoad) : (putMasks s l).sync = s.sync := rfl
@[simp] theorem putMasks_sched (s : State) (l : List MaskLoad) : (putMasks s l).sched = s.sched := rfl
@[simp] theorem putMasks_units (s : State) (l : List MaskLoad) : (putMasks s l).units = s.units := rfl
@[simp] theorem putMasks_memErr (s : State) (l : List MaskLoad) : (putMasks s l).memErr = s.memErr := rfl
@[simp] theorem putMasks_lft (s : State) (l : List MaskLoad) : (putMasks s l).lft = s.lft := rfl
@[simp] theorem putMasks_log (s : State) (l : List MaskLoad) : (putMasks s l).log = s.log := rfl
@[simp] theorem putMasks_settings (s : State) (l : List MaskLoad) : (putMasks s l).settings = s.settings := rfl
@[simp] theorem putMasks_time (s : State) (l : List MaskLoad) : (putMasks s l).time = s.time := rfl
@[simp] theorem putMasks_ao (s : State) (l : List MaskLoad) : (putMasks s l).ao = s.ao := rfl
@[simp] theorem putMasks_free (s : State) (l : List MaskLoad) : (putMasks s l).free = s.free := rfl
@[simp] theorem putMasks_bankReply (s : State) (l : List MaskLoad) : (putMasks s l).bankReply = s.bankReply := rfl
@[simp] theorem putMasks_trace (s : State) (l : List MaskLoad) : (putMasks s l).trace = s.trace := rfl
@[simp] theorem putMasks_place (s : State) (l : List MaskLoad) : (putMasks s l).place = s.place := rfl
@[simp] theorem putMasks_ports (s : State) (l : List MaskLoad) : (putMasks s l).ports = s.ports := rfl
@[simp] theorem putMasks_retr (s : State) (l : List MaskLoad) : (putMasks s l).retr = s.retr := rfl
@[simp] theorem putMasks_upd (s : State) (l : List MaskLoad) : (putMasks s l).upd = s.upd := rfl
@[simp] theorem putMasks_trails (s : State) (l : List MaskLoad) : (putMasks s l).trails = s.trails := rfl
@[simp] theorem putMasks_masks (s : State) (l : List MaskLoad) : (putMasks s l).masks = l := rfl
@[simp] theorem putMasks_plans (s : State) (l : List MaskLoad) : (putMasks s l).plans = s.plans := rfl
@[simp] theorem putMasks_trailSlots (s : State) (l : List MaskLoad) : (putMasks s l).trailSlots = s.trailSlots := rfl
@[simp] theorem putMasks_power (s : State) (l : List MaskLoad) : (putMasks s l).power = s.power := rfl
@[simp] theorem putMasks_dev (s : State) (l : List MaskLoad) : (putMasks s l).dev = s.dev := rfl
@[simp] theorem putMasks_panel (s : State) (l : List MaskLoad) : (putMasks s l).panel = s.panel := rfl
@[simp] theorem putMasks_dap (s : State) (l : List MaskLoad) : (putMasks s l).dap = s.dap := rfl
@[simp] theorem putMasks_fw (s : State) (l : List MaskLoad) : (putMasks s l).fw = s.fw := rfl

/-! ### putPlans -/

@[simp] theorem putPlans_pending (s : State) (l : List BuiltPlan) : (putPlans s l).pending = s.pending := rfl
@[simp] theorem putPlans_mem (s : State) (l : List BuiltPlan) : (putPlans s l).mem = s.mem := rfl
@[simp] theorem putPlans_ctr (s : State) (l : List BuiltPlan) : (putPlans s l).ctr = s.ctr := rfl
@[simp] theorem putPlans_tiles (s : State) (l : List BuiltPlan) : (putPlans s l).tiles = s.tiles := rfl
@[simp] theorem putPlans_parts (s : State) (l : List BuiltPlan) : (putPlans s l).parts = s.parts := rfl
@[simp] theorem putPlans_sync (s : State) (l : List BuiltPlan) : (putPlans s l).sync = s.sync := rfl
@[simp] theorem putPlans_sched (s : State) (l : List BuiltPlan) : (putPlans s l).sched = s.sched := rfl
@[simp] theorem putPlans_units (s : State) (l : List BuiltPlan) : (putPlans s l).units = s.units := rfl
@[simp] theorem putPlans_memErr (s : State) (l : List BuiltPlan) : (putPlans s l).memErr = s.memErr := rfl
@[simp] theorem putPlans_lft (s : State) (l : List BuiltPlan) : (putPlans s l).lft = s.lft := rfl
@[simp] theorem putPlans_log (s : State) (l : List BuiltPlan) : (putPlans s l).log = s.log := rfl
@[simp] theorem putPlans_settings (s : State) (l : List BuiltPlan) : (putPlans s l).settings = s.settings := rfl
@[simp] theorem putPlans_time (s : State) (l : List BuiltPlan) : (putPlans s l).time = s.time := rfl
@[simp] theorem putPlans_ao (s : State) (l : List BuiltPlan) : (putPlans s l).ao = s.ao := rfl
@[simp] theorem putPlans_free (s : State) (l : List BuiltPlan) : (putPlans s l).free = s.free := rfl
@[simp] theorem putPlans_bankReply (s : State) (l : List BuiltPlan) : (putPlans s l).bankReply = s.bankReply := rfl
@[simp] theorem putPlans_trace (s : State) (l : List BuiltPlan) : (putPlans s l).trace = s.trace := rfl
@[simp] theorem putPlans_place (s : State) (l : List BuiltPlan) : (putPlans s l).place = s.place := rfl
@[simp] theorem putPlans_ports (s : State) (l : List BuiltPlan) : (putPlans s l).ports = s.ports := rfl
@[simp] theorem putPlans_retr (s : State) (l : List BuiltPlan) : (putPlans s l).retr = s.retr := rfl
@[simp] theorem putPlans_upd (s : State) (l : List BuiltPlan) : (putPlans s l).upd = s.upd := rfl
@[simp] theorem putPlans_trails (s : State) (l : List BuiltPlan) : (putPlans s l).trails = s.trails := rfl
@[simp] theorem putPlans_masks (s : State) (l : List BuiltPlan) : (putPlans s l).masks = s.masks := rfl
@[simp] theorem putPlans_plans (s : State) (l : List BuiltPlan) : (putPlans s l).plans = l := rfl
@[simp] theorem putPlans_trailSlots (s : State) (l : List BuiltPlan) : (putPlans s l).trailSlots = s.trailSlots := rfl
@[simp] theorem putPlans_power (s : State) (l : List BuiltPlan) : (putPlans s l).power = s.power := rfl
@[simp] theorem putPlans_dev (s : State) (l : List BuiltPlan) : (putPlans s l).dev = s.dev := rfl
@[simp] theorem putPlans_panel (s : State) (l : List BuiltPlan) : (putPlans s l).panel = s.panel := rfl
@[simp] theorem putPlans_dap (s : State) (l : List BuiltPlan) : (putPlans s l).dap = s.dap := rfl
@[simp] theorem putPlans_fw (s : State) (l : List BuiltPlan) : (putPlans s l).fw = s.fw := rfl

/-! ### putTrailSlots -/

@[simp] theorem putTrailSlots_pending (s : State) (l : List (Nat × Nat)) : (putTrailSlots s l).pending = s.pending := rfl
@[simp] theorem putTrailSlots_mem (s : State) (l : List (Nat × Nat)) : (putTrailSlots s l).mem = s.mem := rfl
@[simp] theorem putTrailSlots_ctr (s : State) (l : List (Nat × Nat)) : (putTrailSlots s l).ctr = s.ctr := rfl
@[simp] theorem putTrailSlots_tiles (s : State) (l : List (Nat × Nat)) : (putTrailSlots s l).tiles = s.tiles := rfl
@[simp] theorem putTrailSlots_parts (s : State) (l : List (Nat × Nat)) : (putTrailSlots s l).parts = s.parts := rfl
@[simp] theorem putTrailSlots_sync (s : State) (l : List (Nat × Nat)) : (putTrailSlots s l).sync = s.sync := rfl
@[simp] theorem putTrailSlots_sched (s : State) (l : List (Nat × Nat)) : (putTrailSlots s l).sched = s.sched := rfl
@[simp] theorem putTrailSlots_units (s : State) (l : List (Nat × Nat)) : (putTrailSlots s l).units = s.units := rfl
@[simp] theorem putTrailSlots_memErr (s : State) (l : List (Nat × Nat)) : (putTrailSlots s l).memErr = s.memErr := rfl
@[simp] theorem putTrailSlots_lft (s : State) (l : List (Nat × Nat)) : (putTrailSlots s l).lft = s.lft := rfl
@[simp] theorem putTrailSlots_log (s : State) (l : List (Nat × Nat)) : (putTrailSlots s l).log = s.log := rfl
@[simp] theorem putTrailSlots_settings (s : State) (l : List (Nat × Nat)) : (putTrailSlots s l).settings = s.settings := rfl
@[simp] theorem putTrailSlots_time (s : State) (l : List (Nat × Nat)) : (putTrailSlots s l).time = s.time := rfl
@[simp] theorem putTrailSlots_ao (s : State) (l : List (Nat × Nat)) : (putTrailSlots s l).ao = s.ao := rfl
@[simp] theorem putTrailSlots_free (s : State) (l : List (Nat × Nat)) : (putTrailSlots s l).free = s.free := rfl
@[simp] theorem putTrailSlots_bankReply (s : State) (l : List (Nat × Nat)) : (putTrailSlots s l).bankReply = s.bankReply := rfl
@[simp] theorem putTrailSlots_trace (s : State) (l : List (Nat × Nat)) : (putTrailSlots s l).trace = s.trace := rfl
@[simp] theorem putTrailSlots_place (s : State) (l : List (Nat × Nat)) : (putTrailSlots s l).place = s.place := rfl
@[simp] theorem putTrailSlots_ports (s : State) (l : List (Nat × Nat)) : (putTrailSlots s l).ports = s.ports := rfl
@[simp] theorem putTrailSlots_retr (s : State) (l : List (Nat × Nat)) : (putTrailSlots s l).retr = s.retr := rfl
@[simp] theorem putTrailSlots_upd (s : State) (l : List (Nat × Nat)) : (putTrailSlots s l).upd = s.upd := rfl
@[simp] theorem putTrailSlots_trails (s : State) (l : List (Nat × Nat)) : (putTrailSlots s l).trails = s.trails := rfl
@[simp] theorem putTrailSlots_masks (s : State) (l : List (Nat × Nat)) : (putTrailSlots s l).masks = s.masks := rfl
@[simp] theorem putTrailSlots_plans (s : State) (l : List (Nat × Nat)) : (putTrailSlots s l).plans = s.plans := rfl
@[simp] theorem putTrailSlots_trailSlots (s : State) (l : List (Nat × Nat)) : (putTrailSlots s l).trailSlots = l := rfl
@[simp] theorem putTrailSlots_power (s : State) (l : List (Nat × Nat)) : (putTrailSlots s l).power = s.power := rfl
@[simp] theorem putTrailSlots_dev (s : State) (l : List (Nat × Nat)) : (putTrailSlots s l).dev = s.dev := rfl
@[simp] theorem putTrailSlots_panel (s : State) (l : List (Nat × Nat)) : (putTrailSlots s l).panel = s.panel := rfl
@[simp] theorem putTrailSlots_dap (s : State) (l : List (Nat × Nat)) : (putTrailSlots s l).dap = s.dap := rfl
@[simp] theorem putTrailSlots_fw (s : State) (l : List (Nat × Nat)) : (putTrailSlots s l).fw = s.fw := rfl

/-! ### putRetr -/

@[simp] theorem putRetr_pending (s : State) (v : Retr) : (putRetr s v).pending = s.pending := rfl
@[simp] theorem putRetr_mem (s : State) (v : Retr) : (putRetr s v).mem = s.mem := rfl
@[simp] theorem putRetr_ctr (s : State) (v : Retr) : (putRetr s v).ctr = s.ctr := rfl
@[simp] theorem putRetr_tiles (s : State) (v : Retr) : (putRetr s v).tiles = s.tiles := rfl
@[simp] theorem putRetr_parts (s : State) (v : Retr) : (putRetr s v).parts = s.parts := rfl
@[simp] theorem putRetr_sync (s : State) (v : Retr) : (putRetr s v).sync = s.sync := rfl
@[simp] theorem putRetr_sched (s : State) (v : Retr) : (putRetr s v).sched = s.sched := rfl
@[simp] theorem putRetr_units (s : State) (v : Retr) : (putRetr s v).units = s.units := rfl
@[simp] theorem putRetr_memErr (s : State) (v : Retr) : (putRetr s v).memErr = s.memErr := rfl
@[simp] theorem putRetr_lft (s : State) (v : Retr) : (putRetr s v).lft = s.lft := rfl
@[simp] theorem putRetr_log (s : State) (v : Retr) : (putRetr s v).log = s.log := rfl
@[simp] theorem putRetr_settings (s : State) (v : Retr) : (putRetr s v).settings = s.settings := rfl
@[simp] theorem putRetr_time (s : State) (v : Retr) : (putRetr s v).time = s.time := rfl
@[simp] theorem putRetr_ao (s : State) (v : Retr) : (putRetr s v).ao = s.ao := rfl
@[simp] theorem putRetr_free (s : State) (v : Retr) : (putRetr s v).free = s.free := rfl
@[simp] theorem putRetr_bankReply (s : State) (v : Retr) : (putRetr s v).bankReply = s.bankReply := rfl
@[simp] theorem putRetr_trace (s : State) (v : Retr) : (putRetr s v).trace = s.trace := rfl
@[simp] theorem putRetr_place (s : State) (v : Retr) : (putRetr s v).place = s.place := rfl
@[simp] theorem putRetr_ports (s : State) (v : Retr) : (putRetr s v).ports = s.ports := rfl
@[simp] theorem putRetr_retr (s : State) (v : Retr) : (putRetr s v).retr = v := rfl
@[simp] theorem putRetr_upd (s : State) (v : Retr) : (putRetr s v).upd = s.upd := rfl
@[simp] theorem putRetr_trails (s : State) (v : Retr) : (putRetr s v).trails = s.trails := rfl
@[simp] theorem putRetr_masks (s : State) (v : Retr) : (putRetr s v).masks = s.masks := rfl
@[simp] theorem putRetr_plans (s : State) (v : Retr) : (putRetr s v).plans = s.plans := rfl
@[simp] theorem putRetr_trailSlots (s : State) (v : Retr) : (putRetr s v).trailSlots = s.trailSlots := rfl
@[simp] theorem putRetr_power (s : State) (v : Retr) : (putRetr s v).power = s.power := rfl
@[simp] theorem putRetr_dev (s : State) (v : Retr) : (putRetr s v).dev = s.dev := rfl
@[simp] theorem putRetr_panel (s : State) (v : Retr) : (putRetr s v).panel = s.panel := rfl
@[simp] theorem putRetr_dap (s : State) (v : Retr) : (putRetr s v).dap = s.dap := rfl
@[simp] theorem putRetr_fw (s : State) (v : Retr) : (putRetr s v).fw = s.fw := rfl

/-! ### putUpd -/

@[simp] theorem putUpd_pending (s : State) (v : Upd) : (putUpd s v).pending = s.pending := rfl
@[simp] theorem putUpd_mem (s : State) (v : Upd) : (putUpd s v).mem = s.mem := rfl
@[simp] theorem putUpd_ctr (s : State) (v : Upd) : (putUpd s v).ctr = s.ctr := rfl
@[simp] theorem putUpd_tiles (s : State) (v : Upd) : (putUpd s v).tiles = s.tiles := rfl
@[simp] theorem putUpd_parts (s : State) (v : Upd) : (putUpd s v).parts = s.parts := rfl
@[simp] theorem putUpd_sync (s : State) (v : Upd) : (putUpd s v).sync = s.sync := rfl
@[simp] theorem putUpd_sched (s : State) (v : Upd) : (putUpd s v).sched = s.sched := rfl
@[simp] theorem putUpd_units (s : State) (v : Upd) : (putUpd s v).units = s.units := rfl
@[simp] theorem putUpd_memErr (s : State) (v : Upd) : (putUpd s v).memErr = s.memErr := rfl
@[simp] theorem putUpd_lft (s : State) (v : Upd) : (putUpd s v).lft = s.lft := rfl
@[simp] theorem putUpd_log (s : State) (v : Upd) : (putUpd s v).log = s.log := rfl
@[simp] theorem putUpd_settings (s : State) (v : Upd) : (putUpd s v).settings = s.settings := rfl
@[simp] theorem putUpd_time (s : State) (v : Upd) : (putUpd s v).time = s.time := rfl
@[simp] theorem putUpd_ao (s : State) (v : Upd) : (putUpd s v).ao = s.ao := rfl
@[simp] theorem putUpd_free (s : State) (v : Upd) : (putUpd s v).free = s.free := rfl
@[simp] theorem putUpd_bankReply (s : State) (v : Upd) : (putUpd s v).bankReply = s.bankReply := rfl
@[simp] theorem putUpd_trace (s : State) (v : Upd) : (putUpd s v).trace = s.trace := rfl
@[simp] theorem putUpd_place (s : State) (v : Upd) : (putUpd s v).place = s.place := rfl
@[simp] theorem putUpd_ports (s : State) (v : Upd) : (putUpd s v).ports = s.ports := rfl
@[simp] theorem putUpd_retr (s : State) (v : Upd) : (putUpd s v).retr = s.retr := rfl
@[simp] theorem putUpd_upd (s : State) (v : Upd) : (putUpd s v).upd = v := rfl
@[simp] theorem putUpd_trails (s : State) (v : Upd) : (putUpd s v).trails = s.trails := rfl
@[simp] theorem putUpd_masks (s : State) (v : Upd) : (putUpd s v).masks = s.masks := rfl
@[simp] theorem putUpd_plans (s : State) (v : Upd) : (putUpd s v).plans = s.plans := rfl
@[simp] theorem putUpd_trailSlots (s : State) (v : Upd) : (putUpd s v).trailSlots = s.trailSlots := rfl
@[simp] theorem putUpd_power (s : State) (v : Upd) : (putUpd s v).power = s.power := rfl
@[simp] theorem putUpd_dev (s : State) (v : Upd) : (putUpd s v).dev = s.dev := rfl
@[simp] theorem putUpd_panel (s : State) (v : Upd) : (putUpd s v).panel = s.panel := rfl
@[simp] theorem putUpd_dap (s : State) (v : Upd) : (putUpd s v).dap = s.dap := rfl
@[simp] theorem putUpd_fw (s : State) (v : Upd) : (putUpd s v).fw = s.fw := rfl

/-! ### putPlace -/

@[simp] theorem putPlace_pending (s : State) (p : Nat) (v : Placement) : (putPlace s p v).pending = s.pending := rfl
@[simp] theorem putPlace_mem (s : State) (p : Nat) (v : Placement) : (putPlace s p v).mem = s.mem := rfl
@[simp] theorem putPlace_ctr (s : State) (p : Nat) (v : Placement) : (putPlace s p v).ctr = s.ctr := rfl
@[simp] theorem putPlace_tiles (s : State) (p : Nat) (v : Placement) : (putPlace s p v).tiles = s.tiles := rfl
@[simp] theorem putPlace_parts (s : State) (p : Nat) (v : Placement) : (putPlace s p v).parts = s.parts := rfl
@[simp] theorem putPlace_sync (s : State) (p : Nat) (v : Placement) : (putPlace s p v).sync = s.sync := rfl
@[simp] theorem putPlace_sched (s : State) (p : Nat) (v : Placement) : (putPlace s p v).sched = s.sched := rfl
@[simp] theorem putPlace_units (s : State) (p : Nat) (v : Placement) : (putPlace s p v).units = s.units := rfl
@[simp] theorem putPlace_memErr (s : State) (p : Nat) (v : Placement) : (putPlace s p v).memErr = s.memErr := rfl
@[simp] theorem putPlace_lft (s : State) (p : Nat) (v : Placement) : (putPlace s p v).lft = s.lft := rfl
@[simp] theorem putPlace_log (s : State) (p : Nat) (v : Placement) : (putPlace s p v).log = s.log := rfl
@[simp] theorem putPlace_settings (s : State) (p : Nat) (v : Placement) : (putPlace s p v).settings = s.settings := rfl
@[simp] theorem putPlace_time (s : State) (p : Nat) (v : Placement) : (putPlace s p v).time = s.time := rfl
@[simp] theorem putPlace_ao (s : State) (p : Nat) (v : Placement) : (putPlace s p v).ao = s.ao := rfl
@[simp] theorem putPlace_free (s : State) (p : Nat) (v : Placement) : (putPlace s p v).free = s.free := rfl
@[simp] theorem putPlace_bankReply (s : State) (p : Nat) (v : Placement) : (putPlace s p v).bankReply = s.bankReply := rfl
@[simp] theorem putPlace_trace (s : State) (p : Nat) (v : Placement) : (putPlace s p v).trace = s.trace := rfl
@[simp] theorem putPlace_ports (s : State) (p : Nat) (v : Placement) : (putPlace s p v).ports = s.ports := rfl
@[simp] theorem putPlace_retr (s : State) (p : Nat) (v : Placement) : (putPlace s p v).retr = s.retr := rfl
@[simp] theorem putPlace_upd (s : State) (p : Nat) (v : Placement) : (putPlace s p v).upd = s.upd := rfl
@[simp] theorem putPlace_trails (s : State) (p : Nat) (v : Placement) : (putPlace s p v).trails = s.trails := rfl
@[simp] theorem putPlace_masks (s : State) (p : Nat) (v : Placement) : (putPlace s p v).masks = s.masks := rfl
@[simp] theorem putPlace_plans (s : State) (p : Nat) (v : Placement) : (putPlace s p v).plans = s.plans := rfl
@[simp] theorem putPlace_trailSlots (s : State) (p : Nat) (v : Placement) : (putPlace s p v).trailSlots = s.trailSlots := rfl
@[simp] theorem putPlace_power (s : State) (p : Nat) (v : Placement) : (putPlace s p v).power = s.power := rfl
@[simp] theorem putPlace_dev (s : State) (p : Nat) (v : Placement) : (putPlace s p v).dev = s.dev := rfl
@[simp] theorem putPlace_panel (s : State) (p : Nat) (v : Placement) : (putPlace s p v).panel = s.panel := rfl
@[simp] theorem putPlace_dap (s : State) (p : Nat) (v : Placement) : (putPlace s p v).dap = s.dap := rfl
@[simp] theorem putPlace_fw (s : State) (p : Nat) (v : Placement) : (putPlace s p v).fw = s.fw := rfl

/-! ### putFw -/

@[simp] theorem putFw_pending (s : State) (v : Firmware) : (putFw s v).pending = s.pending := rfl
@[simp] theorem putFw_mem (s : State) (v : Firmware) : (putFw s v).mem = s.mem := rfl
@[simp] theorem putFw_ctr (s : State) (v : Firmware) : (putFw s v).ctr = s.ctr := rfl
@[simp] theorem putFw_tiles (s : State) (v : Firmware) : (putFw s v).tiles = s.tiles := rfl
@[simp] theorem putFw_parts (s : State) (v : Firmware) : (putFw s v).parts = s.parts := rfl
@[simp] theorem putFw_sync (s : State) (v : Firmware) : (putFw s v).sync = s.sync := rfl
@[simp] theorem putFw_sched (s : State) (v : Firmware) : (putFw s v).sched = s.sched := rfl
@[simp] theorem putFw_units (s : State) (v : Firmware) : (putFw s v).units = s.units := rfl
@[simp] theorem putFw_memErr (s : State) (v : Firmware) : (putFw s v).memErr = s.memErr := rfl
@[simp] theorem putFw_lft (s : State) (v : Firmware) : (putFw s v).lft = s.lft := rfl
@[simp] theorem putFw_log (s : State) (v : Firmware) : (putFw s v).log = s.log := rfl
@[simp] theorem putFw_settings (s : State) (v : Firmware) : (putFw s v).settings = s.settings := rfl
@[simp] theorem putFw_time (s : State) (v : Firmware) : (putFw s v).time = s.time := rfl
@[simp] theorem putFw_ao (s : State) (v : Firmware) : (putFw s v).ao = s.ao := rfl
@[simp] theorem putFw_free (s : State) (v : Firmware) : (putFw s v).free = s.free := rfl
@[simp] theorem putFw_bankReply (s : State) (v : Firmware) : (putFw s v).bankReply = s.bankReply := rfl
@[simp] theorem putFw_trace (s : State) (v : Firmware) : (putFw s v).trace = s.trace := rfl
@[simp] theorem putFw_place (s : State) (v : Firmware) : (putFw s v).place = s.place := rfl
@[simp] theorem putFw_ports (s : State) (v : Firmware) : (putFw s v).ports = s.ports := rfl
@[simp] theorem putFw_retr (s : State) (v : Firmware) : (putFw s v).retr = s.retr := rfl
@[simp] theorem putFw_upd (s : State) (v : Firmware) : (putFw s v).upd = s.upd := rfl
@[simp] theorem putFw_trails (s : State) (v : Firmware) : (putFw s v).trails = s.trails := rfl
@[simp] theorem putFw_masks (s : State) (v : Firmware) : (putFw s v).masks = s.masks := rfl
@[simp] theorem putFw_plans (s : State) (v : Firmware) : (putFw s v).plans = s.plans := rfl
@[simp] theorem putFw_trailSlots (s : State) (v : Firmware) : (putFw s v).trailSlots = s.trailSlots := rfl
@[simp] theorem putFw_power (s : State) (v : Firmware) : (putFw s v).power = s.power := rfl
@[simp] theorem putFw_dev (s : State) (v : Firmware) : (putFw s v).dev = s.dev := rfl
@[simp] theorem putFw_panel (s : State) (v : Firmware) : (putFw s v).panel = s.panel := rfl
@[simp] theorem putFw_dap (s : State) (v : Firmware) : (putFw s v).dap = s.dap := rfl
@[simp] theorem putFw_fw (s : State) (v : Firmware) : (putFw s v).fw = v := rfl

/-! ### putDev -/

@[simp] theorem putDev_pending (s : State) (v : Dev) : (putDev s v).pending = s.pending := rfl
@[simp] theorem putDev_mem (s : State) (v : Dev) : (putDev s v).mem = s.mem := rfl
@[simp] theorem putDev_ctr (s : State) (v : Dev) : (putDev s v).ctr = s.ctr := rfl
@[simp] theorem putDev_tiles (s : State) (v : Dev) : (putDev s v).tiles = s.tiles := rfl
@[simp] theorem putDev_parts (s : State) (v : Dev) : (putDev s v).parts = s.parts := rfl
@[simp] theorem putDev_sync (s : State) (v : Dev) : (putDev s v).sync = s.sync := rfl
@[simp] theorem putDev_sched (s : State) (v : Dev) : (putDev s v).sched = s.sched := rfl
@[simp] theorem putDev_units (s : State) (v : Dev) : (putDev s v).units = s.units := rfl
@[simp] theorem putDev_memErr (s : State) (v : Dev) : (putDev s v).memErr = s.memErr := rfl
@[simp] theorem putDev_lft (s : State) (v : Dev) : (putDev s v).lft = s.lft := rfl
@[simp] theorem putDev_log (s : State) (v : Dev) : (putDev s v).log = s.log := rfl
@[simp] theorem putDev_settings (s : State) (v : Dev) : (putDev s v).settings = s.settings := rfl
@[simp] theorem putDev_time (s : State) (v : Dev) : (putDev s v).time = s.time := rfl
@[simp] theorem putDev_ao (s : State) (v : Dev) : (putDev s v).ao = s.ao := rfl
@[simp] theorem putDev_free (s : State) (v : Dev) : (putDev s v).free = s.free := rfl
@[simp] theorem putDev_bankReply (s : State) (v : Dev) : (putDev s v).bankReply = s.bankReply := rfl
@[simp] theorem putDev_trace (s : State) (v : Dev) : (putDev s v).trace = s.trace := rfl
@[simp] theorem putDev_place (s : State) (v : Dev) : (putDev s v).place = s.place := rfl
@[simp] theorem putDev_ports (s : State) (v : Dev) : (putDev s v).ports = s.ports := rfl
@[simp] theorem putDev_retr (s : State) (v : Dev) : (putDev s v).retr = s.retr := rfl
@[simp] theorem putDev_upd (s : State) (v : Dev) : (putDev s v).upd = s.upd := rfl
@[simp] theorem putDev_trails (s : State) (v : Dev) : (putDev s v).trails = s.trails := rfl
@[simp] theorem putDev_masks (s : State) (v : Dev) : (putDev s v).masks = s.masks := rfl
@[simp] theorem putDev_plans (s : State) (v : Dev) : (putDev s v).plans = s.plans := rfl
@[simp] theorem putDev_trailSlots (s : State) (v : Dev) : (putDev s v).trailSlots = s.trailSlots := rfl
@[simp] theorem putDev_power (s : State) (v : Dev) : (putDev s v).power = s.power := rfl
@[simp] theorem putDev_dev (s : State) (v : Dev) : (putDev s v).dev = v := rfl
@[simp] theorem putDev_panel (s : State) (v : Dev) : (putDev s v).panel = s.panel := rfl
@[simp] theorem putDev_dap (s : State) (v : Dev) : (putDev s v).dap = s.dap := rfl
@[simp] theorem putDev_fw (s : State) (v : Dev) : (putDev s v).fw = s.fw := rfl

/-! ### setCtr -/

@[simp] theorem setCtr_pending (s : State) (i j v : Nat) : (setCtr s i j v).pending = s.pending := rfl
@[simp] theorem setCtr_mem (s : State) (i j v : Nat) : (setCtr s i j v).mem = s.mem := rfl
@[simp] theorem setCtr_tiles (s : State) (i j v : Nat) : (setCtr s i j v).tiles = s.tiles := rfl
@[simp] theorem setCtr_parts (s : State) (i j v : Nat) : (setCtr s i j v).parts = s.parts := rfl
@[simp] theorem setCtr_sync (s : State) (i j v : Nat) : (setCtr s i j v).sync = s.sync := rfl
@[simp] theorem setCtr_sched (s : State) (i j v : Nat) : (setCtr s i j v).sched = s.sched := rfl
@[simp] theorem setCtr_units (s : State) (i j v : Nat) : (setCtr s i j v).units = s.units := rfl
@[simp] theorem setCtr_memErr (s : State) (i j v : Nat) : (setCtr s i j v).memErr = s.memErr := rfl
@[simp] theorem setCtr_lft (s : State) (i j v : Nat) : (setCtr s i j v).lft = s.lft := rfl
@[simp] theorem setCtr_log (s : State) (i j v : Nat) : (setCtr s i j v).log = s.log := rfl
@[simp] theorem setCtr_settings (s : State) (i j v : Nat) : (setCtr s i j v).settings = s.settings := rfl
@[simp] theorem setCtr_time (s : State) (i j v : Nat) : (setCtr s i j v).time = s.time := rfl
@[simp] theorem setCtr_ao (s : State) (i j v : Nat) : (setCtr s i j v).ao = s.ao := rfl
@[simp] theorem setCtr_free (s : State) (i j v : Nat) : (setCtr s i j v).free = s.free := rfl
@[simp] theorem setCtr_bankReply (s : State) (i j v : Nat) : (setCtr s i j v).bankReply = s.bankReply := rfl
@[simp] theorem setCtr_trace (s : State) (i j v : Nat) : (setCtr s i j v).trace = s.trace := rfl
@[simp] theorem setCtr_place (s : State) (i j v : Nat) : (setCtr s i j v).place = s.place := rfl
@[simp] theorem setCtr_ports (s : State) (i j v : Nat) : (setCtr s i j v).ports = s.ports := rfl
@[simp] theorem setCtr_retr (s : State) (i j v : Nat) : (setCtr s i j v).retr = s.retr := rfl
@[simp] theorem setCtr_upd (s : State) (i j v : Nat) : (setCtr s i j v).upd = s.upd := rfl
@[simp] theorem setCtr_trails (s : State) (i j v : Nat) : (setCtr s i j v).trails = s.trails := rfl
@[simp] theorem setCtr_masks (s : State) (i j v : Nat) : (setCtr s i j v).masks = s.masks := rfl
@[simp] theorem setCtr_plans (s : State) (i j v : Nat) : (setCtr s i j v).plans = s.plans := rfl
@[simp] theorem setCtr_trailSlots (s : State) (i j v : Nat) : (setCtr s i j v).trailSlots = s.trailSlots := rfl
@[simp] theorem setCtr_power (s : State) (i j v : Nat) : (setCtr s i j v).power = s.power := rfl
@[simp] theorem setCtr_dev (s : State) (i j v : Nat) : (setCtr s i j v).dev = s.dev := rfl
@[simp] theorem setCtr_panel (s : State) (i j v : Nat) : (setCtr s i j v).panel = s.panel := rfl
@[simp] theorem setCtr_dap (s : State) (i j v : Nat) : (setCtr s i j v).dap = s.dap := rfl
@[simp] theorem setCtr_fw (s : State) (i j v : Nat) : (setCtr s i j v).fw = s.fw := rfl

/-! ### addCtr -/

@[simp] theorem addCtr_pending (s : State) (i j v : Nat) : (addCtr s i j v).pending = s.pending := rfl
@[simp] theorem addCtr_mem (s : State) (i j v : Nat) : (addCtr s i j v).mem = s.mem := rfl
@[simp] theorem addCtr_tiles (s : State) (i j v : Nat) : (addCtr s i j v).tiles = s.tiles := rfl
@[simp] theorem addCtr_parts (s : State) (i j v : Nat) : (addCtr s i j v).parts = s.parts := rfl
@[simp] theorem addCtr_sync (s : State) (i j v : Nat) : (addCtr s i j v).sync = s.sync := rfl
@[simp] theorem addCtr_sched (s : State) (i j v : Nat) : (addCtr s i j v).sched = s.sched := rfl
@[simp] theorem addCtr_units (s : State) (i j v : Nat) : (addCtr s i j v).units = s.units := rfl
@[simp] theorem addCtr_memErr (s : State) (i j v : Nat) : (addCtr s i j v).memErr = s.memErr := rfl
@[simp] theorem addCtr_lft (s : State) (i j v : Nat) : (addCtr s i j v).lft = s.lft := rfl
@[simp] theorem addCtr_log (s : State) (i j v : Nat) : (addCtr s i j v).log = s.log := rfl
@[simp] theorem addCtr_settings (s : State) (i j v : Nat) : (addCtr s i j v).settings = s.settings := rfl
@[simp] theorem addCtr_time (s : State) (i j v : Nat) : (addCtr s i j v).time = s.time := rfl
@[simp] theorem addCtr_ao (s : State) (i j v : Nat) : (addCtr s i j v).ao = s.ao := rfl
@[simp] theorem addCtr_free (s : State) (i j v : Nat) : (addCtr s i j v).free = s.free := rfl
@[simp] theorem addCtr_bankReply (s : State) (i j v : Nat) : (addCtr s i j v).bankReply = s.bankReply := rfl
@[simp] theorem addCtr_trace (s : State) (i j v : Nat) : (addCtr s i j v).trace = s.trace := rfl
@[simp] theorem addCtr_place (s : State) (i j v : Nat) : (addCtr s i j v).place = s.place := rfl
@[simp] theorem addCtr_ports (s : State) (i j v : Nat) : (addCtr s i j v).ports = s.ports := rfl
@[simp] theorem addCtr_retr (s : State) (i j v : Nat) : (addCtr s i j v).retr = s.retr := rfl
@[simp] theorem addCtr_upd (s : State) (i j v : Nat) : (addCtr s i j v).upd = s.upd := rfl
@[simp] theorem addCtr_trails (s : State) (i j v : Nat) : (addCtr s i j v).trails = s.trails := rfl
@[simp] theorem addCtr_masks (s : State) (i j v : Nat) : (addCtr s i j v).masks = s.masks := rfl
@[simp] theorem addCtr_plans (s : State) (i j v : Nat) : (addCtr s i j v).plans = s.plans := rfl
@[simp] theorem addCtr_trailSlots (s : State) (i j v : Nat) : (addCtr s i j v).trailSlots = s.trailSlots := rfl
@[simp] theorem addCtr_power (s : State) (i j v : Nat) : (addCtr s i j v).power = s.power := rfl
@[simp] theorem addCtr_dev (s : State) (i j v : Nat) : (addCtr s i j v).dev = s.dev := rfl
@[simp] theorem addCtr_panel (s : State) (i j v : Nat) : (addCtr s i j v).panel = s.panel := rfl
@[simp] theorem addCtr_dap (s : State) (i j v : Nat) : (addCtr s i j v).dap = s.dap := rfl
@[simp] theorem addCtr_fw (s : State) (i j v : Nat) : (addCtr s i j v).fw = s.fw := rfl

/-! ### clearCtrs -/

@[simp] theorem clearCtrs_pending (s : State) (i : Nat) : (clearCtrs s i).pending = s.pending := rfl
@[simp] theorem clearCtrs_mem (s : State) (i : Nat) : (clearCtrs s i).mem = s.mem := rfl
@[simp] theorem clearCtrs_tiles (s : State) (i : Nat) : (clearCtrs s i).tiles = s.tiles := rfl
@[simp] theorem clearCtrs_parts (s : State) (i : Nat) : (clearCtrs s i).parts = s.parts := rfl
@[simp] theorem clearCtrs_sync (s : State) (i : Nat) : (clearCtrs s i).sync = s.sync := rfl
@[simp] theorem clearCtrs_sched (s : State) (i : Nat) : (clearCtrs s i).sched = s.sched := rfl
@[simp] theorem clearCtrs_units (s : State) (i : Nat) : (clearCtrs s i).units = s.units := rfl
@[simp] theorem clearCtrs_memErr (s : State) (i : Nat) : (clearCtrs s i).memErr = s.memErr := rfl
@[simp] theorem clearCtrs_lft (s : State) (i : Nat) : (clearCtrs s i).lft = s.lft := rfl
@[simp] theorem clearCtrs_log (s : State) (i : Nat) : (clearCtrs s i).log = s.log := rfl
@[simp] theorem clearCtrs_settings (s : State) (i : Nat) : (clearCtrs s i).settings = s.settings := rfl
@[simp] theorem clearCtrs_time (s : State) (i : Nat) : (clearCtrs s i).time = s.time := rfl
@[simp] theorem clearCtrs_ao (s : State) (i : Nat) : (clearCtrs s i).ao = s.ao := rfl
@[simp] theorem clearCtrs_free (s : State) (i : Nat) : (clearCtrs s i).free = s.free := rfl
@[simp] theorem clearCtrs_bankReply (s : State) (i : Nat) : (clearCtrs s i).bankReply = s.bankReply := rfl
@[simp] theorem clearCtrs_trace (s : State) (i : Nat) : (clearCtrs s i).trace = s.trace := rfl
@[simp] theorem clearCtrs_place (s : State) (i : Nat) : (clearCtrs s i).place = s.place := rfl
@[simp] theorem clearCtrs_ports (s : State) (i : Nat) : (clearCtrs s i).ports = s.ports := rfl
@[simp] theorem clearCtrs_retr (s : State) (i : Nat) : (clearCtrs s i).retr = s.retr := rfl
@[simp] theorem clearCtrs_upd (s : State) (i : Nat) : (clearCtrs s i).upd = s.upd := rfl
@[simp] theorem clearCtrs_trails (s : State) (i : Nat) : (clearCtrs s i).trails = s.trails := rfl
@[simp] theorem clearCtrs_masks (s : State) (i : Nat) : (clearCtrs s i).masks = s.masks := rfl
@[simp] theorem clearCtrs_plans (s : State) (i : Nat) : (clearCtrs s i).plans = s.plans := rfl
@[simp] theorem clearCtrs_trailSlots (s : State) (i : Nat) : (clearCtrs s i).trailSlots = s.trailSlots := rfl
@[simp] theorem clearCtrs_power (s : State) (i : Nat) : (clearCtrs s i).power = s.power := rfl
@[simp] theorem clearCtrs_dev (s : State) (i : Nat) : (clearCtrs s i).dev = s.dev := rfl
@[simp] theorem clearCtrs_panel (s : State) (i : Nat) : (clearCtrs s i).panel = s.panel := rfl
@[simp] theorem clearCtrs_dap (s : State) (i : Nat) : (clearCtrs s i).dap = s.dap := rfl
@[simp] theorem clearCtrs_fw (s : State) (i : Nat) : (clearCtrs s i).fw = s.fw := rfl

/-! ### raise -/

@[simp] theorem raise_pending (s : State) (c p u : Nat) (l : List Nat) : (raise s c p u l).pending = s.pending := rfl
@[simp] theorem raise_mem (s : State) (c p u : Nat) (l : List Nat) : (raise s c p u l).mem = s.mem := rfl
@[simp] theorem raise_tiles (s : State) (c p u : Nat) (l : List Nat) : (raise s c p u l).tiles = s.tiles := rfl
@[simp] theorem raise_parts (s : State) (c p u : Nat) (l : List Nat) : (raise s c p u l).parts = s.parts := rfl
@[simp] theorem raise_sync (s : State) (c p u : Nat) (l : List Nat) : (raise s c p u l).sync = s.sync := rfl
@[simp] theorem raise_sched (s : State) (c p u : Nat) (l : List Nat) : (raise s c p u l).sched = s.sched := rfl
@[simp] theorem raise_units (s : State) (c p u : Nat) (l : List Nat) : (raise s c p u l).units = s.units := rfl
@[simp] theorem raise_memErr (s : State) (c p u : Nat) (l : List Nat) : (raise s c p u l).memErr = s.memErr := rfl
@[simp] theorem raise_lft (s : State) (c p u : Nat) (l : List Nat) : (raise s c p u l).lft = s.lft := rfl
@[simp] theorem raise_settings (s : State) (c p u : Nat) (l : List Nat) : (raise s c p u l).settings = s.settings := rfl
@[simp] theorem raise_time (s : State) (c p u : Nat) (l : List Nat) : (raise s c p u l).time = s.time := rfl
@[simp] theorem raise_ao (s : State) (c p u : Nat) (l : List Nat) : (raise s c p u l).ao = s.ao := rfl
@[simp] theorem raise_free (s : State) (c p u : Nat) (l : List Nat) : (raise s c p u l).free = s.free := rfl
@[simp] theorem raise_bankReply (s : State) (c p u : Nat) (l : List Nat) : (raise s c p u l).bankReply = s.bankReply := rfl
@[simp] theorem raise_trace (s : State) (c p u : Nat) (l : List Nat) : (raise s c p u l).trace = s.trace := rfl
@[simp] theorem raise_place (s : State) (c p u : Nat) (l : List Nat) : (raise s c p u l).place = s.place := rfl
@[simp] theorem raise_ports (s : State) (c p u : Nat) (l : List Nat) : (raise s c p u l).ports = s.ports := rfl
@[simp] theorem raise_retr (s : State) (c p u : Nat) (l : List Nat) : (raise s c p u l).retr = s.retr := rfl
@[simp] theorem raise_upd (s : State) (c p u : Nat) (l : List Nat) : (raise s c p u l).upd = s.upd := rfl
@[simp] theorem raise_trails (s : State) (c p u : Nat) (l : List Nat) : (raise s c p u l).trails = s.trails := rfl
@[simp] theorem raise_masks (s : State) (c p u : Nat) (l : List Nat) : (raise s c p u l).masks = s.masks := rfl
@[simp] theorem raise_plans (s : State) (c p u : Nat) (l : List Nat) : (raise s c p u l).plans = s.plans := rfl
@[simp] theorem raise_trailSlots (s : State) (c p u : Nat) (l : List Nat) : (raise s c p u l).trailSlots = s.trailSlots := rfl
@[simp] theorem raise_power (s : State) (c p u : Nat) (l : List Nat) : (raise s c p u l).power = s.power := rfl
@[simp] theorem raise_dev (s : State) (c p u : Nat) (l : List Nat) : (raise s c p u l).dev = s.dev := rfl
@[simp] theorem raise_panel (s : State) (c p u : Nat) (l : List Nat) : (raise s c p u l).panel = s.panel := rfl
@[simp] theorem raise_dap (s : State) (c p u : Nat) (l : List Nat) : (raise s c p u l).dap = s.dap := rfl
@[simp] theorem raise_fw (s : State) (c p u : Nat) (l : List Nat) : (raise s c p u l).fw = s.fw := rfl

/-! ### writeBytes -/

/-- A wake changes only the counters and the power record, no domain's state and no committed entry (R420, R421). -/
theorem wakeDomain_eq (s : State) (i : Nat) :
    ∃ c w, wakeDomain s i = putPower (putCtrs s c) w ∧ w.dom = s.power.dom ∧ w.entering = s.power.entering := by
  have spell : ∀ s : State, ∃ w, endSpell s i = putPower s w ∧ w.dom = s.power.dom ∧ w.entering = s.power.entering := by
    intro s
    unfold endSpell
    split
    · exact ⟨_, rfl, rfl, rfl⟩
    · exact ⟨s.power, rfl, rfl, rfl⟩
  obtain ⟨w, h, hd, he⟩ := spell s
  unfold wakeDomain
  split
  · exact ⟨_, _, rfl, rfl, rfl⟩
  · split
    · exact ⟨s.ctr, s.power, rfl, rfl, rfl⟩
    · split
      · exact ⟨s.ctr, w, h, hd, he⟩
      · rw [h]; exact ⟨_, _, rfl, hd, he⟩

/-- A fold of wakes changes what one changes. -/
theorem foldl_wake_eq (l : List Nat) (s : State) :
    ∃ c w, l.foldl wakeDomain s = putPower (putCtrs s c) w ∧ w.dom = s.power.dom ∧ w.entering = s.power.entering := by
  induction l generalizing s with
  | nil => exact ⟨s.ctr, s.power, rfl, rfl, rfl⟩
  | cons i l ih =>
    obtain ⟨c, w, h, hd, he⟩ := wakeDomain_eq s i
    obtain ⟨c', w', h', hd', he'⟩ := ih (wakeDomain s i)
    rw [List.foldl_cons, h', h]
    exact ⟨c', w', rfl, by rw [hd', h]; exact hd, by rw [he', h]; exact he⟩

/-- The wakes of a run of bytes. -/
theorem wakeRun_eq (s : State) (a n : Nat) :
    ∃ c w, wakeRun s a n = putPower (putCtrs s c) w ∧ w.dom = s.power.dom ∧ w.entering = s.power.entering := by
  unfold wakeRun
  split
  · exact ⟨s.ctr, s.power, rfl, rfl, rfl⟩
  · exact foldl_wake_eq _ _

/-- The wakes of runs of bytes. -/
theorem wakeRuns_eq (s : State) (l : List (Nat × Nat)) :
    ∃ c w, wakeRuns s l = putPower (putCtrs s c) w ∧ w.dom = s.power.dom ∧ w.entering = s.power.entering := by
  unfold wakeRuns
  split
  · exact ⟨s.ctr, s.power, rfl, rfl, rfl⟩
  · rename_i hu; clear hu
    induction l generalizing s with
    | nil => exact ⟨s.ctr, s.power, rfl, rfl, rfl⟩
    | cons r l ih =>
      obtain ⟨c, w, h, hd, he⟩ := wakeRun_eq s r.1 r.2
      obtain ⟨c', w', h', hd', he'⟩ := ih (wakeRun s r.1 r.2)
      rw [List.foldl_cons, h', h]
      exact ⟨c', w', rfl, by rw [hd', h]; exact hd, by rw [he', h]; exact he⟩

/-- The wakes that the start of an instruction makes (R417). -/
theorem wakeStart_eq (s : State) (p t : Nat) (q : QInstr) :
    ∃ c w, wakeStart s p t q = putPower (putCtrs s c) w ∧ w.dom = s.power.dom ∧ w.entering = s.power.entering := by
  unfold wakeStart
  split
  · exact ⟨s.ctr, s.power, rfl, rfl, rfl⟩
  · exact wakeRuns_eq _ _

/-- The parts of a write change only memory and the record of memory errors (R249, R251, R253, R254). -/
theorem foldl_writePiece_eq (bs : List Byte) (a : Nat) (ls : List Nat) (s : State) :
    ∃ m e, ls.foldl (writePiece bs a) s = putMemErr (putMem s m) e := by
  induction ls generalizing s with
  | nil => exact ⟨s.mem, s.memErr, rfl⟩
  | cons x r ih =>
    obtain ⟨m, e, h⟩ := ih (writePiece bs a s x)
    rw [List.foldl_cons, h, writePiece]
    split <;> exact ⟨m, e, rfl⟩

/-- A write changes only memory, the record of memory errors, and what a wake of the domains of its lines changes. -/
theorem writeBytes_eq (s : State) (a : Nat) (l : List Byte) :
    ∃ m e c w, writeBytes s a l = putMemErr (putMem (putPower (putCtrs s c) w) m) e ∧
      w.dom = s.power.dom ∧ w.entering = s.power.entering := by
  obtain ⟨c, w, h, hd, he⟩ := wakeRun_eq s a l.length
  unfold writeBytes
  rw [h]
  dsimp only
  split
  · exact ⟨_, _, c, w, rfl, hd, he⟩
  · obtain ⟨m, e, hf⟩ := foldl_writePiece_eq l a (linesOf a l.length) (putPower (putCtrs s c) w)
    exact ⟨m, e, c, w, hf, hd, he⟩

/-- While every domain is up, a write changes only memory and the record of memory errors. -/
theorem writeBytes_up {s : State} (hu : domsUp s = true) (a : Nat) (l : List Byte) :
    ∃ m e, writeBytes s a l = putMemErr (putMem s m) e := by
  unfold writeBytes wakeRun
  rw [if_pos hu]
  dsimp only
  split
  · exact ⟨_, _, rfl⟩
  · exact foldl_writePiece_eq _ _ _ _

@[simp] theorem writeBytes_pending (s : State) (a : Nat) (l : List Byte) : (writeBytes s a l).pending = s.pending := by
  obtain ⟨m, e, c, w, h, -⟩ := writeBytes_eq s a l; rw [h]; rfl
@[simp] theorem writeBytes_tiles (s : State) (a : Nat) (l : List Byte) : (writeBytes s a l).tiles = s.tiles := by
  obtain ⟨m, e, c, w, h, -⟩ := writeBytes_eq s a l; rw [h]; rfl
@[simp] theorem writeBytes_parts (s : State) (a : Nat) (l : List Byte) : (writeBytes s a l).parts = s.parts := by
  obtain ⟨m, e, c, w, h, -⟩ := writeBytes_eq s a l; rw [h]; rfl
@[simp] theorem writeBytes_sync (s : State) (a : Nat) (l : List Byte) : (writeBytes s a l).sync = s.sync := by
  obtain ⟨m, e, c, w, h, -⟩ := writeBytes_eq s a l; rw [h]; rfl
@[simp] theorem writeBytes_sched (s : State) (a : Nat) (l : List Byte) : (writeBytes s a l).sched = s.sched := by
  obtain ⟨m, e, c, w, h, -⟩ := writeBytes_eq s a l; rw [h]; rfl
@[simp] theorem writeBytes_units (s : State) (a : Nat) (l : List Byte) : (writeBytes s a l).units = s.units := by
  obtain ⟨m, e, c, w, h, -⟩ := writeBytes_eq s a l; rw [h]; rfl
@[simp] theorem writeBytes_lft (s : State) (a : Nat) (l : List Byte) : (writeBytes s a l).lft = s.lft := by
  obtain ⟨m, e, c, w, h, -⟩ := writeBytes_eq s a l; rw [h]; rfl
@[simp] theorem writeBytes_log (s : State) (a : Nat) (l : List Byte) : (writeBytes s a l).log = s.log := by
  obtain ⟨m, e, c, w, h, -⟩ := writeBytes_eq s a l; rw [h]; rfl
@[simp] theorem writeBytes_settings (s : State) (a : Nat) (l : List Byte) : (writeBytes s a l).settings = s.settings := by
  obtain ⟨m, e, c, w, h, -⟩ := writeBytes_eq s a l; rw [h]; rfl
@[simp] theorem writeBytes_time (s : State) (a : Nat) (l : List Byte) : (writeBytes s a l).time = s.time := by
  obtain ⟨m, e, c, w, h, -⟩ := writeBytes_eq s a l; rw [h]; rfl
@[simp] theorem writeBytes_ao (s : State) (a : Nat) (l : List Byte) : (writeBytes s a l).ao = s.ao := by
  obtain ⟨m, e, c, w, h, -⟩ := writeBytes_eq s a l; rw [h]; rfl
@[simp] theorem writeBytes_free (s : State) (a : Nat) (l : List Byte) : (writeBytes s a l).free = s.free := by
  obtain ⟨m, e, c, w, h, -⟩ := writeBytes_eq s a l; rw [h]; rfl
@[simp] theorem writeBytes_bankReply (s : State) (a : Nat) (l : List Byte) : (writeBytes s a l).bankReply = s.bankReply := by
  obtain ⟨m, e, c, w, h, -⟩ := writeBytes_eq s a l; rw [h]; rfl
@[simp] theorem writeBytes_trace (s : State) (a : Nat) (l : List Byte) : (writeBytes s a l).trace = s.trace := by
  obtain ⟨m, e, c, w, h, -⟩ := writeBytes_eq s a l; rw [h]; rfl
@[simp] theorem writeBytes_place (s : State) (a : Nat) (l : List Byte) : (writeBytes s a l).place = s.place := by
  obtain ⟨m, e, c, w, h, -⟩ := writeBytes_eq s a l; rw [h]; rfl
@[simp] theorem writeBytes_ports (s : State) (a : Nat) (l : List Byte) : (writeBytes s a l).ports = s.ports := by
  obtain ⟨m, e, c, w, h, -⟩ := writeBytes_eq s a l; rw [h]; rfl
@[simp] theorem writeBytes_retr (s : State) (a : Nat) (l : List Byte) : (writeBytes s a l).retr = s.retr := by
  obtain ⟨m, e, c, w, h, -⟩ := writeBytes_eq s a l; rw [h]; rfl
@[simp] theorem writeBytes_upd (s : State) (a : Nat) (l : List Byte) : (writeBytes s a l).upd = s.upd := by
  obtain ⟨m, e, c, w, h, -⟩ := writeBytes_eq s a l; rw [h]; rfl
@[simp] theorem writeBytes_trails (s : State) (a : Nat) (l : List Byte) : (writeBytes s a l).trails = s.trails := by
  obtain ⟨m, e, c, w, h, -⟩ := writeBytes_eq s a l; rw [h]; rfl
@[simp] theorem writeBytes_masks (s : State) (a : Nat) (l : List Byte) : (writeBytes s a l).masks = s.masks := by
  obtain ⟨m, e, c, w, h, -⟩ := writeBytes_eq s a l; rw [h]; rfl
@[simp] theorem writeBytes_plans (s : State) (a : Nat) (l : List Byte) : (writeBytes s a l).plans = s.plans := by
  obtain ⟨m, e, c, w, h, -⟩ := writeBytes_eq s a l; rw [h]; rfl
@[simp] theorem writeBytes_trailSlots (s : State) (a : Nat) (l : List Byte) : (writeBytes s a l).trailSlots = s.trailSlots := by
  obtain ⟨m, e, c, w, h, -⟩ := writeBytes_eq s a l; rw [h]; rfl
@[simp] theorem writeBytes_dom (s : State) (a : Nat) (l : List Byte) : (writeBytes s a l).power.dom = s.power.dom := by
  obtain ⟨m, e, c, w, h, hd, -⟩ := writeBytes_eq s a l; rw [h]; exact hd
@[simp] theorem writeBytes_entering (s : State) (a : Nat) (l : List Byte) :
    (writeBytes s a l).power.entering = s.power.entering := by
  obtain ⟨m, e, c, w, h, -, he⟩ := writeBytes_eq s a l; rw [h]; exact he
@[simp] theorem writeBytes_dev (s : State) (a : Nat) (l : List Byte) : (writeBytes s a l).dev = s.dev := by
  obtain ⟨m, e, c, w, h, -⟩ := writeBytes_eq s a l; rw [h]; rfl
@[simp] theorem writeBytes_panel (s : State) (a : Nat) (l : List Byte) : (writeBytes s a l).panel = s.panel := by
  obtain ⟨m, e, c, w, h, -⟩ := writeBytes_eq s a l; rw [h]; rfl
@[simp] theorem writeBytes_dap (s : State) (a : Nat) (l : List Byte) : (writeBytes s a l).dap = s.dap := by
  obtain ⟨m, e, c, w, h, -⟩ := writeBytes_eq s a l; rw [h]; rfl
@[simp] theorem writeBytes_fw (s : State) (a : Nat) (l : List Byte) : (writeBytes s a l).fw = s.fw := by
  obtain ⟨m, e, c, w, h, -⟩ := writeBytes_eq s a l; rw [h]; rfl

/-! ### writeNat -/

@[simp] theorem writeNat_pending (s : State) (a n v : Nat) : (writeNat s a n v).pending = s.pending :=
  writeBytes_pending ..
@[simp] theorem writeNat_tiles (s : State) (a n v : Nat) : (writeNat s a n v).tiles = s.tiles :=
  writeBytes_tiles ..
@[simp] theorem writeNat_parts (s : State) (a n v : Nat) : (writeNat s a n v).parts = s.parts :=
  writeBytes_parts ..
@[simp] theorem writeNat_sync (s : State) (a n v : Nat) : (writeNat s a n v).sync = s.sync :=
  writeBytes_sync ..
@[simp] theorem writeNat_sched (s : State) (a n v : Nat) : (writeNat s a n v).sched = s.sched :=
  writeBytes_sched ..
@[simp] theorem writeNat_units (s : State) (a n v : Nat) : (writeNat s a n v).units = s.units :=
  writeBytes_units ..
@[simp] theorem writeNat_lft (s : State) (a n v : Nat) : (writeNat s a n v).lft = s.lft :=
  writeBytes_lft ..
@[simp] theorem writeNat_log (s : State) (a n v : Nat) : (writeNat s a n v).log = s.log :=
  writeBytes_log ..
@[simp] theorem writeNat_settings (s : State) (a n v : Nat) : (writeNat s a n v).settings = s.settings :=
  writeBytes_settings ..
@[simp] theorem writeNat_time (s : State) (a n v : Nat) : (writeNat s a n v).time = s.time :=
  writeBytes_time ..
@[simp] theorem writeNat_ao (s : State) (a n v : Nat) : (writeNat s a n v).ao = s.ao :=
  writeBytes_ao ..
@[simp] theorem writeNat_free (s : State) (a n v : Nat) : (writeNat s a n v).free = s.free :=
  writeBytes_free ..
@[simp] theorem writeNat_bankReply (s : State) (a n v : Nat) : (writeNat s a n v).bankReply = s.bankReply :=
  writeBytes_bankReply ..
@[simp] theorem writeNat_trace (s : State) (a n v : Nat) : (writeNat s a n v).trace = s.trace :=
  writeBytes_trace ..
@[simp] theorem writeNat_place (s : State) (a n v : Nat) : (writeNat s a n v).place = s.place :=
  writeBytes_place ..
@[simp] theorem writeNat_ports (s : State) (a n v : Nat) : (writeNat s a n v).ports = s.ports :=
  writeBytes_ports ..
@[simp] theorem writeNat_retr (s : State) (a n v : Nat) : (writeNat s a n v).retr = s.retr :=
  writeBytes_retr ..
@[simp] theorem writeNat_upd (s : State) (a n v : Nat) : (writeNat s a n v).upd = s.upd :=
  writeBytes_upd ..
@[simp] theorem writeNat_trails (s : State) (a n v : Nat) : (writeNat s a n v).trails = s.trails :=
  writeBytes_trails ..
@[simp] theorem writeNat_masks (s : State) (a n v : Nat) : (writeNat s a n v).masks = s.masks :=
  writeBytes_masks ..
@[simp] theorem writeNat_plans (s : State) (a n v : Nat) : (writeNat s a n v).plans = s.plans :=
  writeBytes_plans ..
@[simp] theorem writeNat_trailSlots (s : State) (a n v : Nat) : (writeNat s a n v).trailSlots = s.trailSlots :=
  writeBytes_trailSlots ..
@[simp] theorem writeNat_dom (s : State) (a n v : Nat) : (writeNat s a n v).power.dom = s.power.dom := writeBytes_dom ..
@[simp] theorem writeNat_entering (s : State) (a n v : Nat) : (writeNat s a n v).power.entering = s.power.entering :=
  writeBytes_entering ..
@[simp] theorem writeNat_dev (s : State) (a n v : Nat) : (writeNat s a n v).dev = s.dev :=
  writeBytes_dev ..
@[simp] theorem writeNat_panel (s : State) (a n v : Nat) : (writeNat s a n v).panel = s.panel :=
  writeBytes_panel ..
@[simp] theorem writeNat_dap (s : State) (a n v : Nat) : (writeNat s a n v).dap = s.dap :=
  writeBytes_dap ..
@[simp] theorem writeNat_fw (s : State) (a n v : Nat) : (writeNat s a n v).fw = s.fw :=
  writeBytes_fw ..

/-! ### zeroRange -/

@[simp] theorem zeroRange_pending (s : State) (a b : Nat) : (zeroRange s a b).pending = s.pending := rfl
@[simp] theorem zeroRange_ctr (s : State) (a b : Nat) : (zeroRange s a b).ctr = s.ctr := rfl
@[simp] theorem zeroRange_tiles (s : State) (a b : Nat) : (zeroRange s a b).tiles = s.tiles := rfl
@[simp] theorem zeroRange_parts (s : State) (a b : Nat) : (zeroRange s a b).parts = s.parts := rfl
@[simp] theorem zeroRange_sync (s : State) (a b : Nat) : (zeroRange s a b).sync = s.sync := rfl
@[simp] theorem zeroRange_sched (s : State) (a b : Nat) : (zeroRange s a b).sched = s.sched := rfl
@[simp] theorem zeroRange_units (s : State) (a b : Nat) : (zeroRange s a b).units = s.units := rfl
@[simp] theorem zeroRange_lft (s : State) (a b : Nat) : (zeroRange s a b).lft = s.lft := rfl
@[simp] theorem zeroRange_log (s : State) (a b : Nat) : (zeroRange s a b).log = s.log := rfl
@[simp] theorem zeroRange_settings (s : State) (a b : Nat) : (zeroRange s a b).settings = s.settings := rfl
@[simp] theorem zeroRange_time (s : State) (a b : Nat) : (zeroRange s a b).time = s.time := rfl
@[simp] theorem zeroRange_ao (s : State) (a b : Nat) : (zeroRange s a b).ao = s.ao := rfl
@[simp] theorem zeroRange_free (s : State) (a b : Nat) : (zeroRange s a b).free = s.free := rfl
@[simp] theorem zeroRange_bankReply (s : State) (a b : Nat) : (zeroRange s a b).bankReply = s.bankReply := rfl
@[simp] theorem zeroRange_trace (s : State) (a b : Nat) : (zeroRange s a b).trace = s.trace := rfl
@[simp] theorem zeroRange_place (s : State) (a b : Nat) : (zeroRange s a b).place = s.place := rfl
@[simp] theorem zeroRange_ports (s : State) (a b : Nat) : (zeroRange s a b).ports = s.ports := rfl
@[simp] theorem zeroRange_retr (s : State) (a b : Nat) : (zeroRange s a b).retr = s.retr := rfl
@[simp] theorem zeroRange_upd (s : State) (a b : Nat) : (zeroRange s a b).upd = s.upd := rfl
@[simp] theorem zeroRange_trails (s : State) (a b : Nat) : (zeroRange s a b).trails = s.trails := rfl
@[simp] theorem zeroRange_masks (s : State) (a b : Nat) : (zeroRange s a b).masks = s.masks := rfl
@[simp] theorem zeroRange_plans (s : State) (a b : Nat) : (zeroRange s a b).plans = s.plans := rfl
@[simp] theorem zeroRange_trailSlots (s : State) (a b : Nat) : (zeroRange s a b).trailSlots = s.trailSlots := rfl
@[simp] theorem zeroRange_power (s : State) (a b : Nat) : (zeroRange s a b).power = s.power := rfl
@[simp] theorem zeroRange_dev (s : State) (a b : Nat) : (zeroRange s a b).dev = s.dev := rfl
@[simp] theorem zeroRange_panel (s : State) (a b : Nat) : (zeroRange s a b).panel = s.panel := rfl
@[simp] theorem zeroRange_dap (s : State) (a b : Nat) : (zeroRange s a b).dap = s.dap := rfl
@[simp] theorem zeroRange_fw (s : State) (a b : Nat) : (zeroRange s a b).fw = s.fw := rfl

/-! ### State.withPending -/

@[simp] theorem State.withPending_pending (s : State) (l : List Instr) : (s.withPending l).pending = l := rfl
@[simp] theorem State.withPending_mem (s : State) (l : List Instr) : (s.withPending l).mem = s.mem := rfl
@[simp] theorem State.withPending_ctr (s : State) (l : List Instr) : (s.withPending l).ctr = s.ctr := rfl
@[simp] theorem State.withPending_tiles (s : State) (l : List Instr) : (s.withPending l).tiles = s.tiles := rfl
@[simp] theorem State.withPending_parts (s : State) (l : List Instr) : (s.withPending l).parts = s.parts := rfl
@[simp] theorem State.withPending_sync (s : State) (l : List Instr) : (s.withPending l).sync = s.sync := rfl
@[simp] theorem State.withPending_sched (s : State) (l : List Instr) : (s.withPending l).sched = s.sched := rfl
@[simp] theorem State.withPending_units (s : State) (l : List Instr) : (s.withPending l).units = s.units := rfl
@[simp] theorem State.withPending_memErr (s : State) (l : List Instr) : (s.withPending l).memErr = s.memErr := rfl
@[simp] theorem State.withPending_lft (s : State) (l : List Instr) : (s.withPending l).lft = s.lft := rfl
@[simp] theorem State.withPending_log (s : State) (l : List Instr) : (s.withPending l).log = s.log := rfl
@[simp] theorem State.withPending_settings (s : State) (l : List Instr) : (s.withPending l).settings = s.settings := rfl
@[simp] theorem State.withPending_time (s : State) (l : List Instr) : (s.withPending l).time = s.time := rfl
@[simp] theorem State.withPending_ao (s : State) (l : List Instr) : (s.withPending l).ao = s.ao := rfl
@[simp] theorem State.withPending_free (s : State) (l : List Instr) : (s.withPending l).free = s.free := rfl
@[simp] theorem State.withPending_bankReply (s : State) (l : List Instr) : (s.withPending l).bankReply = s.bankReply := rfl
@[simp] theorem State.withPending_trace (s : State) (l : List Instr) : (s.withPending l).trace = s.trace := rfl
@[simp] theorem State.withPending_place (s : State) (l : List Instr) : (s.withPending l).place = s.place := rfl
@[simp] theorem State.withPending_ports (s : State) (l : List Instr) : (s.withPending l).ports = s.ports := rfl
@[simp] theorem State.withPending_retr (s : State) (l : List Instr) : (s.withPending l).retr = s.retr := rfl
@[simp] theorem State.withPending_upd (s : State) (l : List Instr) : (s.withPending l).upd = s.upd := rfl
@[simp] theorem State.withPending_trails (s : State) (l : List Instr) : (s.withPending l).trails = s.trails := rfl
@[simp] theorem State.withPending_masks (s : State) (l : List Instr) : (s.withPending l).masks = s.masks := rfl
@[simp] theorem State.withPending_plans (s : State) (l : List Instr) : (s.withPending l).plans = s.plans := rfl
@[simp] theorem State.withPending_trailSlots (s : State) (l : List Instr) : (s.withPending l).trailSlots = s.trailSlots := rfl
@[simp] theorem State.withPending_power (s : State) (l : List Instr) : (s.withPending l).power = s.power := rfl
@[simp] theorem State.withPending_dev (s : State) (l : List Instr) : (s.withPending l).dev = s.dev := rfl
@[simp] theorem State.withPending_panel (s : State) (l : List Instr) : (s.withPending l).panel = s.panel := rfl
@[simp] theorem State.withPending_dap (s : State) (l : List Instr) : (s.withPending l).dap = s.dap := rfl
@[simp] theorem State.withPending_fw (s : State) (l : List Instr) : (s.withPending l).fw = s.fw := rfl

end Sys2Proof.Machine
end

