-- ==== Sys2Proof/Laws/Engine.lean ====
section
/-! SUPPORT. Laws/Engine.lean: what a command of a tile instruction does on a tile that holds no other instruction. -/

namespace Sys2Proof.Machine

/-- A tile's write leaves every other tile alone. -/
theorem getTile_putTile_ne (s : State) (t u : Nat) (v : Tile) (h : u ≠ t) :
    getTile (putTile s t v) u = getTile s u := mget_mset_ne _ _ _ h

/-- A tile reads as it was written. -/
@[simp] theorem getTile_putTile (s : State) (t : Nat) (v : Tile) : getTile (putTile s t v) t = v := mget_mset_same _ _ _ _

/-- A trace record touches memory, the poisoned lines it overwrites, the domains it wakes and the trace state alone (R492). -/
theorem traceRecord_frame (s : State) (a b c d : Nat) :
    ∃ m e k w r, traceRecord s a b c d = { s with mem := m, memErr := e, ctr := k, power := w, trace := r } ∧
      w.dom = s.power.dom ∧ w.entering = s.power.entering := by
  unfold traceRecord
  split
  · exact ⟨s.mem, s.memErr, s.ctr, s.power, s.trace, rfl, rfl, rfl⟩
  · dsimp only
    generalize setting s 0x8000 3 + 32 * (s.trace.records % max 1 (setting s 0x8000 4 / 32)) = a
    generalize d % 2 ^ 128 + c * 2 ^ 128 + _ + _ + _ + _ = v
    obtain ⟨m, e, k, w, h, hd, he⟩ := writeBytes_eq s a (toBytes 32 v)
    rw [show writeNat s a 32 v = writeBytes s a (toBytes 32 v) from rfl, h]
    exact ⟨_, _, _, _, _, rfl, hd, he⟩

@[simp] theorem putCtl_waiting (v : Tile) (x : Stream) (c : StreamCtl) : (putCtl v x c).waiting = v.waiting := by
  cases x <;> rfl

@[simp] theorem putCtl_inflight (v : Tile) (x : Stream) (c : StreamCtl) : (putCtl v x c).inflight = v.inflight := by
  cases x <;> rfl

@[simp] theorem putCtl_tokens (v : Tile) (x : Stream) (c : StreamCtl) : (putCtl v x c).tokens = v.tokens := by
  cases x <;> rfl

@[simp] theorem putCtl_active (v : Tile) (x : Stream) (c : StreamCtl) : (putCtl v x c).active = v.active := by
  cases x <;> rfl

@[simp] theorem putCtl_stopped (v : Tile) (x : Stream) (c : StreamCtl) : (putCtl v x c).stopped = v.stopped := by
  cases x <;> rfl

@[simp] theorem putCtl_starve (v : Tile) (x : Stream) (c : StreamCtl) : (putCtl v x c).starve = v.starve := by
  cases x <;> rfl

@[simp] theorem getCtl_putCtl (v : Tile) (x : Stream) (c : StreamCtl) : getCtl (putCtl v x c) x = c := by
  cases x <;> rfl

/-- The tile after a dispatch that found its queues empty. -/
def queuedTile (s : State) (p t : Nat) (x : Stream) (w : BitVec 128) : Tile :=
  { putCtl (getTile s t) x (afterDispatch (getPart s p) (getCtl (getTile s t) x) w) with
    waiting := [nextInstr s p t x w] }

/-- A dispatched engine instruction stands alone in the queues of an idle tile (R32). -/
theorem dispatch_idle {s : State} {p t : Nat} {x : Stream} {w : BitVec 128} (h : Startable s p t x w) :
    dispatch s t x w = putTile (traced s p t w) t (queuedTile s p t x w) := by
  obtain ⟨⟨hm, hp, hf, hc⟩, he, hw, hi, -, -, -, -, -⟩ := h
  have hn : (enginesOf w).isNone = false := by
    cases hx : enginesOf w with
    | none => simp [hx] at he
    | some _ => rfl
  have hq : queueFull (getTile s t) x w = false := by
    simp [queueFull, hw, hi, engines, queueDepth]
  unfold dispatch
  simp only [hm, hp, Option.getD_some, hf, hc, hn, hq, Bool.not_true, Bool.false_eq_true, if_false]
  simp only [queuedTile, nextInstr, putCtl_waiting, hw, List.nil_append, traced]

/-- The tile of an idle dispatch. -/
theorem getTile_dispatch {s : State} {p t : Nat} {x : Stream} {w : BitVec 128} (h : Startable s p t x w) :
    getTile (dispatch s t x w) t = queuedTile s p t x w := by
  rw [dispatch_idle h]
  exact getTile_putTile _ _ _

/-- What a dispatch on an idle tile leaves alone. -/
theorem dispatch_frame {s : State} {p t : Nat} {x : Stream} {w : BitVec 128} (h : Startable s p t x w) :
    ∃ m e k v r, dispatch s t x w =
      { s with mem := m, memErr := e, ctr := k, power := v, trace := r
               tiles := mset Tile.reset s.tiles t (queuedTile s p t x w) } ∧
      v.dom = s.power.dom ∧ v.entering = s.power.entering := by
  rw [dispatch_idle h, traced]
  obtain ⟨m, e, k, v, r, hr, hd, he⟩ := traceRecord_frame s 0 (tileUnit s t (firstEng w)) p w.toNat
  exact ⟨m, e, k, v, r, by rw [hr]; rfl, hd, he⟩

theorem tileGoes_of_may {s : State} {t : Nat} {x : Stream} (h : mayDispatch s t x = true) : tileGoes s t = true := by
  unfold mayDispatch at h
  unfold tileGoes
  cases hp : partOfTile s t with
  | none => simp [hp] at h
  | some p => simp_all

/-- A tile stays up where tiles' places and the domains' states are unchanged. -/
theorem tileUp_congr {s u : State} (hu : u.units = s.units) (hd : u.power.dom = s.power.dom)
    (he : u.power.entering = s.power.entering) (t : Nat) : tileUp u t = tileUp s t := by
  unfold tileUp tileDom tilePresent domDeep getDom physOf
  rw [hu, hd, he]

/-- A wake leaves the tiles alone. -/
@[simp] theorem getTile_wakeStart (s : State) (p t : Nat) (q : QInstr) (u : Nat) :
    getTile (wakeStart s p t q) u = getTile s u := by
  obtain ⟨c, w, h, -⟩ := wakeStart_eq s p t q; rw [h]; rfl

theorem startable_alone {s : State} {p t : Nat} {x : Stream} {w : BitVec 128} (h : Startable s p t x w) :
    startable (queuedTile s p t x w) (nextInstr s p t x w) = true := by
  obtain ⟨-, -, hw, hi, ht, hf, -, -, -⟩ := h
  have hi' : (queuedTile s p t x w).inflight = [] := by simp [queuedTile, hi]
  have h1 : partClear (queuedTile s p t x w) (nextInstr s p t x w) (firstEng w) = true := by
    simp [partClear, hi', fetchFree, fetchStreams, hasCredit, operandLoad]
    simp [queuedTile, seqBefore]
  have h2 : runAheadOk (queuedTile s p t x w) (nextInstr s p t x w) = true := by
    unfold runAheadOk
    have : oldestMatrix (queuedTile s p t x w) (nextInstr s p t x w).x =
        if usesEng w .matrix then (nextInstr s p t x w).seq else ((nextInstr s p t x w).seq + 1) % 2 ^ 32 := by
      have hc : (getCtl (queuedTile s p t x w) x).nextSeq = ((getCtl (getTile s t) x).nextSeq + 1) % 2 ^ 32 := by
        cases x <;> rfl
      by_cases hu : usesEng w .matrix
      · simp [oldestMatrix, queuedTile, nextInstr, hu, hi]
      · have hl : (queuedTile s p t x w).waiting = [nextInstr s p t x w] := rfl
        unfold oldestMatrix
        simp only [hl, hi', List.filter_nil, List.map_nil, List.append_nil]
        simp [nextInstr, hu, hc]
    rw [this]
    split <;> try rfl
    all_goals
      unfold seqBefore
      split <;> simp only [Bool.not_eq_true', Bool.and_eq_false_imp, decide_eq_false_iff_not] <;> omega
  have h3 : matrixTaken (queuedTile s p t x w) (nextInstr s p t x w) = false := by
    simpa [matrixTaken, openStream, queuedTile, hi] using hf
  have h4 : tokensReady (queuedTile s p t x w) x (wWait w) (firstEng w) = true := by
    simpa [tokensReady, queuedTile] using ht
  simp [startable, h1, h2, h3, show (nextInstr s p t x w).x = x from rfl, show (nextInstr s p t x w).w = w from rfl, h4]

/-- The one choice of the engine that starts the only instruction of a tile (R34). -/
theorem arbitrate_idle {s : State} {p t : Nat} {x : Stream} {w : BitVec 128} (h : Startable s p t x w) :
    arbitrate (dispatch s t x w) t (firstEng w) =
      match afterStart (startState s p t x w) t (nextInstr s p t x w)
        (startClass (startState s p t x w) p t (nextInstr s p t x w)) with
      | some u => chosen u t x w
      | none => dispatch s t x w := by
  have hT := getTile_dispatch h
  have hS := startable_alone h
  obtain ⟨m, e, k, v, r, hF, hd, he⟩ := dispatch_frame h
  obtain ⟨kc, kw, hW, -, -⟩ := wakeStart_eq (dispatch s t x w) p t (nextInstr s p t x w)
  have hpart : partOfTile (dispatch s t x w) t = some p := by rw [hF]; exact h.dispatchable.part
  have hgp : getPart (dispatch s t x w) p = getPart s p := by rw [hF]; rfl
  have hgoes : tileGoes (dispatch s t x w) t = true := by
    have := tileGoes_of_may h.dispatchable.may
    unfold tileGoes at this ⊢
    rw [h.dispatchable.part] at this
    rw [hpart, hT, tileUp_congr (s := s) (by rw [hF]) (by rw [hF]; exact hd) (by rw [hF]; exact he)]
    simpa [hgp, queuedTile] using this
  have horder : streamOrder (dispatch s t x w) t = streamOrder s t := by rw [hF]; rfl
  have hset : settingAt (dispatch s t x w) (1 + t) 0x3110 2 = settingAt s (1 + t) 0x3110 2 := by rw [hF]; rfl
  have hhead : ∀ y, headAt (queuedTile s p t x w) y (firstEng w) = if y = x then some (nextInstr s p t x w) else none := by
    intro y
    by_cases hy : y = x
    · subst hy; simp [headAt, queuedTile, nextInstr]
    · simp [headAt, queuedTile, nextInstr, hy, Ne.symm hy]
  have hinter : interlocked (dispatch s t x w) p t (nextInstr s p t x w) = false := by
    simp [interlocked, hT, queuedTile, h.inflight]
  have htry : tryStart (dispatch s t x w) p t (nextInstr s p t x w) =
      afterStart (startState s p t x w) t (nextInstr s p t x w)
        (startClass (startState s p t x w) p t (nextInstr s p t x w)) := by
    unfold tryStart
    simp only [hT, hS, hinter, Bool.and_false, Bool.not_false, Bool.and_true, if_true, h.reads]
    simp only [startState, hW]
    rw [show getTile (putPower (putCtrs (dispatch s t x w) kc) kw) t = getTile (dispatch s t x w) t from rfl, hT]
    rfl
  have hstart : ∀ y, startOf (dispatch s t x w) p t (firstEng w) y =
      (headAt (queuedTile s p t x w) y (firstEng w)).bind (tryStart (dispatch s t x w) p t) := by
    intro y
    simp [startOf, hT, queuedTile, h.inflight]
  have hready : readyStarts (dispatch s t x w) p t (firstEng w) =
      (streamOrder s t).filterMap (fun y => if y = x then
        (afterStart (startState s p t x w) t (nextInstr s p t x w)
          (startClass (startState s p t x w) p t (nextInstr s p t x w))).map (fun u => (x, u)) else none) := by
    unfold readyStarts
    rw [horder]
    congr 1
    funext y
    rw [hstart, hhead]
    by_cases hy : y = x
    · subst hy; simp [htry]
    · simp [hy]
  unfold arbitrate
  rw [hgoes, hpart]
  simp only [Bool.not_true, Bool.false_eq_true, if_false, Option.getD_some, hready]
  cases hR : afterStart (startState s p t x w) t (nextInstr s p t x w)
      (startClass (startState s p t x w) p t (nextInstr s p t x w)) with
  | none => simp
  | some u =>
    have hl : ∀ l : List Stream, ∃ k, l.filterMap (fun y => if y = x then
        (some u).map (fun u => (x, u)) else none) = List.replicate k (x, u) ∧ (x ∈ l → 0 < k) := by
      intro l
      induction l with
      | nil => exact ⟨0, rfl, by simp⟩
      | cons a l ih =>
        obtain ⟨k, hk, hp⟩ := ih
        by_cases ha : a = x
        · exact ⟨k + 1, by simp [ha, List.replicate_succ] at hk ⊢; exact hk, by simp⟩
        · refine ⟨k, by simp [ha] at hk ⊢; exact hk, ?_⟩
          intro hx
          rcases List.mem_cons.mp hx with hx | hx
          · exact absurd hx.symm ha
          · exact hp hx
    obtain ⟨k, hk, hpos⟩ := hl (streamOrder s t)
    rw [hk]
    have hk0 := hpos h.order
    obtain ⟨n, rfl⟩ : ∃ n, k = n + 1 := ⟨k - 1, by omega⟩
    have hfind : (List.replicate (n + 1) (x, u)).find? (fun r => decide (settingAt (dispatch s t x w) (1 + t) 0x3110 2 ≤
        mget 0 (getTile (dispatch s t x w) t).starve (starveKey (firstEng w) r.1))) = none := by
      rw [List.find?_eq_none]
      intro y hy
      rw [List.eq_of_mem_replicate hy, hset, hT]
      have := h.patient
      simpa [queuedTile] using this
    rw [hfind]
    simp only [List.replicate_succ, List.head?_cons, Option.orElse_none, Option.isSome_none, Bool.false_eq_true, if_false,
      List.map_cons, List.map_replicate]
    unfold chosen
    congr 1
    unfold starveAfter
    congr 1
    have : ∀ y, ((x :: List.replicate n x).contains y) = ([x].contains y) := by
      intro y
      by_cases hy : y = x
      · subst hy; simp
      · simp [hy, List.mem_replicate]
    simp only [this]

/-- A command of a tile instruction on a tile that holds no other instruction: the word is dispatched, and starts with
the effect of its class. -/
theorem tileInstr_idle {s : State} {p t : Nat} {x : Stream} {w : BitVec 128} (h : Startable s p t x w) :
    tileInstr s t x w =
      match afterStart (startState s p t x w) t (nextInstr s p t x w)
        (startClass (startState s p t x w) p t (nextInstr s p t x w)) with
      | some u => chosen u t x w
      | none => dispatch s t x w := by
  unfold tileInstr
  rw [if_pos h.engine]
  exact arbitrate_idle h

/-- The start's effect is complete. -/
theorem tileInstr_done {s u : State} {p t : Nat} {x : Stream} {w : BitVec 128} (h : Startable s p t x w)
    (hs : startClass (startState s p t x w) p t (nextInstr s p t x w) = .done u) :
    tileInstr s t x w = completed u s p t x w := by
  rw [tileInstr_idle h, hs]; rfl

/-- The start's effect goes on. -/
theorem tileInstr_going {s u : State} {p t d : Nat} {x : Stream} {w : BitVec 128} {why : Await}
    (h : Startable s p t x w) (hs : startClass (startState s p t x w) p t (nextInstr s p t x w) = .going u why d) :
    tileInstr s t x w = underWay u s p t x w why d := by
  rw [tileInstr_idle h, hs]; rfl

/-- The class of a word of a class. -/
theorem wClass_classWord (c : Nat) (w : BitVec 122) (h : c < 64) : wClass (classWord c w) = c := by
  have := w.isLt
  simp only [wClass, fld, classWord, bits, BitVec.toNat_ofNat, Nat.shiftRight_eq_div_pow]
  omega

/-- The tile in which a dispatched word starts: its queues are empty, Matrix and its buffers as before. -/
theorem startState_tile {s : State} {p t : Nat} {x : Stream} {w : BitVec 128} (h : Startable s p t x w) :
    (getTile (startState s p t x w) t).waiting = [] ∧ (getTile (startState s p t x w) t).inflight = [] ∧
    (getTile (startState s p t x w) t).active = (getTile s t).active ∧
    (getTile (startState s p t x w) t).shadow = (getTile s t).shadow ∧
    (getTile (startState s p t x w) t).panels = (getTile s t).panels ∧
    (getTile (startState s p t x w) t).lastAcc = (getTile s t).lastAcc := by
  have ht := getTile_dispatch h
  have hi := h.inflight
  unfold startState
  simp only [getTile_putTile, getTile_wakeStart, ht]
  have hq : (putCtl (getTile s t) x (afterDispatch (getPart s p) (getCtl (getTile s t) x) w)).active = (getTile s t).active ∧
     (putCtl (getTile s t) x (afterDispatch (getPart s p) (getCtl (getTile s t) x) w)).shadow = (getTile s t).shadow ∧
     (putCtl (getTile s t) x (afterDispatch (getPart s p) (getCtl (getTile s t) x) w)).panels = (getTile s t).panels ∧
     (putCtl (getTile s t) x (afterDispatch (getPart s p) (getCtl (getTile s t) x) w)).lastAcc = (getTile s t).lastAcc := by
    cases x <;> exact ⟨rfl, rfl, rfl, rfl⟩
  obtain ⟨a, b, c, d⟩ := hq
  refine ⟨?_, ?_, ?_, ?_, ?_, ?_⟩
  · simp [takeTokens, dropWaiting, queuedTile, nextInstr]
  all_goals simp [takeTokens, dropWaiting, queuedTile, nextInstr, hi, b, c, d]

/-- Matrix takes an accumulating instruction that starts on an idle tile. -/
theorem matrixClear_start {s : State} {p t : Nat} {x : Stream} {w : BitVec 128} (h : Startable s p t x w)
    (ha : isAccum w = true) (hk : (nextInstr s p t x w).skip = false) :
    matrixClear (getTile (startState s p t x w) t) (nextInstr s p t x w) (getTile (startState s p t x w) t).inflight = true := by
  obtain ⟨h1, h2, h3, -, -, -⟩ := startState_tile h
  have hf := h.free
  have hi := h.inflight
  simp [matrixClear, partClear, h1, h2, h3]
  simp [matrixTaken, hk, show (nextInstr s p t x w).w = w from rfl, ha, openStream, hi] at hf
  by_cases hacc : (getTile s t).active.state = .accumulating
  · right; simpa [hacc] using hf
  · exact .inl hacc

/-- An accumulating instruction that starts on an idle tile goes to Matrix at once. -/
theorem takeAccum_clear {s : State} {p t : Nat} {q : QInstr} {d : Nat}
    (hc : matrixClear (getTile s t) q (getTile s t).inflight = true) (hr : runAccum s s p t d q ≠ .notReady) :
    takeAccum s p t d q = runAccum s s p t d q := by
  unfold takeAccum
  simp only [hc, if_true]

/-- The end of an accumulation is an end. -/
theorem finishAccum_ne (s : State) (t : Nat) (q : QInstr) (l : LastAcc) (a : AccSet) (m b : Nat) :
    finishAccum s t q l a m b ≠ .notReady := by
  unfold finishAccum; dsimp only; split <;> simp

/-- What the end of an accumulation is for the command. -/
theorem finish_exec {s s1 : State} {p t : Nat} {x : Stream} {w : BitVec 128} {l : LastAcc} {a : AccSet} {m b : Nat}
    (hS : Startable s p t x w) (h : startClass (startState s p t x w) p t (nextInstr s p t x w) =
      finishAccum s1 t (nextInstr s p t x w) l a m b) :
    let s2 := useFeeders s1 t (nextInstr s p t x w) l
    let s3 := tileCtr (putTile s2 t { getTile s2 t with active := a }) t 0x09 b
    tileInstr s t x w = if wEot w then underWay s3 s p t x w (.handOver m) 0
      else completed (tileCtr s3 t 0x21 m) s p t x w := by
  intro s2 s3
  unfold finishAccum at h
  dsimp only at h
  rw [show (nextInstr s p t x w).w = w from rfl] at h
  split at h <;> rename_i he
  · rw [if_pos he]; exact tileInstr_going hS h
  · rw [if_neg he]; exact tileInstr_done hS h

/-- The start of an accumulating instruction without a panel load on an idle tile is its Matrix part. -/
theorem startAccum_clear {s s1 : State} {p t : Nat} {x : Stream} {w : BitVec 128} {l : LastAcc} {a : AccSet} {m b : Nat}
    (hS : Startable s p t x w) (ha : isAccum w = true) (hk : (nextInstr s p t x w).skip = false)
    (hl : loadsPanel w = false)
    (hr : let s0 := startState s p t x w
      runAccum s0 s0 p t (ownDesc s0 t (wDesc w)) (nextInstr s p t x w) = finishAccum s1 t (nextInstr s p t x w) l a m b) :
    startClass (startState s p t x w) p t (nextInstr s p t x w) = finishAccum s1 t (nextInstr s p t x w) l a m b := by
  have hc : startClass (startState s p t x w) p t (nextInstr s p t x w) =
      startAccum (startState s p t x w) p t (nextInstr s p t x w) := by
    have hw : wClass w = 8 ∨ wClass w = 9 ∨ wClass w = 10 := by simpa [isAccum, or_assoc] using ha
    unfold startClass
    rw [show wClass (nextInstr s p t x w).w = wClass w from rfl]
    rcases hw with h | h | h <;> rw [h] <;> rfl
  rw [hc]
  unfold startAccum
  dsimp only
  rw [show (nextInstr s p t x w).w = w from rfl, hl, hk]
  simp only [Bool.false_eq_true, if_false]
  rw [takeAccum_clear (matrixClear_start hS ha hk) (by rw [hr]; exact finishAccum_ne _ _ _ _ _ _ _), hr]
  unfold finishAccum
  dsimp only
  split <;> rfl

end Sys2Proof.Machine
end

