-- ==== Sys2Proof/Laws/Keeps.lean ====
section
/-! SUPPORT. Laws/Keeps.lean: what every function from states to states keeps: memory, counter objects and event log
well-formed, and the queue. The shared operations keep it; the rules here carry it through programs. -/

namespace Sys2Proof.Machine

/-- From `s0` to `s`, the invariant is kept and the queue is unchanged. -/
structure Keeps (s0 s : State) : Prop where
  inv : Inv s0 → Inv s
  queue : s.pending = s0.pending

theorem Keeps.refl (s : State) : Keeps s s := ⟨id, rfl⟩

theorem Keeps.trans {a b c : State} (h : Keeps a b) (k : Keeps b c) : Keeps a c :=
  ⟨k.inv ∘ h.inv, k.queue.trans h.queue⟩

/-- Updates of the other fields keep it. -/
theorem Keeps.upd {s0 s : State} (h : Keeps s0 s) (tiles parts sync sched units memErr lft settings time ao free bankReply
    trace place ports retr upd trails trailSlots masks plans power dev panel dap fw) :
    Keeps s0 ⟨s.pending, s.mem, s.ctr, tiles, parts, sync, sched, units, memErr, lft, s.log, settings, time, ao, free,
      bankReply, trace, place, ports, retr, upd, trails, trailSlots, masks, plans, power, dev, panel, dap, fw⟩ :=
  ⟨fun hi => let k := h.inv hi; ⟨k.mem, k.log, k.ctr⟩, h.queue⟩

theorem Keeps.ite {s0 a b : State} {c : Prop} [Decidable c] (ha : Keeps s0 a) (hb : Keeps s0 b) :
    Keeps s0 (if c then a else b) := by split <;> assumption

theorem Keeps.ite_fst {α : Type} {s0 : State} {a b : State × α} {c : Prop} [Decidable c] (ha : Keeps s0 a.1)
    (hb : Keeps s0 b.1) : Keeps s0 (if c then a else b).1 := by split <;> assumption

theorem Keeps.ite_snd {α : Type} {s0 : State} {a b : α × State} {c : Prop} [Decidable c] (ha : Keeps s0 a.2)
    (hb : Keeps s0 b.2) : Keeps s0 (if c then a else b).2 := by split <;> assumption

theorem Keeps.mk_fst {α : Type} {s0 s : State} {b : α} (h : Keeps s0 s) : Keeps s0 (s, b).1 := h

theorem Keeps.mk_snd {α : Type} {s0 s : State} {b : α} (h : Keeps s0 s) : Keeps s0 (b, s).2 := h

theorem Keeps.eq_fst {α : Type} {s0 s : State} {b : α} {p : State × α} (he : p = (s, b)) (h : Keeps s0 p.1) :
    Keeps s0 s := by subst he; exact h

theorem Keeps.eq_snd {α : Type} {s0 s : State} {b : α} {p : α × State} (he : p = (b, s)) (h : Keeps s0 p.2) :
    Keeps s0 s := by subst he; exact h

theorem Keeps.foldl {α : Type} {s0 s : State} {f : State → α → State} {l : List α}
    (hf : ∀ u x, Keeps s0 u → Keeps s0 (f u x)) (h : Keeps s0 s) : Keeps s0 (l.foldl f s) := by
  induction l generalizing s with
  | nil => exact h
  | cons x l ih => exact ih (hf _ _ h)

theorem Keeps.foldl_fst {α β : Type} {s0 : State} {p : State × β} {f : State × β → α → State × β} {l : List α}
    (hf : ∀ u x, Keeps s0 u.1 → Keeps s0 (f u x).1) (h : Keeps s0 p.1) : Keeps s0 (l.foldl f p).1 := by
  induction l generalizing p with
  | nil => exact h
  | cons x l ih => exact ih (hf _ _ h)

/-- Every next state that an outcome answers keeps it. -/
structure Kept (s0 : State) (o : Host.Outcome State Fault Refusal) : Prop where
  next : ∀ u, o = .next u → Keeps s0 u

theorem Kept.of_next {s0 s : State} (h : Keeps s0 s) : Kept s0 (.next s) := ⟨fun _ hu => by cases hu; exact h⟩

theorem Kept.ite {s0 : State} {a b : Host.Outcome State Fault Refusal} {c : Prop} [Decidable c] (ha : Kept s0 a)
    (hb : Kept s0 b) : Kept s0 (if c then a else b) := by split <;> assumption

/-- The state in which an instruction started, or with which it goes on, keeps it. -/
structure StartKept (s0 : State) (o : Started) : Prop where
  done : ∀ u, o = .done u → Keeps s0 u
  going : ∀ u w d, o = .going u w d → Keeps s0 u

theorem StartKept.of_done {s0 s : State} (h : Keeps s0 s) : StartKept s0 (.done s) :=
  ⟨fun _ hu => by cases hu; exact h, fun _ _ _ hu => by cases hu⟩

theorem StartKept.of_going {s0 s : State} {w : Await} {d : Nat} (h : Keeps s0 s) : StartKept s0 (.going s w d) :=
  ⟨fun _ hu => by (cases hu), fun _ _ _ hu => by cases hu; exact h⟩

theorem StartKept.of_fault {s0 : State} {f : IFault} : StartKept s0 (.fault f) :=
  ⟨fun _ hu => by (cases hu), fun _ _ _ hu => by cases hu⟩

theorem StartKept.of_notReady {s0 : State} : StartKept s0 .notReady :=
  ⟨fun _ hu => by (cases hu), fun _ _ _ hu => by cases hu⟩

theorem StartKept.ite {s0 : State} {a b : Started} {c : Prop} [Decidable c] (ha : StartKept s0 a)
    (hb : StartKept s0 b) : StartKept s0 (if c then a else b) := by split <;> assumption

theorem StartKept.own {s0 : State} {t : Nat} {w : BitVec 128} {o : Started} (h : StartKept s0 o) :
    StartKept s0 (ownStarted t w o) := by
  cases o with
  | fault f => exact .of_fault
  | done s => exact .of_done (h.done _ rfl)
  | going s a d => exact .of_going (h.going _ _ _ rfl)
  | notReady => exact .of_notReady

/-- The state that a row of a gather leaves keeps it. -/
structure RowKept (s0 : State) (o : RowStep) : Prop where
  done : ∀ u, o = .done u → Keeps s0 u
  stop : ∀ u, o = .stop u → Keeps s0 u

theorem RowKept.of_done {s0 s : State} (h : Keeps s0 s) : RowKept s0 (.done s) :=
  ⟨fun _ hu => by cases hu; exact h, fun _ hu => by cases hu⟩

theorem RowKept.of_stop {s0 s : State} (h : Keeps s0 s) : RowKept s0 (.stop s) :=
  ⟨fun _ hu => by (cases hu), fun _ hu => by cases hu; exact h⟩

theorem RowKept.of_wait {s0 : State} : RowKept s0 .wait := ⟨fun _ hu => by (cases hu), fun _ hu => by (cases hu)⟩

theorem RowKept.ite {s0 : State} {a b : RowStep} {c : Prop} [Decidable c] (ha : RowKept s0 a)
    (hb : RowKept s0 b) : RowKept s0 (if c then a else b) := by split <;> assumption

/-- What a start leaves, when it leaves a state. -/
structure MayKeep (s0 : State) (o : Option State) : Prop where
  some : ∀ u, o = .some u → Keeps s0 u

theorem MayKeep.getD {s0 s : State} {o : Option State} (h : Keeps s0 s) (ho : MayKeep s0 o) : Keeps s0 (o.getD s) := by
  cases o with
  | none => exact h
  | some u => exact ho.some u rfl

theorem MayKeep.of_none {s0 : State} : MayKeep s0 none := ⟨fun _ hu => by cases hu⟩

theorem MayKeep.of_some {s0 s : State} (h : Keeps s0 s) : MayKeep s0 (Option.some s) := ⟨fun _ hu => by cases hu; exact h⟩

theorem MayKeep.ite {s0 : State} {a b : Option State} {c : Prop} [Decidable c] (ha : MayKeep s0 a) (hb : MayKeep s0 b) :
    MayKeep s0 (if c then a else b) := by split <;> assumption

/-! ## The shared operations over memory, counter objects and the log -/

theorem Keeps.putMem {s0 s : State} {m : Map (BitVec 8)} (h : Keeps s0 s) (hm : Memory.wf s.mem → Memory.wf m) :
    Keeps s0 (putMem s m) :=
  ⟨fun hi => let k := h.inv hi; ⟨hm k.mem, k.log, k.ctr⟩, h.queue⟩

theorem Keeps.putCtrs {s0 s : State} {m : Map Nat} (h : Keeps s0 s) (hm : Counters.wf s.ctr → Counters.wf m) :
    Keeps s0 (putCtrs s m) :=
  ⟨fun hi => let k := h.inv hi; ⟨k.mem, k.log, hm k.ctr⟩, h.queue⟩

theorem Keeps.putLog {s0 s : State} {l : EventLog} (h : Keeps s0 s) (hl : EventLog.wf s.log → EventLog.wf l) :
    Keeps s0 (putLog s l) :=
  ⟨fun hi => let k := h.inv hi; ⟨k.mem, hl k.log, k.ctr⟩, h.queue⟩

theorem pokeBytes_wf {m : Map (BitVec 8)} (h : Memory.wf m) (a : Nat) (bs : List Byte) : Memory.wf (pokeBytes m a bs) := by
  induction bs generalizing m a with
  | nil => exact h
  | cons b bs ih => exact ih (mapWf_mset a b h) (a + 1)

theorem keeps_setCtr {s0 s : State} (h : Keeps s0 s) (idx sub v : Nat) : Keeps s0 (setCtr s idx sub v) :=
  h.putCtrs fun hc => ⟨mapWf_mset _ _ hc.1, fun e he => by
    unfold mset at he
    split at he
    · exact hc.2 e ((mdel_sublist _ _).subset he)
    · rcases mem_mput he with rfl | he
      · show min v (2 ^ 64 - 1) < 2 ^ 64
        omega
      · exact hc.2 e he⟩

theorem keeps_addCtr {s0 s : State} (h : Keeps s0 s) (idx sub v : Nat) : Keeps s0 (addCtr s idx sub v) :=
  keeps_setCtr h _ _ _

theorem keeps_mdropCtrs {s0 s : State} (h : Keeps s0 s) (p : Nat → Bool) : Keeps s0 (putCtrs s (mdrop p s.ctr)) :=
  h.putCtrs fun hc => ⟨mapWf_mdrop _ hc.1, fun e he => hc.2 e (List.filter_sublist.subset he)⟩

theorem keeps_clearCtrs {s0 s : State} (h : Keeps s0 s) (idx : Nat) : Keeps s0 (clearCtrs s idx) := keeps_mdropCtrs h _

/-- Consecutive numbers from one further on. -/
theorem upFrom_succ_right (a n : Nat) : upFrom a (n + 1) = upFrom a n ++ [a + n] := by
  induction n generalizing a with
  | zero => simp [upFrom]
  | succ n ih => rw [upFrom, ih (a + 1), upFrom]; simp; omega

/-- A record with the next number keeps the log consistent. -/
theorem eventLog_push {l : EventLog} (h : EventLog.wf l) (e : Event) (he : e.seq = l.next) (b : Bool) :
    EventLog.wf { ring := (if l.ring.length < 16384 then l.ring else l.ring.drop 1) ++ [e], next := l.next + 1,
                  alertLow := b } := by
  obtain ⟨h1, h2, h3⟩ := h
  by_cases hc : l.ring.length < 16384
  · simp only [hc, if_true]
    refine ⟨by simp; omega, by simp; omega, ?_⟩
    simp only [List.map_append, List.map_cons, List.map_nil, List.length_append, List.length_cons, List.length_nil, h3, he]
    rw [show l.next + 1 - (l.ring.length + (0 + 1)) = l.next - l.ring.length by omega, zero_add, upFrom_succ_right]
    congr 2
    omega
  · simp only [hc, if_false]
    obtain ⟨n, hn⟩ : ∃ n, l.ring.length = n + 1 := ⟨l.ring.length - 1, by omega⟩
    refine ⟨by simp; omega, by simp; omega, ?_⟩
    simp only [List.map_append, List.map_cons, List.map_nil, List.length_append, List.length_cons, List.length_nil,
      List.length_drop, List.map_drop, h3, he, hn, upFrom, List.drop_succ_cons, List.drop_zero]
    rw [show n + 1 - 1 = n by omega, show l.next + 1 - (n + 1) = l.next - (n + 1) + 1 by omega]
    have := upFrom_succ_right (l.next - (n + 1) + 1) n
    rw [show l.next - (n + 1) + 1 + n = l.next by omega] at this
    exact this.symm

theorem keeps_raise {s0 s : State} (h : Keeps s0 s) (code part unit : Nat) (args : List Nat) :
    Keeps s0 (raise s code part unit args) :=
  (keeps_addCtr (keeps_addCtr h _ _ _) _ _ _).putLog fun hl => eventLog_push hl _ rfl _

theorem keeps_pokeMemory {s0 s : State} (h : Keeps s0 s) (a : Nat) (bs : List Byte) : Keeps s0 (pokeMemory s a bs) :=
  (h.putMem fun hm => pokeBytes_wf hm a bs).upd ..

theorem keeps_parkReq {s0 s : State} (h : Keeps s0 s) (l : Nat) (r : MemReq) : Keeps s0 (parkReq s l r) := h.upd ..

theorem keeps_writePiece {s0 s : State} (h : Keeps s0 s) (bs : List Byte) (a l : Nat) :
    Keeps s0 (writePiece bs a s l) :=
  .ite (keeps_parkReq h _ _) (keeps_pokeMemory h _ _)

theorem keeps_putPower {s0 s : State} (h : Keeps s0 s) (w : Power) : Keeps s0 (putPower s w) := h.upd ..

theorem keeps_endSpell {s0 s : State} (h : Keeps s0 s) (i : Nat) : Keeps s0 (endSpell s i) := .ite (keeps_putPower h _) h

theorem keeps_wakeDomain {s0 s : State} (h : Keeps s0 s) (i : Nat) : Keeps s0 (wakeDomain s i) :=
  .ite (keeps_putPower (keeps_addCtr h _ _ _) _) (.ite h (.ite (keeps_endSpell h _)
    (keeps_putPower (keeps_addCtr (keeps_endSpell h _) _ _ _) _)))

theorem keeps_wakeRun {s0 s : State} (h : Keeps s0 s) (a n : Nat) : Keeps s0 (wakeRun s a n) :=
  .ite h (Keeps.foldl (fun _ _ hu => keeps_wakeDomain hu _) h)

theorem keeps_writeBytes {s0 s : State} (h : Keeps s0 s) (a : Nat) (bs : List Byte) : Keeps s0 (writeBytes s a bs) :=
  .ite (keeps_pokeMemory (keeps_wakeRun h _ _) _ _)
    (Keeps.foldl (fun _ _ hu => keeps_writePiece hu _ _ _) (keeps_wakeRun h _ _))

theorem keeps_zeroRange {s0 s : State} (h : Keeps s0 s) (lo hi : Nat) : Keeps s0 (zeroRange s lo hi) :=
  (h.putMem fun hm => mapWf_mdrop _ hm).upd ..

end Sys2Proof.Machine
end

