-- ==== Sys2Proof/Laws/KeepsOps.lean ====
section
/-! SUPPORT. Laws/KeepsOps.lean: the functions of Machine/Ops.lean keep the invariant and the queue. -/

set_option linter.unusedTactic false
set_option linter.unreachableTactic false

namespace Sys2Proof.Machine

theorem keeps_putTile {s0 s : State} (h : Keeps s0 s) (a1 a2) : Keeps s0 (putTile s a1 a2) := by
  unfold putTile
  with_reducible repeat' first
    | assumption | (refine Keeps.upd ?_ ..; assumption)

theorem keeps_putPart {s0 s : State} (h : Keeps s0 s) (a1 a2) : Keeps s0 (putPart s a1 a2) := by
  unfold putPart
  with_reducible repeat' first
    | assumption | (refine Keeps.upd ?_ ..; assumption)

theorem keeps_putSync {s0 s : State} (h : Keeps s0 s) (a1) : Keeps s0 (putSync s a1) := by
  unfold putSync
  with_reducible repeat' first
    | assumption | (refine Keeps.upd ?_ ..; assumption)

theorem keeps_putCounter {s0 s : State} (h : Keeps s0 s) (a1 a2) : Keeps s0 (putCounter s a1 a2) := by
  unfold putCounter
  with_reducible repeat' first
    | assumption | apply keeps_putSync

theorem keeps_putSched {s0 s : State} (h : Keeps s0 s) (a1) : Keeps s0 (putSched s a1) := by
  unfold putSched
  with_reducible repeat' first
    | assumption | (refine Keeps.upd ?_ ..; assumption)

theorem keeps_putUnits {s0 s : State} (h : Keeps s0 s) (a1) : Keeps s0 (putUnits s a1) := by
  unfold putUnits
  with_reducible repeat' first
    | assumption | (refine Keeps.upd ?_ ..; assumption)

theorem keeps_putMemErr {s0 s : State} (h : Keeps s0 s) (a1) : Keeps s0 (putMemErr s a1) := by
  unfold putMemErr
  with_reducible repeat' first
    | assumption | (refine Keeps.upd ?_ ..; assumption)

theorem keeps_putLft {s0 s : State} (h : Keeps s0 s) (a1) : Keeps s0 (putLft s a1) := by
  unfold putLft
  with_reducible repeat' first
    | assumption | (refine Keeps.upd ?_ ..; assumption)

theorem keeps_putSettings {s0 s : State} (h : Keeps s0 s) (a1) : Keeps s0 (putSettings s a1) := by
  unfold putSettings
  with_reducible repeat' first
    | assumption | (refine Keeps.upd ?_ ..; assumption)

theorem keeps_putTime {s0 s : State} (h : Keeps s0 s) (a1) : Keeps s0 (putTime s a1) := by
  unfold putTime
  with_reducible repeat' first
    | assumption | (refine Keeps.upd ?_ ..; assumption)

theorem keeps_putDap {s0 s : State} (h : Keeps s0 s) (a1) : Keeps s0 (putDap s a1) := by
  unfold putDap
  with_reducible repeat' first
    | assumption | (refine Keeps.upd ?_ ..; assumption)

theorem keeps_putPorts {s0 s : State} (h : Keeps s0 s) (a1) : Keeps s0 (putPorts s a1) := by
  unfold putPorts
  with_reducible repeat' first
    | assumption | (refine Keeps.upd ?_ ..; assumption)

theorem keeps_putFront {s0 s : State} (h : Keeps s0 s) (a1) : Keeps s0 (putFront s a1) := by
  unfold putFront
  with_reducible repeat' first
    | assumption | (refine Keeps.upd ?_ ..; assumption)

theorem keeps_putTrace {s0 s : State} (h : Keeps s0 s) (a1) : Keeps s0 (putTrace s a1) := by
  unfold putTrace
  with_reducible repeat' first
    | assumption | (refine Keeps.upd ?_ ..; assumption)

theorem keeps_freshFree {s0 s : State} (h : Keeps s0 s) : Keeps s0 (freshFree s).2 := by
  unfold freshFree
  with_reducible repeat' first
    | assumption | (refine Keeps.upd ?_ ..; assumption) | split | dsimp only

theorem keeps_takeSettings {s0 s : State} (h : Keeps s0 s) (a1 a2) : Keeps s0 (takeSettings s a1 a2) := by
  unfold takeSettings
  with_reducible repeat' first
    | assumption | apply keeps_putSettings

theorem keeps_takeSetting {s0 s : State} (h : Keeps s0 s) (a1 a2 a3) : Keeps s0 (takeSetting s a1 a2 a3) := by
  unfold takeSetting
  with_reducible repeat' first
    | assumption | apply keeps_putSettings

theorem keeps_onceActive {s0 s : State} (h : Keeps s0 s) (a1) {a2 : State → State} (ha2 : ∀ u, Keeps s0 u → Keeps s0 (a2 u)) : Keeps s0 (onceActive s a1 a2) := by
  unfold onceActive
  with_reducible repeat' first
    | assumption | apply Keeps.ite | apply keeps_endSpell | apply keeps_wakeDomain | apply ha2

theorem keeps_writeNat {s0 s : State} (h : Keeps s0 s) (a1 a2 a3) : Keeps s0 (writeNat s a1 a2 a3) := by
  unfold writeNat
  with_reducible repeat' first
    | assumption | apply keeps_writeBytes

theorem keeps_freeFill {s0 s : State} (h : Keeps s0 s) (a1 a2) : Keeps s0 (freeFill s a1 a2) := by
  unfold freeFill; dsimp only
  with_reducible repeat' first
    | assumption | apply keeps_writeBytes | (refine Keeps.upd ?_ ..; assumption)

theorem keeps_markPoison {s0 s : State} (h : Keeps s0 s) (a1) : Keeps s0 (markPoison s a1) := by
  unfold markPoison
  with_reducible repeat' first
    | assumption | apply keeps_putMemErr

theorem keeps_traceRecord {s0 s : State} (h : Keeps s0 s) (a1 a2 a3 a4) : Keeps s0 (traceRecord s a1 a2 a3 a4) := by
  unfold traceRecord; dsimp only
  with_reducible repeat' first
    | assumption | apply Keeps.ite | apply keeps_writeNat | apply keeps_putTrace

theorem keeps_setDom {s0 s : State} (h : Keeps s0 s) (a1 a2) : Keeps s0 (setDom s a1 a2) := by
  unfold setDom; dsimp only
  with_reducible repeat' first
    | assumption | apply Keeps.ite | apply keeps_traceRecord | apply keeps_putPower

theorem keeps_forceDom {s0 s : State} (h : Keeps s0 s) (a1 a2) : Keeps s0 (forceDom s a1 a2) := by
  unfold forceDom; dsimp only
  with_reducible repeat' first
    | assumption | apply keeps_setDom | apply keeps_putPower

theorem keeps_addCause {s0 s : State} (h : Keeps s0 s) (a1 a2) : Keeps s0 (addCause s a1 a2) := by
  unfold addCause; dsimp only
  with_reducible repeat' first
    | assumption | apply keeps_putPart | split

theorem keeps_addHold {s0 s : State} (h : Keeps s0 s) (a1 a2) : Keeps s0 (addHold s a1 a2) := by
  unfold addHold
  with_reducible repeat' first
    | assumption | apply keeps_addCause

end Sys2Proof.Machine
end

