-- ==== Sys2Proof/Laws/KeepsBank.lean ====
section
/-! SUPPORT. Laws/KeepsBank.lean: the functions of Machine/Bank.lean keep the invariant and the queue. -/

set_option linter.unusedTactic false
set_option linter.unreachableTactic false

namespace Sys2Proof.Machine

theorem keeps_bankRaw {s0 s : State} (h : Keeps s0 s) (a1 a2 a3) : Keeps s0 (bankRaw s a1 a2 a3) := by
  unfold bankRaw
  exact (h.putMem fun hm => pokeBytes_wf hm _ _).upd ..

end Sys2Proof.Machine
end

