-- ==== Sys2Proof/Laws/KeepsTile.lean ====
section
/-! SUPPORT. Laws/KeepsTile.lean: the functions of Machine/Tile.lean keep the invariant and the queue. -/

set_option linter.unusedTactic false
set_option linter.unreachableTactic false

namespace Sys2Proof.Machine

theorem keeps_causeOrHold {s0 s : State} (h : Keeps s0 s) (a1 a2 a3 a4 a5) : Keeps s0 (causeOrHold s a1 a2 a3 a4 a5) := by
  unfold causeOrHold; dsimp only
  with_reducible repeat' first
    | assumption | apply Keeps.ite | apply keeps_addHold | apply keeps_addCause | apply keeps_putPart

theorem keeps_tileFault {s0 s : State} (h : Keeps s0 s) (a1 a2 a3 a4 a5 a6) : Keeps s0 (tileFault s a1 a2 a3 a4 a5 a6) := by
  unfold tileFault; dsimp only
  with_reducible repeat' first
    | assumption | apply Keeps.ite | apply keeps_putTile | apply keeps_raise | apply keeps_causeOrHold | split

theorem keeps_completeAt {s0 s : State} (h : Keeps s0 s) (a1 a2) : Keeps s0 (completeAt s a1 a2) := by
  unfold completeAt
  with_reducible repeat' first
    | assumption | apply keeps_putTile

theorem keeps_dispatchControl {s0 s : State} (h : Keeps s0 s) (a1 a2 a3 a4) : Keeps s0 (dispatchControl s a1 a2 a3 a4) := by
  unfold dispatchControl; dsimp only
  with_reducible repeat' first
    | assumption | apply Keeps.ite | apply keeps_putPart | apply keeps_putTile | split

theorem keeps_dispatch {s0 s : State} (h : Keeps s0 s) (a1 a2 a3) : Keeps s0 (dispatch s a1 a2 a3) := by
  unfold dispatch; dsimp only
  with_reducible repeat' first
    | assumption | apply Keeps.ite | apply keeps_tileFault | apply keeps_traceRecord
    | apply keeps_dispatchControl | apply keeps_putTile | split

theorem keeps_tileCtr {s0 s : State} (h : Keeps s0 s) (a1 a2 a3) : Keeps s0 (tileCtr s a1 a2 a3) := by
  unfold tileCtr
  with_reducible repeat' first
    | assumption | apply keeps_addCtr

theorem keeps_discardTile {s0 s : State} (h : Keeps s0 s) (a1 a2) : Keeps s0 (discardTile s a1 a2) := by
  unfold discardTile
  with_reducible repeat' first
    | assumption | apply keeps_takeSettings | apply keeps_putTile

end Sys2Proof.Machine
end

