-- ==== Sys2Proof/Laws/KeepsMemErr.lean ====
section
/-! SUPPORT. Laws/KeepsMemErr.lean: the functions of Machine/MemErr.lean keep the invariant and the queue. -/

set_option linter.unusedTactic false
set_option linter.unreachableTactic false

namespace Sys2Proof.Machine

theorem keeps_putPlace {s0 s : State} (h : Keeps s0 s) (a1 a2) : Keeps s0 (putPlace s a1 a2) := by
  unfold putPlace
  with_reducible repeat' first
    | assumption | (refine Keeps.upd ?_ ..; assumption)

theorem keeps_wakeMem {s0 s : State} (h : Keeps s0 s) (a1) : Keeps s0 (wakeMem s a1) := by
  unfold wakeMem
  with_reducible repeat' first
    | assumption | intro _ | apply Keeps.foldl | apply keeps_wakeDomain

theorem keeps_retireLine {s0 s : State} (h : Keeps s0 s) (a1) : Keeps s0 (retireLine s a1) := by
  unfold retireLine; dsimp only
  with_reducible repeat' first
    | assumption | apply Keeps.ite | apply keeps_raise | apply keeps_putMemErr | split

theorem keeps_dropOne {s0 s : State} (h : Keeps s0 s) (a1 a2) : Keeps s0 (dropOne a1 s a2) := by
  unfold dropOne
  with_reducible repeat' first
    | assumption | apply Keeps.ite | apply keeps_pokeMemory | split

theorem keeps_takeParked {s0 s : State} (h : Keeps s0 s) (a1) : Keeps s0 (takeParked s a1).2 := by
  unfold takeParked
  with_reducible repeat' first
    | assumption | apply keeps_putMemErr | split | dsimp only

theorem keeps_spoilLine {s0 s : State} (h : Keeps s0 s) (a) : Keeps s0 (spoilLine s a) := by
  unfold spoilLine
  exact Keeps.putMem (h.upd ..) fun hm => pokeBytes_wf hm _ _

theorem keeps_serveFar {s0 s : State} (h : Keeps s0 s) (a1 a2) : Keeps s0 (serveFar s a1 a2) := by
  unfold serveFar; dsimp only
  with_reducible repeat' first
    | assumption | intro _ | apply Keeps.foldl | apply keeps_putLft

theorem keeps_deliverPoison {s0 s : State} (h : Keeps s0 s) (a1) : Keeps s0 (deliverPoison s a1) := by
  unfold deliverPoison; dsimp only
  with_reducible repeat' first
    | assumption | apply Keeps.ite | apply keeps_serveFar | apply keeps_putMemErr | apply keeps_spoilLine
    | (refine Keeps.upd ?_ ..; assumption)

theorem keeps_failRefill {s0 s : State} (h : Keeps s0 s) (a1) : Keeps s0 (failRefill s a1) := by
  unfold failRefill; dsimp only
  with_reducible repeat' first
    | assumption | intro _ | apply Keeps.ite | apply Keeps.foldl | apply keeps_addCtr
    | apply keeps_deliverPoison | apply keeps_raise | apply keeps_takeParked | apply keeps_retireLine
    | apply keeps_dropOne | apply keeps_causeOrHold | split

theorem keeps_seekRefill {s0 s : State} (h : Keeps s0 s) (a1) : Keeps s0 (seekRefill s a1) := by
  unfold seekRefill
  with_reducible repeat' first
    | assumption | apply Keeps.ite | apply keeps_failRefill | apply keeps_putMemErr | split

theorem keeps_notePoison {s0 s : State} (h : Keeps s0 s) (a1) : Keeps s0 (notePoison s a1) := by
  unfold notePoison; dsimp only
  with_reducible repeat' first
    | assumption | apply Keeps.ite | apply keeps_markPoison | apply keeps_tileCtr | apply keeps_addCtr | split

theorem keeps_poisonLine {s0 s : State} (h : Keeps s0 s) (a1) : Keeps s0 (poisonLine s a1) := by
  unfold poisonLine
  with_reducible repeat' first
    | assumption | apply keeps_seekRefill | apply keeps_notePoison

theorem keeps_meetError {s0 s : State} (h : Keeps s0 s) (a1 a2) : Keeps s0 (meetError s a1 a2) := by
  unfold meetError; dsimp only
  with_reducible repeat' first
    | assumption | apply Keeps.ite | apply keeps_putMemErr | apply keeps_poisonLine

theorem keeps_admitPoison {s0 s : State} (h : Keeps s0 s) : Keeps s0 (admitPoison s) := by
  unfold admitPoison
  with_reducible repeat' first
    | assumption | intro _ | apply Keeps.ite | apply Keeps.foldl | apply keeps_poisonLine
    | apply keeps_putMemErr

theorem keeps_bankPiece {s0 s : State} (h : Keeps s0 s) (a1 a2 a3 a4) : Keeps s0 (bankPiece s a1 a2 a3 a4) := by
  unfold bankPiece; dsimp only
  with_reducible repeat' first
    | assumption | apply Keeps.ite | apply keeps_wakeRun | apply keeps_parkReq | apply keeps_meetError
    | apply keeps_bankRaw

theorem keeps_bankWrite {s0 s : State} (h : Keeps s0 s) (a1 a2 a3) : Keeps s0 (bankWrite s a1 a2 a3) := by
  unfold bankWrite
  with_reducible repeat' first
    | assumption | apply Keeps.ite | apply keeps_writeBytes | apply keeps_bankPiece

theorem keeps_bankWriteLines {s0 s : State} (h : Keeps s0 s) (a b c d) : Keeps s0 (bankWriteLines a s b c d) := by
  induction a generalizing s b d with
  | zero => exact h
  | succ n ih => exact ih (keeps_bankWrite h ..) ..

theorem keeps_bankCombine {s0 s : State} (h : Keeps s0 s) (a1 a2 a3) : Keeps s0 (bankCombine s a1 a2 a3) := by
  unfold bankCombine; dsimp only
  with_reducible repeat' first
    | assumption | intro _ | apply Keeps.ite | apply Keeps.foldl | apply keeps_bankRaw | apply keeps_bankPiece

theorem keeps_serveOne {s0 s : State} (h : Keeps s0 s) (a1 a2) : Keeps s0 (serveOne a1 s a2) := by
  unfold serveOne
  with_reducible repeat' first
    | assumption | apply keeps_writeBytes | apply keeps_bankWrite | split

theorem keeps_serveParked {s0 s : State} (h : Keeps s0 s) : Keeps s0 (serveParked s) := by
  unfold serveParked; dsimp only
  with_reducible repeat' first
    | assumption | intro _ | apply Keeps.foldl | apply keeps_serveOne | apply keeps_putMemErr

theorem keeps_meetRuns {s0 s : State} (h : Keeps s0 s) (r) : MayKeep s0 (meetRuns s r) := by
  unfold meetRuns
  dsimp only
  refine .ite .of_none (.ite (.of_some h) (.ite (.of_some ?_) .of_none))
  exact Keeps.foldl (fun _ _ hv => .ite hv (keeps_meetError hv ..)) h

theorem keeps_wakeRuns {s0 s : State} (h : Keeps s0 s) (a1) : Keeps s0 (wakeRuns s a1) := by
  unfold wakeRuns
  with_reducible repeat' first
    | assumption | intro _ | apply Keeps.ite | apply Keeps.foldl | apply keeps_wakeRun

theorem keeps_onceRead {s0 s : State} (h : Keeps s0 s) (a1) {a2 : State → State} (ha2 : ∀ u, Keeps s0 u → Keeps s0 (a2 u)) : Keeps s0 (onceRead s a1 a2) := by
  unfold onceRead; dsimp only
  with_reducible repeat' first
    | assumption | apply keeps_wakeRuns | apply keeps_meetRuns | apply ha2
    | refine MayKeep.some ?_ _ (by assumption) | apply MayKeep.ite | exact MayKeep.of_none
    | exact MayKeep.of_some (by assumption) | split

theorem keeps_meetLevels {s0 s : State} (h : Keeps s0 s) (l) : MayKeep s0 (meetLevels s l) := by
  induction l with
  | nil => exact .of_none
  | cons r l ih =>
    unfold meetLevels
    cases hm : meetRuns s r with
    | some u => exact .of_some ((keeps_meetRuns h r).some _ hm)
    | none => exact ih

theorem keeps_onceLevels {s0 s : State} (h : Keeps s0 s) (a1) {a2 : State → State} (ha2 : ∀ u, Keeps s0 u → Keeps s0 (a2 u)) : Keeps s0 (onceLevels s a1 a2) := by
  unfold onceLevels; dsimp only
  with_reducible repeat' first
    | assumption | apply Keeps.ite | apply keeps_wakeRuns | apply keeps_meetLevels | apply ha2
    | refine MayKeep.some ?_ _ (by assumption) | apply MayKeep.ite | exact MayKeep.of_none
    | exact MayKeep.of_some (by assumption) | split

theorem keeps_atDoorbell {s0 s : State} (h : Keeps s0 s) (a1 a2 a3 a4) {a5 : State → State} (ha5 : ∀ u, Keeps s0 u → Keeps s0 (a5 u)) : Keeps s0 (atDoorbell s a1 a2 a3 a4 a5) := by
  unfold atDoorbell; dsimp only
  with_reducible repeat' first
    | assumption | apply Keeps.ite | apply keeps_putSched | apply keeps_wakeRuns | apply keeps_meetLevels
    | apply ha5 | refine MayKeep.some ?_ _ (by assumption) | apply MayKeep.ite | exact MayKeep.of_none
    | exact MayKeep.of_some (by assumption) | split

theorem keeps_dropDoorbells {s0 s : State} (h : Keeps s0 s) (a1 a2) : Keeps s0 (dropDoorbells s a1 a2) := by
  unfold dropDoorbells
  with_reducible repeat' first
    | assumption | apply keeps_putSched

theorem keeps_onceSettled {s0 s : State} (h : Keeps s0 s) (a1) {a2 : State → State} (ha2 : ∀ u, Keeps s0 u → Keeps s0 (a2 u)) : Keeps s0 (onceSettled s a1 a2) := by
  unfold onceSettled
  with_reducible repeat' first
    | assumption | apply Keeps.ite | apply ha2

theorem keeps_finishInstr {s0 s : State} (h : Keeps s0 s) (a1 a2 a3) : Keeps s0 (finishInstr s a1 a2 a3) := by
  unfold finishInstr
  with_reducible repeat' first
    | assumption | apply Keeps.ite | apply keeps_putTile

theorem keeps_execPageCopyDone {s0 s : State} (h : Keeps s0 s) (a1) : Kept s0 (execPageCopyDone a1 s) := by
  unfold execPageCopyDone; dsimp only
  with_reducible repeat' first
    | assumption | apply Kept.of_next | apply keeps_putMemErr | apply keeps_serveParked | apply keeps_raise
    | apply keeps_addCtr | split

theorem keeps_execUncorrectableError {s0 s : State} (h : Keeps s0 s) (a1 a2) : Kept s0 (execUncorrectableError a1 a2 s) := by
  unfold execUncorrectableError; dsimp only
  with_reducible repeat' first
    | assumption | apply Kept.of_next | apply Kept.ite | apply Keeps.ite | apply keeps_meetError
    | apply keeps_tileFault | split

theorem keeps_execLinkCrcFailure {s0 s : State} (h : Keeps s0 s) (a1) : Kept s0 (execLinkCrcFailure a1 s) := by
  unfold execLinkCrcFailure; dsimp only
  with_reducible repeat' first
    | assumption | apply Kept.of_next | apply keeps_addCtr | apply keeps_putMemErr

theorem keeps_execRetrainDone {s0 s : State} (h : Keeps s0 s) (a1 a2) : Kept s0 (execRetrainDone a1 a2 s) := by
  unfold execRetrainDone; dsimp only
  with_reducible repeat' first
    | assumption | apply Kept.of_next | apply Kept.ite | apply Keeps.ite | apply keeps_putMemErr
    | apply keeps_serveParked | apply keeps_raise

theorem keeps_scrubTick {s0 s : State} (h : Keeps s0 s) (a1) : Keeps s0 (scrubTick s a1) := by
  unfold scrubTick
  with_reducible repeat' first
    | assumption | apply Keeps.ite | apply keeps_putMemErr

theorem keeps_execPatrolScrub {s0 s : State} (h : Keeps s0 s) (a1 a2 a3) : Kept s0 (execPatrolScrub a1 a2 a3 s) := by
  unfold execPatrolScrub; dsimp only
  with_reducible repeat' first
    | assumption | apply Kept.of_next | apply Kept.ite | apply Keeps.ite | apply keeps_wakeDomain
    | apply keeps_putMemErr | apply keeps_addCtr | apply keeps_retireLine | apply keeps_tileCtr | split

end Sys2Proof.Machine
end

