-- ==== Sys2Proof/Laws/KeepsPower.lean ====
section
/-! SUPPORT. Laws/KeepsPower.lean: the functions of Machine/Power.lean keep the invariant and the queue. -/

set_option linter.unusedTactic false
set_option linter.unreachableTactic false

namespace Sys2Proof.Machine

theorem keeps_takeTimers {s0 s : State} (h : Keeps s0 s) (a1) : Keeps s0 (takeTimers s a1) := by
  unfold takeTimers
  with_reducible repeat' first
    | assumption | apply Keeps.ite | apply keeps_takeSettings

theorem keeps_timerTick {s0 s : State} (h : Keeps s0 s) : Keeps s0 (timerTick s) := by
  unfold timerTick; dsimp only
  with_reducible repeat' first
    | assumption | intro _ | apply Keeps.ite | apply Keeps.foldl | apply keeps_putPower | apply keeps_takeTimers

theorem keeps_commitEntry {s0 s : State} (h : Keeps s0 s) (a1 a2) : Keeps s0 (commitEntry s a1 a2) := by
  unfold commitEntry; dsimp only
  with_reducible repeat' first
    | assumption | apply keeps_takeSetting | apply keeps_putPower

theorem keeps_execIdleTimerExpiry {s0 s : State} (h : Keeps s0 s) (a1 a2) : Kept s0 (execIdleTimerExpiry a1 a2 s) := by
  unfold execIdleTimerExpiry; dsimp only
  with_reducible repeat' first
    | assumption | apply Kept.of_next | apply Kept.ite | apply keeps_takeTimers | apply keeps_putPower
    | apply keeps_commitEntry

theorem keeps_retryDomain {s0 s : State} (h : Keeps s0 s) (a1) : Keeps s0 (retryDomain s a1) := by
  unfold retryDomain; dsimp only
  with_reducible repeat' first
    | assumption | apply Keeps.ite | apply keeps_putPower | apply keeps_commitEntry | split

theorem keeps_retryBlocked {s0 s : State} (h : Keeps s0 s) : Keeps s0 (retryBlocked s) := by
  unfold retryBlocked
  with_reducible repeat' first
    | assumption | intro _ | apply Keeps.foldl | apply keeps_retryDomain

theorem keeps_execDomainWake {s0 s : State} (h : Keeps s0 s) (a1) : Kept s0 (execDomainWake a1 s) := by
  unfold execDomainWake
  with_reducible repeat' first
    | assumption | apply Kept.of_next | apply keeps_wakeDomain

theorem keeps_dropBanks {s0 s : State} (h : Keeps s0 s) (a1 a2) : Keeps s0 (dropBanks s a1 a2) := by
  unfold dropBanks
  with_reducible repeat' first
    | assumption | intro _ | apply Keeps.ite | apply Keeps.foldl | apply keeps_zeroRange

theorem keeps_dropLanding {s0 s : State} (h : Keeps s0 s) (a1 a2 a3) : Keeps s0 (dropLanding s a1 a2 a3) := by
  unfold dropLanding
  with_reducible repeat' first
    | assumption | intro _ | apply Keeps.ite | apply Keeps.foldl | apply keeps_zeroRange

theorem keeps_dropErrors {s0 s : State} (h : Keeps s0 s) (a1) : Keeps s0 (dropErrors s a1) := by
  unfold dropErrors; dsimp only
  with_reducible repeat' first
    | assumption | apply keeps_putMemErr

theorem keeps_napLoss {s0 s : State} (h : Keeps s0 s) (a1) : Keeps s0 (napLoss s a1) := by
  unfold napLoss; dsimp only
  with_reducible repeat' first
    | assumption | intro _ | apply Keeps.foldl | apply keeps_dropBanks | apply keeps_putTile
    | apply keeps_dropLanding | split

theorem keeps_fabLoss {s0 s : State} (h : Keeps s0 s) (a1) : Keeps s0 (fabLoss s a1) := by
  unfold fabLoss; dsimp only
  with_reducible repeat' first
    | assumption | apply keeps_putSync | apply keeps_putSched

theorem keeps_ethLoss {s0 s : State} (h : Keeps s0 s) (a1 a2) : Keeps s0 (ethLoss s a1 a2) := by
  unfold ethLoss; dsimp only
  with_reducible repeat' first
    | assumption | apply Keeps.ite | apply keeps_putPorts

theorem keeps_netLoss {s0 s : State} (h : Keeps s0 s) (a1 a2) : Keeps s0 (netLoss s a1 a2) := by
  unfold netLoss; dsimp only
  with_reducible repeat' first
    | assumption | apply Keeps.ite | apply keeps_putLft

theorem keeps_sleepLoss {s0 s : State} (h : Keeps s0 s) (a1) : Keeps s0 (sleepLoss s a1) := by
  unfold sleepLoss; dsimp only
  with_reducible repeat' first
    | assumption | intro _ | apply Keeps.ite | apply Keeps.foldl | apply keeps_dropBanks | apply keeps_putTile
    | apply keeps_discardTile | apply keeps_fabLoss | apply keeps_dropLanding | apply keeps_dropErrors
    | apply keeps_ethLoss | apply keeps_netLoss | split

theorem keeps_completeEntry {s0 s : State} (h : Keeps s0 s) (a1 a2) : Keeps s0 (completeEntry s a1 a2) := by
  unfold completeEntry; dsimp only
  with_reducible repeat' first
    | assumption | apply Keeps.ite | apply keeps_setDom | apply keeps_addCtr | apply keeps_napLoss
    | apply keeps_sleepLoss | apply keeps_putPower

theorem keeps_execStateEntryDone {s0 s : State} (h : Keeps s0 s) (a1) : Kept s0 (execStateEntryDone a1 s) := by
  unfold execStateEntryDone; dsimp only
  with_reducible repeat' first
    | assumption | apply Kept.of_next | apply Kept.ite | apply Keeps.ite | apply keeps_completeEntry
    | apply keeps_wakeDomain | split

theorem keeps_switchDom {s0 s : State} (h : Keeps s0 s) (a1 a2) : Keeps s0 (switchDom s a1 a2) := by
  unfold switchDom
  with_reducible repeat' first
    | assumption | apply keeps_forceDom | apply keeps_completeEntry | split

theorem keeps_execStateExitDone {s0 s : State} (h : Keeps s0 s) (a1) : Kept s0 (execStateExitDone a1 s) := by
  unfold execStateExitDone; dsimp only
  with_reducible repeat' first
    | assumption | apply Kept.of_next | apply Kept.ite | apply keeps_setDom | apply keeps_putPower
    | apply keeps_serveParked | apply keeps_putUnits

theorem keeps_wipe {s0 s : State} (h : Keeps s0 s) : Keeps s0 (wipe s) :=
  ⟨fun hi => let k := h.inv hi; ⟨⟨List.Pairwise.nil, fun _ he => absurd he List.not_mem_nil⟩, k.log, k.ctr⟩, h.queue⟩

theorem keeps_domainsOff {s0 s : State} (h : Keeps s0 s) (a1) : Keeps s0 (domainsOff s a1) := by
  unfold domainsOff
  with_reducible repeat' first
    | assumption | apply Keeps.ite | apply keeps_putPower

theorem keeps_putDev {s0 s : State} (h : Keeps s0 s) (a1) : Keeps s0 (putDev s a1) := by
  unfold putDev
  with_reducible repeat' first
    | assumption | (refine Keeps.upd ?_ ..; assumption)

theorem keeps_beginCold {s0 s : State} (h : Keeps s0 s) (a1) : Keeps s0 (beginCold s a1) := by
  unfold beginCold
  with_reducible repeat' first
    | assumption | apply keeps_putDev | apply keeps_putPower

theorem keeps_stampStep {s0 s : State} (h : Keeps s0 s) (a1) : Keeps s0 (stampStep s a1) := by
  unfold stampStep
  with_reducible repeat' first
    | assumption | apply keeps_putDev

theorem keeps_stepDone {s0 s : State} (h : Keeps s0 s) (a1 a2) : Keeps s0 (stepDone s a1 a2) := by
  unfold stepDone
  with_reducible repeat' first
    | assumption | apply Keeps.ite | apply keeps_stampStep | apply keeps_putDev

theorem keeps_finishFlash {s0 s : State} (h : Keeps s0 s) : Keeps s0 (finishFlash s) := by
  unfold finishFlash
  with_reducible repeat' first
    | assumption | apply Keeps.ite | (refine Keeps.upd ?_ ..; assumption)

theorem keeps_shutDown {s0 s : State} (h : Keeps s0 s) : Keeps s0 (shutDown s) := by
  unfold shutDown; dsimp only
  with_reducible repeat' first
    | assumption | apply keeps_domainsOff | apply keeps_wipe | apply keeps_finishFlash | apply keeps_putPower
    | apply keeps_putDev

theorem keeps_holdupTick {s0 s : State} (h : Keeps s0 s) : Keeps s0 (holdupTick s) := by
  unfold holdupTick; dsimp only
  with_reducible repeat' first
    | assumption | apply Keeps.ite | apply keeps_putPower

theorem keeps_setStage {s0 s : State} (h : Keeps s0 s) (a1) : Keeps s0 (setStage s a1) := by
  unfold setStage; dsimp only
  with_reducible repeat' first
    | assumption | apply Keeps.ite | apply keeps_putPower | apply keeps_raise | apply keeps_addCtr

theorem keeps_inputBands {s0 s : State} (h : Keeps s0 s) (a1) : Keeps s0 (inputBands s a1) := by
  unfold inputBands; dsimp only
  with_reducible repeat' first
    | assumption | apply Keeps.ite | apply keeps_putPower | apply keeps_raise

theorem keeps_execInputSample {s0 s : State} (h : Keeps s0 s) (a1 a2) : Kept s0 (execInputSample a1 a2 s) := by
  unfold execInputSample; dsimp only
  with_reducible repeat' first
    | assumption | apply Kept.of_next | apply Kept.ite | apply Keeps.ite | apply keeps_putPower
    | apply keeps_putDev | apply keeps_beginCold | apply keeps_inputBands | apply keeps_setStage

theorem keeps_execInputFault {s0 s : State} (h : Keeps s0 s) : Kept s0 (execInputFault s) := by
  unfold execInputFault; dsimp only
  with_reducible repeat' first
    | assumption | apply Kept.of_next | apply Kept.ite | apply Keeps.ite | apply keeps_raise
    | apply keeps_addCtr | apply keeps_shutDown | apply keeps_putPower

theorem keeps_execKennelSaveDone {s0 s : State} (h : Keeps s0 s) : Kept s0 (execKennelSaveDone s) := by
  unfold execKennelSaveDone; dsimp only
  with_reducible repeat' first
    | assumption | apply Kept.of_next | apply Kept.ite | apply Keeps.ite | apply keeps_domainsOff
    | apply keeps_putDev | apply keeps_putDap | apply keeps_beginCold

theorem keeps_execPowerEvaluation {s0 s : State} (h : Keeps s0 s) (a1) : Kept s0 (execPowerEvaluation a1 s) := by
  unfold execPowerEvaluation; dsimp only
  with_reducible repeat' first
    | assumption | apply Kept.of_next | apply Kept.ite | apply Keeps.ite | apply keeps_putPower
    | apply keeps_setStage | apply keeps_raise

theorem keeps_setLevel {s0 s : State} (h : Keeps s0 s) (a1 a2 a3) : Keeps s0 (setLevel s a1 a2 a3) := by
  unfold setLevel; dsimp only
  with_reducible repeat' first
    | assumption | apply Keeps.ite | apply keeps_putPower | apply keeps_raise | apply keeps_addCtr

theorem keeps_execThermalReport {s0 s : State} (h : Keeps s0 s) (a1 a2) : Kept s0 (execThermalReport a1 a2 s) := by
  unfold execThermalReport; dsimp only
  with_reducible repeat' first
    | assumption | apply Kept.of_next | apply Kept.ite | apply Keeps.ite | apply keeps_putPower
    | apply keeps_setLevel | split

theorem keeps_execCoolantSample {s0 s : State} (h : Keeps s0 s) (a1 a2) : Kept s0 (execCoolantSample a1 a2 s) := by
  unfold execCoolantSample; dsimp only
  with_reducible repeat' first
    | assumption | apply Kept.of_next | apply Kept.ite | apply Keeps.ite | apply keeps_putPower
    | apply keeps_raise

theorem keeps_execThermalCritical {s0 s : State} (h : Keeps s0 s) (a1 a2) : Kept s0 (execThermalCritical a1 a2 s) := by
  unfold execThermalCritical; dsimp only
  with_reducible repeat' first
    | assumption | apply Kept.of_next | apply Kept.ite | apply Keeps.ite | apply keeps_raise
    | apply keeps_domainsOff | apply keeps_wipe | apply keeps_putDev

theorem keeps_execHoldupCharged {s0 s : State} (h : Keeps s0 s) : Kept s0 (execHoldupCharged s) := by
  unfold execHoldupCharged; dsimp only
  with_reducible repeat' first
    | assumption | apply Kept.of_next | apply Kept.ite | apply Keeps.ite | apply keeps_putPower
    | apply keeps_addCtr | apply keeps_putSettings

end Sys2Proof.Machine
end

