-- ==== Sys2Proof/Laws/KeepsSync.lean ====
section
/-! SUPPORT. Laws/KeepsSync.lean: the functions of Machine/Sync.lean keep the invariant and the queue. -/

set_option linter.unusedTactic false
set_option linter.unreachableTactic false

namespace Sys2Proof.Machine

theorem keeps_hubCtr {s0 s : State} (h : Keeps s0 s) (a1 a2 a3) : Keeps s0 (hubCtr s a1 a2 a3) := by
  unfold hubCtr
  with_reducible repeat' first
    | assumption | apply keeps_addCtr

theorem keeps_staleDrop {s0 s : State} (h : Keeps s0 s) (a1 a2 a3) : Keeps s0 (staleDrop s a1 a2 a3) := by
  unfold staleDrop; dsimp only
  with_reducible repeat' first
    | assumption | apply Keeps.ite | apply keeps_addCtr | apply keeps_putUnits | apply keeps_raise | split

theorem keeps_sendWhistle {s0 s : State} (h : Keeps s0 s) (a1 a2 a3) : Keeps s0 (sendWhistle s a1 a2 a3) := by
  unfold sendWhistle; dsimp only
  with_reducible repeat' first
    | assumption | apply keeps_hubCtr | apply keeps_putSync

theorem keeps_fireWatches {s0 s : State} (h : Keeps s0 s) (a1) : Keeps s0 (fireWatches s a1) := by
  unfold fireWatches; dsimp only
  with_reducible repeat' first
    | assumption | intro _ | apply Keeps.foldl | apply keeps_putSync | apply keeps_sendWhistle

theorem keeps_applyOp {s0 s : State} (h : Keeps s0 s) (a1 a2 a3 a4 a5) : Keeps s0 (applyOp s a1 a2 a3 a4 a5) := by
  unfold applyOp; dsimp only
  with_reducible repeat' first
    | assumption | apply Keeps.ite | apply keeps_putCounter | apply keeps_raise | apply keeps_fireWatches
    | apply keeps_hubCtr | split

theorem keeps_hubApply {s0 s : State} (h : Keeps s0 s) (a1) : Keeps s0 (hubApply s a1) := by
  unfold hubApply
  with_reducible repeat' first
    | assumption | apply Keeps.ite | apply keeps_staleDrop | apply keeps_applyOp | apply keeps_hubCtr

theorem keeps_sendSignal {s0 s : State} (h : Keeps s0 s) (a1) : Keeps s0 (sendSignal s a1) := by
  unfold sendSignal
  with_reducible repeat' first
    | assumption | apply Keeps.ite | apply keeps_putSync

theorem keeps_signalOne {s0 s : State} (h : Keeps s0 s) (a1 a2 a3) : Keeps s0 (signalOne s a1 a2 a3) := by
  unfold signalOne
  with_reducible repeat' first
    | assumption | apply keeps_sendSignal

theorem keeps_onceAtHub {s0 s : State} (h : Keeps s0 s) (a1) {a2 : State → State} (ha2 : ∀ u, Keeps s0 u → Keeps s0 (a2 u)) : Keeps s0 (onceAtHub s a1 a2) := by
  unfold onceAtHub
  with_reducible repeat' first
    | assumption | intro _ | apply keeps_onceActive | apply ha2

theorem keeps_execHubSignalApply {s0 s : State} (h : Keeps s0 s) (a1) : Kept s0 (execHubSignalApply a1 s) := by
  unfold execHubSignalApply
  with_reducible repeat' first
    | assumption | apply Kept.of_next | intro _ | apply Kept.ite | apply Keeps.ite | apply keeps_onceSettled
    | apply keeps_onceAtHub | apply keeps_hubApply | apply keeps_putSync | split

theorem keeps_putFlow {s0 s : State} (h : Keeps s0 s) (a1 a2 a3) : Keeps s0 (putFlow s a1 a2 a3) := by
  unfold putFlow
  with_reducible repeat' first
    | assumption | apply keeps_putLft

theorem keeps_settleSeq {s0 s : State} (h : Keeps s0 s) (a1 a2 a3) : Keeps s0 (settleSeq s a1 a2 a3) := by
  unfold settleSeq; dsimp only
  with_reducible repeat' first
    | assumption | apply keeps_putFlow

theorem keeps_seenSeq {s0 s : State} (h : Keeps s0 s) (a1 a2 a3) : Keeps s0 (seenSeq s a1 a2 a3) := by
  unfold seenSeq; dsimp only
  with_reducible repeat' first
    | assumption | apply keeps_putFlow

theorem keeps_applyRemote {s0 s : State} (h : Keeps s0 s) (a1) : Keeps s0 (applyRemote s a1) := by
  unfold applyRemote; dsimp only
  with_reducible repeat' first
    | assumption | apply Keeps.ite | apply keeps_applyOp | apply keeps_raise | apply keeps_hubCtr
    | apply keeps_settleSeq

theorem keeps_holdSignal {s0 s : State} (h : Keeps s0 s) (a1) : Keeps s0 (holdSignal s a1) := by
  unfold holdSignal
  with_reducible repeat' first
    | assumption | apply Keeps.ite | apply keeps_putSync | apply keeps_hubCtr

theorem keeps_admitKept {s0 s : State} (h : Keeps s0 s) : Keeps s0 (admitKept s) := by
  unfold admitKept
  with_reducible repeat' first
    | assumption | intro _ | apply Keeps.foldl | apply keeps_holdSignal | apply keeps_putSync

theorem keeps_execHeldSignalApply {s0 s : State} (h : Keeps s0 s) (a1) : Kept s0 (execHeldSignalApply a1 s) := by
  unfold execHeldSignalApply
  with_reducible repeat' first
    | assumption | apply Kept.of_next | intro _ | apply Kept.ite | apply Keeps.ite | apply keeps_onceAtHub
    | apply keeps_admitKept | apply keeps_applyRemote | apply keeps_putSync | split

theorem keeps_fromCore {s0 s : State} (h : Keeps s0 s) (a1) {a2 : State → State} (ha2 : ∀ u, Keeps s0 u → Keeps s0 (a2 u)) : Keeps s0 (fromCore s a1 a2) := by
  unfold fromCore
  with_reducible repeat' first
    | assumption | apply Keeps.ite | apply keeps_staleDrop | apply ha2

theorem keeps_counterStore {s0 s : State} (h : Keeps s0 s) (a1 a2 a3 a4) : Keeps s0 (counterStore s a1 a2 a3 a4) := by
  unfold counterStore; dsimp only
  with_reducible repeat' first
    | assumption | apply Keeps.ite | apply keeps_staleDrop | apply keeps_hubCtr | apply keeps_applyOp | split

theorem keeps_coreSignal {s0 s : State} (h : Keeps s0 s) (a1 a2 a3 a4) : Keeps s0 (coreSignal s a1 a2 a3 a4) := by
  unfold coreSignal
  with_reducible repeat' first
    | assumption | intro _ | apply Keeps.ite | apply keeps_onceAtHub | apply keeps_counterStore

theorem keeps_execCounterAdd {s0 s : State} (h : Keeps s0 s) (a1 a2 a3) : Kept s0 (execCounterAdd a1 a2 a3 s) := by
  unfold execCounterAdd
  with_reducible repeat' first
    | assumption | apply Kept.of_next | apply keeps_coreSignal

theorem keeps_execCounterMax {s0 s : State} (h : Keeps s0 s) (a1 a2 a3) : Kept s0 (execCounterMax a1 a2 a3 s) := by
  unfold execCounterMax
  with_reducible repeat' first
    | assumption | apply Kept.of_next | apply keeps_coreSignal

theorem keeps_execCounterInit {s0 s : State} (h : Keeps s0 s) (a1 a2 a3) : Kept s0 (execCounterInit a1 a2 a3 s) := by
  unfold execCounterInit
  with_reducible repeat' first
    | assumption | apply Kept.of_next | apply keeps_coreSignal

theorem keeps_requestWatch {s0 s : State} (h : Keeps s0 s) (a1 a2 a3 a4 a5 a6) : Keeps s0 (requestWatch s a1 a2 a3 a4 a5 a6) := by
  unfold requestWatch
  with_reducible repeat' first
    | assumption | apply Keeps.ite | apply keeps_putSync

theorem keeps_watchAdmitted {s0 s : State} (h : Keeps s0 s) (a1) : Keeps s0 (watchAdmitted s a1) := by
  unfold watchAdmitted; dsimp only
  with_reducible repeat' first
    | assumption | apply keeps_putTile | split

theorem keeps_admitWatch {s0 s : State} (h : Keeps s0 s) (a1) : Keeps s0 (admitWatch s a1) := by
  unfold admitWatch; dsimp only
  with_reducible repeat' first
    | assumption | apply Keeps.ite | apply keeps_watchAdmitted | apply keeps_sendWhistle | apply keeps_putSync
    | apply keeps_setCtr

theorem keeps_registerWatch {s0 s : State} (h : Keeps s0 s) (a1) : Keeps s0 (registerWatch s a1) := by
  unfold registerWatch; dsimp only
  with_reducible repeat' first
    | assumption | apply Keeps.ite | apply keeps_sendWhistle | apply keeps_hubCtr | apply keeps_watchAdmitted
    | apply keeps_admitWatch | apply keeps_putSync

theorem keeps_execWatchRegister {s0 s : State} (h : Keeps s0 s) (a1) : Kept s0 (execWatchRegister a1 s) := by
  unfold execWatchRegister; dsimp only
  with_reducible repeat' first
    | assumption | apply Kept.of_next | intro _ | apply Kept.ite | apply Keeps.ite | apply keeps_onceAtHub
    | apply keeps_putSync | apply keeps_staleDrop | apply keeps_registerWatch | split

theorem keeps_execWatchSlotFreed {s0 s : State} (h : Keeps s0 s) (a1) : Kept s0 (execWatchSlotFreed a1 s) := by
  unfold execWatchSlotFreed
  with_reducible repeat' first
    | assumption | apply Kept.of_next | apply Kept.ite | apply keeps_admitWatch | apply keeps_putSync | split

theorem keeps_execWatchTimeout {s0 s : State} (h : Keeps s0 s) (a1 a2) : Kept s0 (execWatchTimeout a1 a2 s) := by
  unfold execWatchTimeout; dsimp only
  with_reducible repeat' first
    | assumption | apply Kept.of_next | apply Kept.ite | apply Keeps.ite | apply keeps_wakeDomain
    | apply keeps_putSync | apply keeps_sendWhistle | apply keeps_hubCtr | apply keeps_watchAdmitted | split

theorem keeps_finishWait {s0 s : State} (h : Keeps s0 s) (a1 a2 a3 a4 a5) : Keeps s0 (finishWait s a1 a2 a3 a4 a5) := by
  unfold finishWait; dsimp only
  with_reducible repeat' first
    | assumption | apply Keeps.ite | apply keeps_putTile | apply keeps_tileFault | apply keeps_completeAt

theorem keeps_deliverReg {s0 s : State} (h : Keeps s0 s) (a1 a2 a3 a4 a5 a6) : Keeps s0 (deliverReg s a1 a2 a3 a4 a5 a6) := by
  unfold deliverReg; dsimp only
  with_reducible repeat' first
    | assumption | apply keeps_finishWait | apply keeps_putTile | split

theorem keeps_deliverTie {s0 s : State} (h : Keeps s0 s) (a1 a2) : Keeps s0 (deliverTie s a1 a2) := by
  unfold deliverTie; dsimp only
  with_reducible repeat' first
    | assumption | apply Keeps.ite | apply keeps_tileFault | apply keeps_putTile | split

theorem keeps_deliverItem {s0 s : State} (h : Keeps s0 s) (a1 a2 a3 a4) : Keeps s0 (deliverItem s a1 a2 a3 a4) := by
  unfold deliverItem
  with_reducible repeat' first
    | assumption | apply Keeps.ite | apply keeps_putSched

theorem keeps_deliver {s0 s : State} (h : Keeps s0 s) (a1) : Keeps s0 (deliver s a1) := by
  unfold deliver; dsimp only
  with_reducible repeat' first
    | assumption | apply keeps_traceRecord | apply keeps_deliverReg | apply keeps_deliverTie
    | apply keeps_deliverItem | apply keeps_putSync | split

theorem keeps_wakeWaiter {s0 s : State} (h : Keeps s0 s) (a1) : Keeps s0 (wakeWaiter s a1) := by
  unfold wakeWaiter
  with_reducible repeat' first
    | assumption | apply keeps_wakeDomain | split

theorem keeps_execWhistleArrival {s0 s : State} (h : Keeps s0 s) (a1) : Kept s0 (execWhistleArrival a1 s) := by
  unfold execWhistleArrival; dsimp only
  with_reducible repeat' first
    | assumption | apply Kept.of_next | apply Kept.ite | apply Keeps.ite | apply keeps_wakeDomain
    | apply keeps_putSync | apply keeps_staleDrop | apply keeps_deliver | apply keeps_wakeWaiter | split

theorem keeps_cancelWatches {s0 s : State} (h : Keeps s0 s) (a1) : Keeps s0 (cancelWatches s a1) := by
  unfold cancelWatches; dsimp only
  with_reducible repeat' first
    | assumption | apply keeps_putSync

theorem keeps_orphanCounter {s0 s : State} (h : Keeps s0 s) (a1) : Keeps s0 (orphanCounter s a1) := by
  unfold orphanCounter; dsimp only
  with_reducible repeat' first
    | assumption | intro _ | apply Keeps.ite | apply Keeps.foldl | apply keeps_putCounter | apply keeps_putSync
    | apply keeps_sendWhistle | apply keeps_hubCtr | apply keeps_watchAdmitted | apply keeps_raise

theorem keeps_orphanAll {s0 s : State} (h : Keeps s0 s) (a1) : Keeps s0 (orphanAll s a1) := by
  unfold orphanAll
  with_reducible repeat' first
    | assumption | intro _ | apply Keeps.foldl | apply keeps_orphanCounter | apply keeps_cancelWatches

theorem keeps_freshCounter {s0 s : State} (h : Keeps s0 s) (a1 a2 a3) : Keeps s0 (freshCounter s a1 a2 a3) := by
  unfold freshCounter
  with_reducible repeat' first
    | assumption | apply keeps_putCounter

theorem keeps_ownCounter {s0 s : State} (h : Keeps s0 s) (a1 a2) : Keeps s0 (ownCounter a1 s a2) := by
  unfold ownCounter
  with_reducible repeat' first
    | assumption | apply keeps_freshCounter

theorem keeps_releaseCounter {s0 s : State} (h : Keeps s0 s) (a1) : Keeps s0 (releaseCounter s a1) := by
  unfold releaseCounter
  with_reducible repeat' first
    | assumption | apply keeps_freshCounter

theorem keeps_addBias {s0 s : State} (h : Keeps s0 s) (a1) : Keeps s0 (addBias s a1) := by
  unfold addBias; dsimp only
  with_reducible repeat' first
    | assumption | apply keeps_putCounter

theorem keeps_clearSum {s0 s : State} (h : Keeps s0 s) (a1 a2) : Keeps s0 (clearSum a1 s a2) := by
  unfold clearSum; dsimp only
  with_reducible repeat' first
    | assumption | apply Keeps.ite | apply keeps_putCounter

theorem keeps_execSyncSelect {s0 s : State} (h : Keeps s0 s) (a1) : Kept s0 (execSyncSelect a1 s) := by
  unfold execSyncSelect
  with_reducible repeat' first
    | assumption | apply Kept.of_next | apply Kept.ite | apply Keeps.ite | apply keeps_putSync

theorem keeps_emitSignal {s0 s : State} (h : Keeps s0 s) (a1 a2 a3) : Keeps s0 (emitSignal s a1 a2 a3) := by
  unfold emitSignal; dsimp only
  with_reducible repeat' first
    | assumption | apply keeps_sendSignal

theorem keeps_startSignal {s0 s : State} (h : Keeps s0 s) (a1 a2 a3) : StartKept s0 (startSignal s a1 a2 a3) := by
  unfold startSignal; dsimp only
  with_reducible repeat' first
    | assumption | apply StartKept.of_done | apply StartKept.of_going | apply StartKept.of_fault
    | apply StartKept.ite | apply Keeps.ite | apply keeps_emitSignal

theorem keeps_armRegister {s0 s : State} (h : Keeps s0 s) (a1 a2 a3) : Keeps s0 (armRegister s a1 a2 a3) := by
  unfold armRegister; dsimp only
  with_reducible repeat' first
    | assumption | apply keeps_putTile | apply keeps_requestWatch

theorem keeps_startWatch {s0 s : State} (h : Keeps s0 s) (a1 a2 a3) : StartKept s0 (startWatch s a1 a2 a3) := by
  unfold startWatch
  with_reducible repeat' first
    | assumption | apply StartKept.of_done | apply StartKept.of_going | apply StartKept.of_fault
    | apply StartKept.ite | apply Keeps.ite | apply keeps_armRegister | split

theorem keeps_startWait {s0 s : State} (h : Keeps s0 s) (a1 a2 a3) : StartKept s0 (startWait s a1 a2 a3) := by
  unfold startWait; dsimp only
  with_reducible repeat' first
    | assumption | apply StartKept.of_done | apply StartKept.of_going | apply StartKept.of_fault
    | apply StartKept.ite | apply Keeps.ite | apply keeps_armRegister | apply keeps_putTile | split

end Sys2Proof.Machine
end

