-- ==== Sys2Proof/Laws/KeepsSched.lean ====
section
/-! SUPPORT. Laws/KeepsSched.lean: the functions of Machine/Sched.lean keep the invariant and the queue. -/

set_option linter.unusedTactic false
set_option linter.unreachableTactic false

namespace Sys2Proof.Machine

theorem keeps_refuseItem {s0 s : State} (h : Keeps s0 s) (a1 a2 a3 a4) : Keeps s0 (refuseItem s a1 a2 a3 a4) := by
  unfold refuseItem
  with_reducible repeat' first
    | assumption | apply keeps_raise | apply keeps_addCtr

theorem keeps_takeSlot {s0 s : State} (h : Keeps s0 s) (a1 a2 a3) : Keeps s0 (takeSlot s a1 a2 a3) := by
  unfold takeSlot; dsimp only
  with_reducible repeat' first
    | assumption | apply Keeps.ite | apply keeps_addCtr | apply keeps_putSched | apply keeps_requestWatch

theorem keeps_enqueue {s0 s : State} (h : Keeps s0 s) (a1 a2 a3 a4 a5) : Keeps s0 (enqueue s a1 a2 a3 a4 a5).1 := by
  unfold enqueue; dsimp only
  with_reducible repeat' first
    | assumption | apply Keeps.ite | apply Keeps.ite_fst | apply keeps_wakeDomain | apply keeps_refuseItem
    | apply keeps_takeSlot | apply keeps_putSched | apply keeps_addCtr | split | dsimp only

theorem keeps_releaseWriter {s0 s : State} (h : Keeps s0 s) (a1 a2) : Keeps s0 (releaseWriter s a1 a2) := by
  unfold releaseWriter; dsimp only
  with_reducible repeat' first
    | assumption | apply keeps_putTile | apply keeps_settleSeq | apply keeps_seenSeq | split

theorem keeps_coreEnqueue {s0 s : State} (h : Keeps s0 s) (a1 a2 a3 a4) : Keeps s0 (coreEnqueue s a1 a2 a3 a4) := by
  unfold coreEnqueue
  with_reducible repeat' first
    | assumption | intro _ | apply keeps_fromCore | apply keeps_enqueue | split

theorem keeps_execEnqueue {s0 s : State} (h : Keeps s0 s) (a1 a2 a3 a4) : Kept s0 (execEnqueue a1 a2 a3 a4 s) := by
  unfold execEnqueue
  with_reducible repeat' first
    | assumption | apply Kept.of_next | apply Kept.ite | apply Keeps.ite | apply keeps_coreEnqueue

theorem keeps_execEnqueueSlotFreed {s0 s : State} (h : Keeps s0 s) (a1) : Kept s0 (execEnqueueSlotFreed a1 s) := by
  unfold execEnqueueSlotFreed; dsimp only
  with_reducible repeat' first
    | assumption | apply Kept.of_next | apply Kept.ite | apply keeps_putSched | apply keeps_staleDrop
    | apply keeps_releaseWriter | apply keeps_takeSlot | split

theorem keeps_startItem {s0 s : State} (h : Keeps s0 s) (a1 a2) : Keeps s0 (startItem s a1 a2) := by
  unfold startItem; dsimp only
  with_reducible repeat' first
    | assumption | apply Keeps.ite | apply keeps_takeSetting | apply keeps_putSched | apply keeps_addCtr
    | apply keeps_setCtr | apply keeps_traceRecord

theorem keeps_dispatchItem {s0 s : State} (h : Keeps s0 s) (a1) : Keeps s0 (dispatchItem s a1) := by
  unfold dispatchItem
  with_reducible repeat' first
    | assumption | apply Keeps.ite | apply keeps_startItem | split

theorem keeps_execItemDispatch {s0 s : State} (h : Keeps s0 s) (a1) : Kept s0 (execItemDispatch a1 s) := by
  unfold execItemDispatch
  with_reducible repeat' first
    | assumption | apply Kept.of_next | apply keeps_dispatchItem

theorem keeps_freeCore {s0 s : State} (h : Keeps s0 s) (a1 a2) : Keeps s0 (freeCore s a1 a2) := by
  unfold freeCore; dsimp only
  with_reducible repeat' first
    | assumption | apply Keeps.ite | apply keeps_putSched | apply keeps_addCtr | apply keeps_setCtr

theorem keeps_itemReturns {s0 s : State} (h : Keeps s0 s) (a1 a2) : Keeps s0 (itemReturns s a1 a2) := by
  unfold itemReturns; dsimp only
  with_reducible repeat' first
    | assumption | intro _ | apply Keeps.ite | apply keeps_fromCore | apply keeps_freeCore | apply keeps_raise
    | apply keeps_addCtr | apply keeps_signalOne | split

theorem keeps_itemFaults {s0 s : State} (h : Keeps s0 s) (a1 a2 a3) : Keeps s0 (itemFaults s a1 a2 a3) := by
  unfold itemFaults; dsimp only
  with_reducible repeat' first
    | assumption | apply keeps_freeCore | apply keeps_addCause | apply keeps_raise | split

theorem keeps_execItemReturn {s0 s : State} (h : Keeps s0 s) (a1 a2) : Kept s0 (execItemReturn a1 a2 s) := by
  unfold execItemReturn
  with_reducible repeat' first
    | assumption | apply Kept.of_next | apply Kept.ite | apply Keeps.ite | apply keeps_itemReturns

theorem keeps_execItemFault {s0 s : State} (h : Keeps s0 s) (a1 a2 a3) : Kept s0 (execItemFault a1 a2 a3 s) := by
  unfold execItemFault
  with_reducible repeat' first
    | assumption | apply Kept.of_next | apply Kept.ite | apply Keeps.ite | apply keeps_itemFaults

theorem keeps_byCore {s0 s : State} (h : Keeps s0 s) (a1 a2) {a3 : State → State} (ha3 : ∀ u, Keeps s0 u → Keeps s0 (a3 u)) : Keeps s0 (byCore s a1 a2 a3) := by
  unfold byCore
  with_reducible repeat' first
    | assumption | intro _ | apply Keeps.ite | apply keeps_fromCore | apply keeps_itemFaults | apply ha3

theorem keeps_execItemOverrun {s0 s : State} (h : Keeps s0 s) (a1) : Kept s0 (execItemOverrun a1 s) := by
  unfold execItemOverrun; dsimp only
  with_reducible repeat' first
    | assumption | apply Kept.of_next | apply keeps_freeCore | apply keeps_putSched | apply keeps_addCause
    | apply keeps_raise | split

theorem keeps_execAgingEvaluation {s0 s : State} (h : Keeps s0 s) (a1) : Kept s0 (execAgingEvaluation a1 s) := by
  unfold execAgingEvaluation; dsimp only
  with_reducible repeat' first
    | assumption | apply Kept.of_next | apply Kept.ite | apply Keeps.ite | apply keeps_takeSetting
    | apply keeps_addCtr | apply keeps_putSched

theorem keeps_cancelItems {s0 s : State} (h : Keeps s0 s) (a1) : Keeps s0 (cancelItems s a1) := by
  unfold cancelItems; dsimp only
  with_reducible repeat' first
    | assumption | intro _ | apply Keeps.ite | apply Keeps.foldl | apply keeps_freeCore | apply keeps_addCtr
    | apply keeps_putSched | apply keeps_releaseWriter | apply keeps_refuseItem

theorem keeps_resumeItems {s0 s : State} (h : Keeps s0 s) (a1 a2) : Keeps s0 (resumeItems s a1 a2) := by
  unfold resumeItems
  with_reducible repeat' first
    | assumption | apply Keeps.ite | apply keeps_putSched

end Sys2Proof.Machine
end

