-- ==== Sys2Proof/Laws/KeepsHound.lean ====
section
/-! SUPPORT. Laws/KeepsHound.lean: the functions of Machine/Hound.lean keep the invariant and the queue. -/

set_option linter.unusedTactic false
set_option linter.unreachableTactic false

namespace Sys2Proof.Machine

theorem keeps_houndCtr {s0 s : State} (h : Keeps s0 s) (a1 a2 a3) : Keeps s0 (houndCtr s a1 a2 a3) := by
  unfold houndCtr
  with_reducible repeat' first
    | assumption | apply keeps_addCtr

theorem keeps_putTrails {s0 s : State} (h : Keeps s0 s) (a1) : Keeps s0 (putTrails s a1) := by
  unfold putTrails
  with_reducible repeat' first
    | assumption | (refine Keeps.upd ?_ ..; assumption)

theorem keeps_putTrailSlots {s0 s : State} (h : Keeps s0 s) (a1) : Keeps s0 (putTrailSlots s a1) := by
  unfold putTrailSlots
  with_reducible repeat' first
    | assumption | (refine Keeps.upd ?_ ..; assumption)

theorem keeps_freeTrailSlots {s0 s : State} (h : Keeps s0 s) (a1 a2) : Keeps s0 (freeTrailSlots s a1 a2) := by
  unfold freeTrailSlots
  with_reducible repeat' first
    | assumption | apply keeps_putTrailSlots

theorem keeps_beginTrail {s0 s : State} (h : Keeps s0 s) (a1) : Keeps s0 (beginTrail s a1) := by
  unfold beginTrail; dsimp only
  with_reducible repeat' first
    | assumption | apply Keeps.ite | apply keeps_putTrailSlots | apply keeps_takeSetting | apply keeps_writeNat
    | apply keeps_putTrails | split

theorem keeps_houndStore {s0 s : State} (h : Keeps s0 s) (a1 a2) : Keeps s0 (houndStore a1 a2 s) := by
  unfold houndStore; dsimp only
  with_reducible repeat' first
    | assumption | intro _ | apply keeps_atDoorbell | apply keeps_raise | apply keeps_houndCtr
    | apply keeps_beginTrail | apply keeps_putTrails | apply keeps_wakeMem | split

theorem keeps_execHoundDoorbell {s0 s : State} (h : Keeps s0 s) (a1 a2) : Kept s0 (execHoundDoorbell a1 a2 s) := by
  unfold execHoundDoorbell
  with_reducible repeat' first
    | assumption | apply Kept.of_next | intro _ | apply keeps_byCore | apply keeps_houndStore

theorem keeps_writeNodes {s0 s : State} (h : Keeps s0 s) (a1 a2 a3) : Keeps s0 (writeNodes s a1 a2 a3) := by
  unfold writeNodes
  with_reducible repeat' first
    | assumption | apply keeps_writeBytes

theorem keeps_fillDedup {s0 s : State} (h : Keeps s0 s) (a1 a2) : Keeps s0 (fillDedup s a1 a2) := by
  unfold fillDedup
  with_reducible repeat' first
    | assumption | intro _ | apply Keeps.foldl | apply keeps_freeFill

theorem keeps_putTrail {s0 s : State} (h : Keeps s0 s) (a1) : Keeps s0 (putTrail s a1) := by
  unfold putTrail
  with_reducible repeat' first
    | assumption | apply Keeps.ite | apply keeps_putTrails

theorem keeps_raiseFull {s0 s : State} (h : Keeps s0 s) (a1 a2) : Keeps s0 (raiseFull s a1 a2).1 := by
  unfold raiseFull; dsimp only
  with_reducible repeat' first
    | assumption | apply Keeps.ite | apply Keeps.ite_fst | apply keeps_houndCtr | apply keeps_raise | split
    | dsimp only

theorem keeps_closeSeeds {s0 s : State} (h : Keeps s0 s) (a1) : Keeps s0 (closeSeeds s a1) := by
  unfold closeSeeds; dsimp only
  with_reducible repeat' first
    | assumption | apply keeps_freshFree | apply keeps_raiseFull | apply keeps_writeBytes | apply keeps_putTrail
    | apply keeps_fillDedup | apply keeps_writeNodes

theorem keeps_closeHop {s0 s : State} (h : Keeps s0 s) (a1 a2) : Keeps s0 (closeHop s a1 a2) := by
  unfold closeHop; dsimp only
  with_reducible repeat' first
    | assumption | apply Keeps.ite | apply keeps_freshFree | apply keeps_raiseFull | apply keeps_houndCtr
    | apply keeps_raise | apply keeps_writeBytes | apply keeps_putTrail | apply keeps_fillDedup
    | apply keeps_writeNodes | split

theorem keeps_execHopClose {s0 s : State} (h : Keeps s0 s) (a1) : Kept s0 (execHopClose a1 s) := by
  unfold execHopClose; dsimp only
  with_reducible repeat' first
    | assumption | apply Kept.of_next | intro _ | apply Kept.ite | apply Keeps.ite | apply keeps_onceLevels
    | apply keeps_closeSeeds | apply keeps_closeHop | apply keeps_signalOne | split

theorem keeps_execTrailComplete {s0 s : State} (h : Keeps s0 s) (a1) : Kept s0 (execTrailComplete a1 s) := by
  unfold execTrailComplete; dsimp only
  with_reducible repeat' first
    | assumption | apply Kept.of_next | intro _ | apply Kept.ite | apply Keeps.ite | apply keeps_onceSettled
    | apply keeps_writeNat | apply keeps_houndCtr | apply keeps_signalOne | apply keeps_fillDedup
    | apply keeps_beginTrail | apply keeps_putTrails | split

theorem keeps_houndAbandon {s0 s : State} (h : Keeps s0 s) (a1) : Keeps s0 (houndAbandon s a1) := by
  unfold houndAbandon; dsimp only
  with_reducible repeat' first
    | assumption | intro _ | apply Keeps.ite | apply Keeps.foldl | apply keeps_houndCtr | apply keeps_fillDedup
    | apply keeps_freeFill | apply keeps_putTrails | apply keeps_dropDoorbells

end Sys2Proof.Machine
end

