-- ==== Sys2Proof/Laws/KeepsLft.lean ====
section
/-! SUPPORT. Laws/KeepsLft.lean: the functions of Machine/Lft.lean keep the invariant and the queue. -/

set_option linter.unusedTactic false
set_option linter.unreachableTactic false

namespace Sys2Proof.Machine

theorem keeps_putPeer {s0 s : State} (h : Keeps s0 s) (a1 a2) : Keeps s0 (putPeer s a1 a2) := by
  unfold putPeer
  with_reducible repeat' first
    | assumption | apply keeps_putLft

theorem keeps_setPeerState {s0 s : State} (h : Keeps s0 s) (a1 a2) : Keeps s0 (setPeerState s a1 a2) := by
  unfold setPeerState; dsimp only
  with_reducible repeat' first
    | assumption | apply keeps_putPeer

theorem keeps_lftCtr {s0 s : State} (h : Keeps s0 s) (a1 a2) : Keeps s0 (lftCtr s a1 a2) := by
  unfold lftCtr
  with_reducible repeat' first
    | assumption | apply keeps_addCtr

theorem keeps_emitPkt {s0 s : State} (h : Keeps s0 s) (a1) : Keeps s0 (emitPkt s a1) := by
  unfold emitPkt
  with_reducible repeat' first
    | assumption | apply keeps_putLft | apply keeps_lftCtr

theorem keeps_emitCtl {s0 s : State} (h : Keeps s0 s) (a1 a2 a3) : Keeps s0 (emitCtl s a1 a2 a3) := by
  unfold emitCtl
  with_reducible repeat' first
    | assumption | apply keeps_emitPkt | split

theorem keeps_sendHello {s0 s : State} (h : Keeps s0 s) (a1 a2) : Keeps s0 (sendHello s a1 a2) := by
  unfold sendHello
  with_reducible repeat' first
    | assumption | apply keeps_emitPkt

theorem keeps_sendAck {s0 s : State} (h : Keeps s0 s) (a1 a2) : Keeps s0 (sendAck s a1 a2) := by
  unfold sendAck; dsimp only
  with_reducible repeat' first
    | assumption | apply keeps_emitCtl | apply keeps_putFlow | split

theorem keeps_sendNak {s0 s : State} (h : Keeps s0 s) (a1 a2 a3 a4) : Keeps s0 (sendNak s a1 a2 a3 a4) := by
  unfold sendNak
  with_reducible repeat' first
    | assumption | apply keeps_emitCtl

theorem keeps_effectDone {s0 s : State} (h : Keeps s0 s) (a1 a2) : Keeps s0 (effectDone s a1 a2) := by
  unfold effectDone; dsimp only
  with_reducible repeat' first
    | assumption | apply Keeps.ite | apply keeps_finishInstr | apply keeps_putTile | split

theorem keeps_recordEffect {s0 s : State} (h : Keeps s0 s) (a1 a2 a3) : Keeps s0 (recordEffect s a1 a2 a3) := by
  unfold recordEffect
  with_reducible repeat' first
    | assumption | apply Keeps.ite | apply keeps_putLft | apply keeps_raise | split

theorem keeps_landLines {s0 s : State} (h : Keeps s0 s) (n a op bs) : Keeps s0 (landLines n s a op bs) := by
  induction n generalizing s a bs with
  | zero => exact h
  | succ n ih => exact ih (keeps_bankWrite h ..) ..

theorem keeps_takeWrite {s0 s : State} (h : Keeps s0 s) (a1 a2) : Keeps s0 (takeWrite s a1 a2).1 := by
  unfold takeWrite; dsimp only
  with_reducible repeat' first
    | assumption | apply Keeps.ite | apply Keeps.ite_fst | apply keeps_enqueue | apply keeps_landLines
    | apply keeps_putLft | split | dsimp only

theorem keeps_takeSignal {s0 s : State} (h : Keeps s0 s) (a1 a2) : Keeps s0 (takeSignal s a1 a2).1 := by
  unfold takeSignal; dsimp only
  with_reducible repeat' first
    | assumption | apply Keeps.ite | apply Keeps.ite_fst | apply keeps_seenSeq | apply keeps_hubCtr
    | apply keeps_applyRemote | apply keeps_holdSignal | split | dsimp only

theorem keeps_failRead {s0 s : State} (h : Keeps s0 s) (a1) : Keeps s0 (failRead s a1) := by
  unfold failRead; dsimp only
  with_reducible repeat' first
    | assumption | intro _ | apply Keeps.ite | apply Keeps.foldl | apply keeps_putLft | apply keeps_raise
    | apply keeps_meetError

theorem keeps_settleWindows {s0 s : State} (h : Keeps s0 s) : Keeps s0 (settleWindows s) := by
  unfold settleWindows; dsimp only
  with_reducible repeat' first
    | assumption | apply Keeps.ite | apply keeps_putLft

theorem keeps_takeReadData {s0 s : State} (h : Keeps s0 s) (a1 a2 a3 a4 a5) : Keeps s0 (takeReadData s a1 a2 a3 a4 a5) := by
  unfold takeReadData
  with_reducible repeat' first
    | assumption | apply Keeps.ite | apply keeps_settleWindows | apply keeps_putLft | apply keeps_failRead
    | split

theorem keeps_sendReadData {s0 s : State} (h : Keeps s0 s) (a1 a2 a3) : Keeps s0 (sendReadData s a1 a2 a3) := by
  unfold sendReadData; dsimp only
  with_reducible repeat' first
    | assumption | apply Keeps.ite | apply keeps_takeReadData | apply keeps_emitCtl

theorem keeps_tryRead {s0 s : State} (h : Keeps s0 s) (a1) : Keeps s0 (tryRead s a1) := by
  unfold tryRead; dsimp only
  with_reducible repeat' first
    | assumption | apply Keeps.ite | apply keeps_putLft | apply keeps_wakeRun | apply keeps_sendReadData
    | apply keeps_meetRuns | apply MayKeep.getD | refine MayKeep.some ?_ _ (by assumption) | apply MayKeep.ite
    | exact MayKeep.of_none | exact MayKeep.of_some (by assumption)

theorem keeps_serveReads {s0 s : State} (h : Keeps s0 s) : Keeps s0 (serveReads s) := by
  unfold serveReads
  with_reducible repeat' first
    | assumption | intro _ | apply Keeps.ite | apply Keeps.foldl | apply keeps_tryRead | apply keeps_putLft

theorem keeps_answerRead {s0 s : State} (h : Keeps s0 s) (a1 a2 a3) : Keeps s0 (answerRead s a1 a2 a3) := by
  unfold answerRead
  with_reducible repeat' first
    | assumption | apply Keeps.ite | apply keeps_sendReadData | apply keeps_tryRead

theorem keeps_finishLanding {s0 s : State} (h : Keeps s0 s) (a1) : Keeps s0 (finishLanding s a1) := by
  unfold finishLanding; dsimp only
  with_reducible repeat' first
    | assumption | intro _ | apply keeps_onceSettled | apply keeps_putLft | apply keeps_settleSeq
    | apply keeps_seenSeq

theorem keeps_serveLandings {s0 s : State} (h : Keeps s0 s) : Keeps s0 (serveLandings s) := by
  unfold serveLandings
  with_reducible repeat' first
    | assumption | intro _ | apply Keeps.foldl | apply keeps_finishLanding

theorem keeps_takePacket {s0 s : State} (h : Keeps s0 s) (a1 a2) : Keeps s0 (takePacket s a1 a2).1 := by
  unfold takePacket; dsimp only
  with_reducible repeat' first
    | assumption | apply Keeps.ite | apply Keeps.ite_fst | apply keeps_seenSeq | apply keeps_takeWrite
    | apply keeps_takeSignal | split | dsimp only

theorem keeps_raiseRefused {s0 s : State} (h : Keeps s0 s) (a1 a2 a3 a4 a5) : Keeps s0 (raiseRefused s a1 a2 a3 a4 a5) := by
  unfold raiseRefused
  with_reducible repeat' first
    | assumption | apply keeps_raise

theorem keeps_nakEffect {s0 s : State} (h : Keeps s0 s) (a1 a2) : Keeps s0 (nakEffect s a1 a2) := by
  unfold nakEffect; dsimp only
  with_reducible repeat' first
    | assumption | apply keeps_putTile | apply keeps_tileFault | apply keeps_addCause | apply keeps_raiseRefused
    | apply keeps_settleWindows | apply keeps_failRead | split

theorem keeps_ackSeqs {s0 s : State} (h : Keeps s0 s) (a1 a2 a3) : Keeps s0 (ackSeqs s a1 a2 a3) := by
  unfold ackSeqs; dsimp only
  with_reducible repeat' first
    | assumption | intro _ | apply Keeps.foldl | apply keeps_putFlow | apply keeps_effectDone | split

theorem keeps_loopback {s0 s : State} (h : Keeps s0 s) (a1 a2 a3) : Keeps s0 (loopback s a1 a2 a3) := by
  unfold loopback; dsimp only
  with_reducible repeat' first
    | assumption | apply Keeps.ite | apply keeps_takePacket | apply keeps_settleSeq | apply keeps_ackSeqs
    | apply keeps_answerRead | apply keeps_raiseRefused | apply keeps_nakEffect | apply keeps_putFlow | split

theorem keeps_acceptPkt {s0 s : State} (h : Keeps s0 s) (a1 a2 a3) : Keeps s0 (acceptPkt s a1 a2 a3) := by
  unfold acceptPkt; dsimp only
  with_reducible repeat' first
    | assumption | apply Keeps.ite | apply keeps_putFlow | apply keeps_putLft | apply keeps_recordEffect
    | apply keeps_effectDone | apply keeps_loopback | apply keeps_emitPkt | split

theorem keeps_pumpFlow {s0 s : State} (h : Keeps s0 s) (k n p) : Keeps s0 (pumpFlow k s n p) := by
  induction k generalizing s with
  | zero => exact h
  | succ k ih =>
    unfold pumpFlow
    dsimp only
    split
    · exact h
    · exact .ite (ih (keeps_acceptPkt h ..)) h

theorem keeps_pump {s0 s : State} (h : Keeps s0 s) (a1 a2) : Keeps s0 (pump s a1 a2) := by
  unfold pump; dsimp only
  with_reducible repeat' first
    | assumption | apply Keeps.ite | apply keeps_ackSeqs | apply keeps_pumpFlow

theorem keeps_pumpAll {s0 s : State} (h : Keeps s0 s) : Keeps s0 (pumpAll s) := by
  unfold pumpAll
  with_reducible repeat' first
    | assumption | intro _ | apply Keeps.foldl | apply keeps_pump

theorem keeps_queuePkts {s0 s : State} (h : Keeps s0 s) (a1 a2 a3) : Keeps s0 (queuePkts s a1 a2 a3).2 := by
  unfold queuePkts; dsimp only
  with_reducible repeat' first
    | assumption | apply keeps_putFlow | apply keeps_putLft | split | dsimp only

theorem keeps_newEffect {s0 s : State} (h : Keeps s0 s) (a1 a2 a3 a4) : Keeps s0 (newEffect s a1 a2 a3 a4).2 := by
  unfold newEffect; dsimp only
  with_reducible repeat' first
    | assumption | apply keeps_putLft | split | dsimp only

theorem keeps_remoteStore {s0 s : State} (h : Keeps s0 s) (a1 a2 a3 a4 a5 a6 a7) : StartKept s0 (remoteStore s a1 a2 a3 a4 a5 a6 a7) := by
  unfold remoteStore; dsimp only
  with_reducible repeat' first
    | assumption | apply StartKept.of_done | apply StartKept.of_going | apply StartKept.of_fault
    | apply StartKept.ite | apply Keeps.ite | apply keeps_newEffect | apply keeps_addHold | apply keeps_raise
    | apply keeps_addCtr | apply keeps_queuePkts | apply keeps_pump | split

theorem keeps_startRemoteSignal {s0 s : State} (h : Keeps s0 s) (a1 a2 a3) : StartKept s0 (startRemoteSignal s a1 a2 a3) := by
  unfold startRemoteSignal; dsimp only
  with_reducible repeat' first
    | assumption | apply StartKept.of_done | apply StartKept.of_going | apply StartKept.of_fault
    | apply StartKept.ite | apply Keeps.ite | apply keeps_newEffect | apply keeps_addHold | apply keeps_raise
    | apply keeps_addCtr | apply keeps_queuePkts | apply keeps_pump | split

theorem keeps_readWindow {s0 s : State} (h : Keeps s0 s) (a1 a2 a3 a4 a5) : Keeps s0 (readWindow s a1 a2 a3 a4 a5) := by
  unfold readWindow; dsimp only
  with_reducible repeat' first
    | assumption | apply keeps_queuePkts | apply keeps_pump | apply keeps_putLft | split

theorem keeps_readFar {s0 s : State} (h : Keeps s0 s) (a1 a2 a3 a4 a5) : Keeps s0 (readFar s a1 a2 a3 a4 a5) := by
  unfold readFar
  with_reducible repeat' first
    | assumption | intro _ | apply Keeps.foldl | apply keeps_readWindow

theorem keeps_dropFar {s0 s : State} (h : Keeps s0 s) (a1) : Keeps s0 (dropFar s a1) := by
  unfold dropFar
  with_reducible repeat' first
    | assumption | apply keeps_putLft

theorem keeps_execWindowOpen {s0 s : State} (h : Keeps s0 s) (a1 a2) : Kept s0 (execWindowOpen a1 a2 s) := by
  unfold execWindowOpen
  with_reducible repeat' first
    | assumption | apply Kept.of_next | apply Kept.ite | apply keeps_putLft

theorem keeps_closeWindow {s0 s : State} (h : Keeps s0 s) (a1) : Keeps s0 (closeWindow s a1) := by
  unfold closeWindow; dsimp only
  with_reducible repeat' first
    | assumption | apply Keeps.ite | apply keeps_settleWindows | apply keeps_putLft

theorem keeps_execWindowClose {s0 s : State} (h : Keeps s0 s) (a1) : Kept s0 (execWindowClose a1 s) := by
  unfold execWindowClose
  with_reducible repeat' first
    | assumption | apply Kept.of_next | apply keeps_closeWindow

theorem keeps_execFarReadTimeout {s0 s : State} (h : Keeps s0 s) (a1) : Kept s0 (execFarReadTimeout a1 s) := by
  unfold execFarReadTimeout
  with_reducible repeat' first
    | assumption | apply Kept.of_next | apply keeps_settleWindows | apply keeps_failRead | split

theorem keeps_fromPeer {s0 s : State} (h : Keeps s0 s) (a1) {a2 : State → State} (ha2 : ∀ u, Keeps s0 u → Keeps s0 (a2 u)) : Keeps s0 (fromPeer s a1 a2) := by
  unfold fromPeer; dsimp only
  with_reducible repeat' first
    | assumption | apply Keeps.ite | apply keeps_lftCtr | apply keeps_wakeDomain | apply ha2

theorem keeps_ackIfDue {s0 s : State} (h : Keeps s0 s) (a1 a2) : Keeps s0 (ackIfDue s a1 a2) := by
  unfold ackIfDue
  with_reducible repeat' first
    | assumption | apply Keeps.ite | apply keeps_sendAck

theorem keeps_refuseUnbound {s0 s : State} (h : Keeps s0 s) (a1 a2) : Keeps s0 (refuseUnbound s a1 a2) := by
  unfold refuseUnbound; dsimp only
  with_reducible repeat' first
    | assumption | apply Keeps.ite | apply keeps_sendReadData | apply keeps_sendNak | apply keeps_raiseRefused

theorem keeps_receiveSeq {s0 s : State} (h : Keeps s0 s) (a1 a2) : Keeps s0 (receiveSeq s a1 a2) := by
  unfold receiveSeq; dsimp only
  with_reducible repeat' first
    | assumption | apply Keeps.ite | apply keeps_refuseUnbound | apply keeps_sendAck | apply keeps_lftCtr
    | apply keeps_answerRead | apply keeps_takePacket | apply keeps_ackIfDue | apply keeps_settleSeq
    | apply keeps_sendNak | apply keeps_raiseRefused | split

theorem keeps_execLftWriteReceived {s0 s : State} (h : Keeps s0 s) (a1) : Kept s0 (execLftWriteReceived a1 s) := by
  unfold execLftWriteReceived
  with_reducible repeat' first
    | assumption | apply Kept.of_next | intro _ | apply keeps_fromPeer | apply keeps_receiveSeq

theorem keeps_execLftReadReceived {s0 s : State} (h : Keeps s0 s) (a1) : Kept s0 (execLftReadReceived a1 s) := by
  unfold execLftReadReceived
  with_reducible repeat' first
    | assumption | apply Kept.of_next | intro _ | apply keeps_fromPeer | apply keeps_receiveSeq

theorem keeps_execLftSignalReceived {s0 s : State} (h : Keeps s0 s) (a1) : Kept s0 (execLftSignalReceived a1 s) := by
  unfold execLftSignalReceived
  with_reducible repeat' first
    | assumption | apply Kept.of_next | intro _ | apply keeps_fromPeer | apply keeps_receiveSeq

theorem keeps_execLftReadDataReceived {s0 s : State} (h : Keeps s0 s) (a1) : Kept s0 (execLftReadDataReceived a1 s) := by
  unfold execLftReadDataReceived
  with_reducible repeat' first
    | assumption | apply Kept.of_next | intro _ | apply keeps_fromPeer | apply keeps_takeReadData

theorem keeps_execLftAckReceived {s0 s : State} (h : Keeps s0 s) (a1) : Kept s0 (execLftAckReceived a1 s) := by
  unfold execLftAckReceived; dsimp only
  with_reducible repeat' first
    | assumption | apply Kept.of_next | intro _ | apply keeps_fromPeer | apply keeps_putFlow | apply keeps_pump
    | apply keeps_ackSeqs

theorem keeps_execLftNakReceived {s0 s : State} (h : Keeps s0 s) (a1) : Kept s0 (execLftNakReceived a1 s) := by
  unfold execLftNakReceived; dsimp only
  with_reducible repeat' first
    | assumption | apply Kept.of_next | intro _ | apply keeps_fromPeer | apply keeps_putFlow | apply keeps_pump
    | apply keeps_nakEffect | split

theorem keeps_execAckTimer {s0 s : State} (h : Keeps s0 s) (a1 a2) : Kept s0 (execAckTimer a1 a2 s) := by
  unfold execAckTimer
  with_reducible repeat' first
    | assumption | apply Kept.of_next | apply Kept.ite | apply Keeps.ite | apply keeps_sendAck

theorem keeps_resend {s0 s : State} (h : Keeps s0 s) (a1 a2 a3) : Keeps s0 (resend s a1 a2 a3) := by
  unfold resend; dsimp only
  with_reducible repeat' first
    | assumption | intro _ | apply Keeps.ite | apply Keeps.foldl | apply keeps_putFlow | apply keeps_emitPkt
    | apply keeps_lftCtr | split

theorem keeps_execLftRetransmitTimeout {s0 s : State} (h : Keeps s0 s) (a1 a2 a3) : Kept s0 (execLftRetransmitTimeout a1 a2 a3 s) := by
  unfold execLftRetransmitTimeout
  with_reducible repeat' first
    | assumption | apply Kept.of_next | apply Kept.ite | apply keeps_resend

theorem keeps_dropHeld {s0 s : State} (h : Keeps s0 s) (a1) : Keeps s0 (dropHeld s a1) := by
  unfold dropHeld; dsimp only
  with_reducible repeat' first
    | assumption | apply keeps_putLft | apply keeps_admitKept | apply keeps_putSync

theorem keeps_failReads {s0 s : State} (h : Keeps s0 s) (a1) : Keeps s0 (failReads s a1) := by
  unfold failReads
  with_reducible repeat' first
    | assumption | intro _ | apply Keeps.foldl | apply keeps_settleWindows | apply keeps_failRead

theorem keeps_peerLost {s0 s : State} (h : Keeps s0 s) (a1 a2) : Keeps s0 (peerLost s a1 a2) := by
  unfold peerLost; dsimp only
  with_reducible repeat' first
    | assumption | intro _ | apply Keeps.ite | apply Keeps.foldl | apply keeps_setPeerState | apply keeps_putLft
    | apply keeps_raise | apply keeps_lftCtr | apply keeps_failReads | apply keeps_dropHeld
    | apply keeps_addCause

theorem keeps_execPeerTimeout {s0 s : State} (h : Keeps s0 s) (a1) : Kept s0 (execPeerTimeout a1 s) := by
  unfold execPeerTimeout; dsimp only
  with_reducible repeat' first
    | assumption | apply Kept.of_next | apply Kept.ite | apply Keeps.ite | apply keeps_peerLost

theorem keeps_removePath {s0 s : State} (h : Keeps s0 s) (a1 a2) : Keeps s0 (removePath s a1 a2) := by
  unfold removePath; dsimp only
  with_reducible repeat' first
    | assumption | intro _ | apply Keeps.ite | apply Keeps.foldl | apply keeps_lftCtr | apply keeps_putPeer
    | apply keeps_peerLost | apply keeps_resend

theorem keeps_execHelloInterval {s0 s : State} (h : Keeps s0 s) (a1) : Kept s0 (execHelloInterval a1 s) := by
  unfold execHelloInterval; dsimp only
  with_reducible repeat' first
    | assumption | apply Kept.of_next | intro _ | apply Kept.ite | apply Keeps.ite | apply Keeps.foldl
    | apply keeps_sendHello | apply keeps_putPeer | apply keeps_removePath

theorem keeps_reincarnated {s0 s : State} (h : Keeps s0 s) (a1 a2) : Keeps s0 (reincarnated s a1 a2) := by
  unfold reincarnated; dsimp only
  with_reducible repeat' first
    | assumption | intro _ | apply Keeps.ite | apply Keeps.foldl | apply keeps_failReads | apply keeps_dropHeld
    | apply keeps_putLft | apply keeps_raise | apply keeps_addHold

theorem keeps_execLftHelloReceived {s0 s : State} (h : Keeps s0 s) (a1 a2 a3 a4 a5 a6) : Kept s0 (execLftHelloReceived a1 a2 a3 a4 a5 a6 s) := by
  unfold execLftHelloReceived; dsimp only
  with_reducible repeat' first
    | assumption | apply Kept.of_next | intro _ | apply Kept.ite | apply Keeps.ite | apply Keeps.foldl
    | apply keeps_lftCtr | apply keeps_wakeDomain | apply keeps_reincarnated | apply keeps_putPeer
    | apply keeps_putLft | apply keeps_resend | apply keeps_pump | apply keeps_setPeerState | apply keeps_raise

theorem keeps_writePeer {s0 s : State} (h : Keeps s0 s) (a1 a2) : Keeps s0 (writePeer s a1 a2) := by
  unfold writePeer; dsimp only
  with_reducible repeat' first
    | assumption | apply Keeps.ite | apply keeps_failReads | apply keeps_dropHeld | apply keeps_putLft
    | apply keeps_putPeer | apply keeps_pumpAll | apply keeps_setPeerState

theorem keeps_execPeerTableWrite {s0 s : State} (h : Keeps s0 s) (a1 a2) : Kept s0 (execPeerTableWrite a1 a2 s) := by
  unfold execPeerTableWrite
  with_reducible repeat' first
    | assumption | apply Kept.of_next | apply keeps_writePeer

end Sys2Proof.Machine
end

