-- ==== Sys2Proof/Laws/KeepsPlace.lean ====
section
/-! SUPPORT. Laws/KeepsPlace.lean: the functions of Machine/Place.lean keep the invariant and the queue. -/

set_option linter.unusedTactic false
set_option linter.unreachableTactic false

namespace Sys2Proof.Machine

theorem keeps_loadTable {s0 s : State} (h : Keeps s0 s) (a1) : Keeps s0 (loadTable s a1).1 := by
  unfold loadTable; dsimp only
  with_reducible repeat' first
    | assumption | apply keeps_raise | apply keeps_putPlace | split | dsimp only

theorem keeps_askReload {s0 s : State} (h : Keeps s0 s) (a1 a2) : Keeps s0 (askReload s a1 a2) := by
  unfold askReload
  with_reducible repeat' first
    | assumption | apply Keeps.ite | apply keeps_putPart

theorem keeps_execPlacementReload {s0 s : State} (h : Keeps s0 s) (a1 a2) : Kept s0 (execPlacementReload a1 a2 s) := by
  unfold execPlacementReload
  with_reducible repeat' first
    | assumption | apply Kept.of_next | apply keeps_askReload

theorem keeps_reloadTable {s0 s : State} (h : Keeps s0 s) (a1) : Keeps s0 (reloadTable s a1) := by
  unfold reloadTable; dsimp only
  with_reducible repeat' first
    | assumption | apply Keeps.ite | apply keeps_loadTable | apply keeps_takeSettings | apply keeps_putPlace

theorem keeps_issueEntry {s0 s : State} (h : Keeps s0 s) (a1 a2 a3) : Keeps s0 (issueEntry s a1 a2 a3) := by
  unfold issueEntry; dsimp only
  with_reducible repeat' first
    | assumption | apply keeps_addCtr | apply keeps_putPlace | apply keeps_readFar

theorem keeps_tryEntry {s0 s : State} (h : Keeps s0 s) (a1 a2 a3) : Keeps s0 (tryEntry s a1 a2 a3) := by
  unfold tryEntry; dsimp only
  with_reducible repeat' first
    | assumption | apply Keeps.ite | apply keeps_issueEntry | apply keeps_putPlace | apply keeps_requestWatch

theorem keeps_setLate {s0 s : State} (h : Keeps s0 s) (a1 a2 a3 a4) : Keeps s0 (setLate s a1 a2 a3 a4) := by
  unfold setLate; dsimp only
  with_reducible repeat' first
    | assumption | apply Keeps.ite | apply keeps_freshFree | apply keeps_writeNat | apply keeps_putPlace

theorem keeps_classifyEntry {s0 s : State} (h : Keeps s0 s) (a1 a2) : Keeps s0 (classifyEntry s a1 a2) := by
  unfold classifyEntry; dsimp only
  with_reducible repeat' first
    | assumption | apply Keeps.ite | apply keeps_putPlace | apply keeps_setLate | apply keeps_addCtr

theorem keeps_evalEntry {s0 s : State} (h : Keeps s0 s) (a1 a2) : Keeps s0 (evalEntry a1 s a2) := by
  unfold evalEntry; dsimp only
  with_reducible repeat' first
    | assumption | apply Keeps.ite | apply keeps_tryEntry | apply keeps_classifyEntry

theorem keeps_evalOwed {s0 s : State} (h : Keeps s0 s) (a1 a2) : Keeps s0 (evalOwed a1 s a2) := by
  unfold evalOwed
  with_reducible repeat' first
    | assumption | apply Keeps.ite | apply keeps_tryEntry

theorem keeps_evalEntries {s0 s : State} (h : Keeps s0 s) (a1) : Keeps s0 (evalEntries s a1) := by
  unfold evalEntries
  with_reducible repeat' first
    | assumption | intro _ | apply Keeps.ite | apply Keeps.foldl | apply keeps_evalEntry | apply keeps_evalOwed

theorem keeps_takeGates {s0 s : State} (h : Keeps s0 s) (a1) : Keeps s0 (takeGates s a1) := by
  unfold takeGates; dsimp only
  with_reducible repeat' first
    | assumption | apply Keeps.ite | apply keeps_putPlace | apply keeps_putSync | split

theorem keeps_execProgressChange {s0 s : State} (h : Keeps s0 s) (a1) : Kept s0 (execProgressChange a1 s) := by
  unfold execProgressChange; dsimp only
  with_reducible repeat' first
    | assumption | apply Kept.of_next | apply Kept.ite | apply Keeps.ite | apply keeps_addCtr
    | apply keeps_putPlace | apply keeps_evalEntries | apply keeps_takeGates

theorem keeps_execPrefetchLanded {s0 s : State} (h : Keeps s0 s) (a1 a2) : Kept s0 (execPrefetchLanded a1 a2 s) := by
  unfold execPrefetchLanded; dsimp only
  with_reducible repeat' first
    | assumption | apply Kept.of_next | intro _ | apply Kept.ite | apply Keeps.ite | apply keeps_wakeRun
    | apply keeps_onceRead | apply keeps_dropFar | apply keeps_writeBytes | apply keeps_putPlace
    | apply keeps_sendSignal | split

theorem keeps_execPrefetchCreditsReturned {s0 s : State} (h : Keeps s0 s) (a1 a2) : Kept s0 (execPrefetchCreditsReturned a1 a2 s) := by
  unfold execPrefetchCreditsReturned; dsimp only
  with_reducible repeat' first
    | assumption | apply Kept.of_next | apply Kept.ite | apply Keeps.ite | apply keeps_evalEntries
    | apply keeps_putPlace

theorem keeps_placeBoundary {s0 s : State} (h : Keeps s0 s) (a1) : Keeps s0 (placeBoundary s a1) := by
  unfold placeBoundary; dsimp only
  with_reducible repeat' first
    | assumption | intro _ | apply Keeps.ite | apply Keeps.foldl | apply keeps_classifyEntry
    | apply keeps_addCtr | apply keeps_putPlace

theorem keeps_placeStart {s0 s : State} (h : Keeps s0 s) (a1) : Keeps s0 (placeStart s a1) := by
  unfold placeStart; dsimp only
  with_reducible repeat' first
    | assumption | apply Keeps.ite | apply keeps_putPlace

theorem keeps_dropPrefetch {s0 s : State} (h : Keeps s0 s) (a1) : Keeps s0 (dropPrefetch s a1) := by
  unfold dropPrefetch; dsimp only
  with_reducible repeat' first
    | assumption | apply keeps_putLft | apply keeps_putSync | split

theorem keeps_placeAbandon {s0 s : State} (h : Keeps s0 s) (a1) : Keeps s0 (placeAbandon s a1) := by
  unfold placeAbandon; dsimp only
  with_reducible repeat' first
    | assumption | intro _ | apply Keeps.foldl | apply keeps_dropPrefetch | apply keeps_putPlace

theorem keeps_placeRestart {s0 s : State} (h : Keeps s0 s) (a1) : Keeps s0 (placeRestart s a1) := by
  unfold placeRestart; dsimp only
  with_reducible repeat' first
    | assumption | intro _ | apply Keeps.foldl | apply keeps_putPlace | apply keeps_dropPrefetch

theorem keeps_placeStop {s0 s : State} (h : Keeps s0 s) (a1) : Keeps s0 (placeStop s a1) := by
  unfold placeStop; dsimp only
  with_reducible repeat' first
    | assumption | apply keeps_putPlace | apply keeps_dropPrefetch

end Sys2Proof.Machine
end

