-- ==== Sys2Proof/Laws/KeepsPlan.lean ====
section
/-! SUPPORT. Laws/KeepsPlan.lean: the functions of Machine/Plan.lean keep the invariant and the queue. -/

set_option linter.unusedTactic false
set_option linter.unreachableTactic false

namespace Sys2Proof.Machine

theorem keeps_planCtr {s0 s : State} (h : Keeps s0 s) (a1 a2 a3) : Keeps s0 (planCtr s a1 a2 a3) := by
  unfold planCtr
  with_reducible repeat' first
    | assumption | apply keeps_addCtr

theorem keeps_putMasks {s0 s : State} (h : Keeps s0 s) (a1) : Keeps s0 (putMasks s a1) := by
  unfold putMasks
  with_reducible repeat' first
    | assumption | (refine Keeps.upd ?_ ..; assumption)

theorem keeps_putPlans {s0 s : State} (h : Keeps s0 s) (a1) : Keeps s0 (putPlans s a1) := by
  unfold putPlans
  with_reducible repeat' first
    | assumption | (refine Keeps.upd ?_ ..; assumption)

theorem keeps_dropPlans {s0 s : State} (h : Keeps s0 s) (a1) : Keeps s0 (dropPlans s a1) := by
  unfold dropPlans
  with_reducible repeat' first
    | assumption | apply keeps_putPlans

theorem keeps_maskStore {s0 s : State} (h : Keeps s0 s) (a1 a2) : Keeps s0 (maskStore a1 a2 s) := by
  unfold maskStore; dsimp only
  with_reducible repeat' first
    | assumption | intro _ | apply keeps_atDoorbell | apply keeps_raise | apply keeps_writeNat
    | apply keeps_putMasks | apply keeps_wakeMem | apply keeps_enqueue | split

theorem keeps_execMaskLoadDoorbell {s0 s : State} (h : Keeps s0 s) (a1 a2) : Kept s0 (execMaskLoadDoorbell a1 a2 s) := by
  unfold execMaskLoadDoorbell
  with_reducible repeat' first
    | assumption | apply Kept.of_next | intro _ | apply keeps_byCore | apply keeps_maskStore

theorem keeps_failPlan {s0 s : State} (h : Keeps s0 s) (a1 a2 a3 a4) : Keeps s0 (failPlan s a1 a2 a3 a4) := by
  unfold failPlan; dsimp only
  with_reducible repeat' first
    | assumption | apply keeps_writeNat | apply keeps_raise | apply keeps_planCtr

theorem keeps_writePlan {s0 s : State} (h : Keeps s0 s) (a1 a2 a3 a4 a5) : Keeps s0 (writePlan s a1 a2 a3 a4 a5) := by
  unfold writePlan; dsimp only
  with_reducible repeat' first
    | assumption | intro _ | apply Keeps.ite | apply Keeps.foldl | apply keeps_putPlans | apply keeps_writeBytes
    | apply keeps_planCtr

theorem keeps_buildPlan {s0 s : State} (h : Keeps s0 s) (a1 a2) : Keeps s0 (buildPlan s a1 a2) := by
  unfold buildPlan; dsimp only
  with_reducible repeat' first
    | assumption | apply Keeps.ite | apply keeps_freshFree | apply keeps_failPlan | apply keeps_writePlan
    | apply keeps_raise | split

theorem keeps_execPlanBuilt {s0 s : State} (h : Keeps s0 s) (a1) : Kept s0 (execPlanBuilt a1 s) := by
  unfold execPlanBuilt; dsimp only
  with_reducible repeat' first
    | assumption | apply Kept.of_next | intro _ | apply keeps_onceRead | apply keeps_buildPlan
    | apply keeps_putMasks | apply keeps_signalOne | apply keeps_freeCore | split

theorem keeps_maskAbandon {s0 s : State} (h : Keeps s0 s) (a1) : Keeps s0 (maskAbandon s a1) := by
  unfold maskAbandon; dsimp only
  with_reducible repeat' first
    | assumption | intro _ | apply Keeps.foldl | apply keeps_freeFill | apply keeps_planCtr
    | apply keeps_putMasks | apply keeps_dropDoorbells

end Sys2Proof.Machine
end

