-- ==== Sys2Proof/Laws/KeepsRetr.lean ====
section
/-! SUPPORT. Laws/KeepsRetr.lean: the functions of Machine/Retr.lean keep the invariant and the queue. -/

set_option linter.unusedTactic false
set_option linter.unreachableTactic false

namespace Sys2Proof.Machine

theorem keeps_putRetr {s0 s : State} (h : Keeps s0 s) (a1) : Keeps s0 (putRetr s a1) := by
  unfold putRetr
  with_reducible repeat' first
    | assumption | (refine Keeps.upd ?_ ..; assumption)

theorem keeps_retrCtr {s0 s : State} (h : Keeps s0 s) (a1 a2 a3) : Keeps s0 (retrCtr s a1 a2 a3) := by
  unfold retrCtr
  with_reducible repeat' first
    | assumption | apply keeps_addCtr

theorem keeps_putReg {s0 s : State} (h : Keeps s0 s) (a1 a2 a3 a4 a5) : Keeps s0 (putReg s a1 a2 a3 a4 a5) := by
  unfold putReg; dsimp only
  with_reducible repeat' first
    | assumption | apply keeps_writeNat | apply keeps_putRetr

theorem keeps_pinTable {s0 s : State} (h : Keeps s0 s) (a1 a2 a3) : Keeps s0 (pinTable a1 a2 s a3) := by
  unfold pinTable; dsimp only
  with_reducible repeat' first
    | assumption | apply Keeps.ite | apply keeps_putReg | apply keeps_putRetr

theorem keeps_clearDir {s0 s : State} (h : Keeps s0 s) (a1 a2 a3 a4) : Keeps s0 (clearDir s a1 a2 a3 a4) := by
  unfold clearDir; dsimp only
  with_reducible repeat' first
    | assumption | intro _ | apply Keeps.foldl | apply keeps_writeNat

theorem keeps_mirrorSet {s0 s : State} (h : Keeps s0 s) (a1 a2) : Keeps s0 (mirrorSet s a1 a2) := by
  unfold mirrorSet; dsimp only
  with_reducible repeat' first
    | assumption | intro _ | apply Keeps.foldl | apply keeps_writeBytes | split

theorem keeps_mirrorHot {s0 s : State} (h : Keeps s0 s) (a1 a2 a3 a4 a5) : Keeps s0 (mirrorHot s a1 a2 a3 a4 a5) := by
  unfold mirrorHot; dsimp only
  with_reducible repeat' first
    | assumption | intro _ | apply Keeps.foldl | apply keeps_writeNat | apply keeps_writeBytes | split

theorem keeps_putHot {s0 s : State} (h : Keeps s0 s) (a1) : Keeps s0 (putHot s a1) := by
  unfold putHot; dsimp only
  with_reducible repeat' first
    | assumption | intro _ | apply Keeps.ite | apply Keeps.foldl | apply keeps_putRetr | apply keeps_mirrorHot

theorem keeps_putSet {s0 s : State} (h : Keeps s0 s) (a1) : Keeps s0 (putSet s a1) := by
  unfold putSet; dsimp only
  with_reducible repeat' first
    | assumption | apply keeps_putRetr | apply keeps_mirrorSet | apply keeps_clearDir | split

theorem keeps_mapTouch {s0 s : State} (h : Keeps s0 s) (a1 a2 a3 a4 a5 a6) : Keeps s0 (mapTouch s a1 a2 a3 a4 a5 a6) := by
  unfold mapTouch
  with_reducible repeat' first
    | assumption | apply Keeps.ite | apply keeps_putSet | split

theorem keeps_sealDie {s0 s : State} (h : Keeps s0 s) (a1 a2 a3 a4 a5) : Keeps s0 (sealDie a1 a2 a3 a4 s a5) := by
  unfold sealDie; dsimp only
  with_reducible repeat' first
    | assumption | apply Keeps.ite | apply keeps_putSet | apply keeps_putHot

theorem keeps_sealTable {s0 s : State} (h : Keeps s0 s) (a1 a2 a3) : Keeps s0 (sealTable a1 a2 s a3) := by
  unfold sealTable; dsimp only
  with_reducible repeat' first
    | assumption | intro _ | apply Keeps.ite | apply Keeps.foldl | apply keeps_sealDie

theorem keeps_putReq {s0 s : State} (h : Keeps s0 s) (a1) : Keeps s0 (putReq s a1) := by
  unfold putReq
  with_reducible repeat' first
    | assumption | apply Keeps.ite | apply keeps_putRetr

theorem keeps_badKey {s0 s : State} (h : Keeps s0 s) (a1 a2) : Keeps s0 (badKey s a1 a2) := by
  unfold badKey; dsimp only
  with_reducible repeat' first
    | assumption | apply Keeps.ite | apply keeps_retrCtr | apply keeps_raise | apply keeps_putReq | split

theorem keeps_touchRow {s0 s : State} (h : Keeps s0 s) (a1 a2 a3 a4) : Keeps s0 (touchRow a1 a2 a3 a4 s).1 := by
  unfold touchRow; dsimp only
  with_reducible repeat' first
    | assumption | apply Keeps.ite | apply Keeps.ite_fst | apply keeps_putSet | apply keeps_addHold
    | apply keeps_raise | split | dsimp only

theorem keeps_touchRows {s0 s : State} (h : Keeps s0 s) (a1 a2 a3 a4) : Keeps s0 (touchRows a1 a2 a3 a4 s).1 := by
  induction a4 generalizing s a1 a2 a3 with
  | nil => exact h
  | cons x r ih =>
    unfold touchRows; dsimp only
    with_reducible repeat' first
      | assumption | apply Keeps.ite | apply Keeps.ite_fst | apply keeps_touchRow | apply ih | split | dsimp only

theorem keeps_deliverRow {s0 s : State} (h : Keeps s0 s) (a1 a2 a3 a4) : Keeps s0 (deliverRow s a1 a2 a3 a4) := by
  unfold deliverRow
  with_reducible repeat' first
    | assumption | apply keeps_retrCtr | apply keeps_writeBytes

theorem keeps_deliverIndex {s0 s : State} (h : Keeps s0 s) (a1 a2 a3 a4) : Keeps s0 (deliverIndex s a1 a2 a3 a4) := by
  unfold deliverIndex; dsimp only
  with_reducible repeat' first
    | assumption | apply keeps_deliverRow | apply keeps_retrCtr

theorem keeps_moreLeft {s0 s : State} (h : Keeps s0 s) (a1 a2) : Keeps s0 (moreLeft s a1 a2) := by
  unfold moreLeft
  with_reducible repeat' first
    | assumption | apply keeps_putReq | split

theorem keeps_gatherTable {s0 s : State} (h : Keeps s0 s) (a1 a2 a3) : RowKept s0 (gatherTable s a1 a2 a3) := by
  unfold gatherTable; dsimp only
  with_reducible repeat' first
    | assumption | apply RowKept.of_done | apply RowKept.of_stop | apply RowKept.of_wait | apply RowKept.ite
    | apply Keeps.ite | apply keeps_deliverRow | apply keeps_badKey | apply keeps_touchRows
    | apply keeps_retrCtr | apply keeps_moreLeft | apply keeps_putRetr | apply keeps_deliverIndex | split

theorem keeps_faultReq {s0 s : State} (h : Keeps s0 s) (a1 a2 a3) : Keeps s0 (faultReq s a1 a2 a3) := by
  unfold faultReq; dsimp only
  with_reducible repeat' first
    | assumption | apply Keeps.ite | apply keeps_putRetr | apply keeps_tileFault

theorem keeps_addRow {s0 s : State} (h : Keeps s0 s) (a1 a2 a3 a4) : Keeps s0 (addRow s a1 a2 a3 a4) := by
  unfold addRow
  with_reducible repeat' first
    | assumption | apply keeps_bankCombine | split

theorem keeps_applyRow {s0 s : State} (h : Keeps s0 s) (a1 a2 a3 a4) : Keeps s0 (applyRow s a1 a2 a3 a4) := by
  unfold applyRow; dsimp only
  with_reducible repeat' first
    | assumption | apply Keeps.ite | apply keeps_deliverRow | apply keeps_moreLeft | apply keeps_putRetr
    | apply keeps_retrCtr | apply keeps_addRow | split

theorem keeps_skipRow {s0 s : State} (h : Keeps s0 s) (a1 a2 a3) : Keeps s0 (skipRow s a1 a2 a3) := by
  unfold skipRow; dsimp only
  with_reducible repeat' first
    | assumption | apply Keeps.ite | apply keeps_badKey | apply keeps_deliverRow

theorem keeps_writeCounts {s0 s : State} (h : Keeps s0 s) (a1 a2) : Keeps s0 (writeCounts s a1 a2) := by
  unfold writeCounts; dsimp only
  with_reducible repeat' first
    | assumption | apply Keeps.ite | apply keeps_writeNat

theorem keeps_takeRow {s0 s : State} (h : Keeps s0 s) (a1 a2) : RowKept s0 (takeRow s a1 a2) := by
  unfold takeRow; dsimp only
  with_reducible repeat' first
    | assumption | apply RowKept.of_done | apply RowKept.of_stop | apply RowKept.ite | apply Keeps.ite
    | apply keeps_deliverRow | apply keeps_writeCounts | apply keeps_skipRow | apply keeps_gatherTable
    | apply keeps_faultReq | apply keeps_readFar | apply keeps_putReq | apply keeps_applyRow | split

theorem keeps_stepRow {s0 s : State} (h : Keeps s0 s) (a1 a2) : RowKept s0 (stepRow s a1 a2) := by
  unfold stepRow; dsimp only
  with_reducible repeat' first
    | assumption | apply RowKept.of_stop | apply RowKept.ite | apply Keeps.ite | apply keeps_wakeRuns
    | apply keeps_meetLevels | apply keeps_takeRow | refine MayKeep.some ?_ _ (by assumption)
    | apply MayKeep.ite | exact MayKeep.of_none | exact MayKeep.of_some (by assumption) | split

theorem keeps_runRows {s0 s : State} (h : Keeps s0 s) (k id) : Keeps s0 (runRows k s id) := by
  induction k generalizing s with
  | zero => exact h
  | succ k ih =>
    unfold runRows
    split
    · exact h
    · split
      · exact h
      · split
        · rename_i hd
          have hk := (keeps_stepRow h ..).done _ hd
          split
          · exact ih (keeps_putReq hk ..)
          · exact hk
        · exact h
        · rename_i hd
          exact (keeps_stepRow h ..).stop _ hd

theorem keeps_readIndex {s0 s : State} (h : Keeps s0 s) (a1) : Keeps s0 (readIndex s a1) := by
  unfold readIndex; dsimp only
  with_reducible repeat' first
    | assumption | apply Keeps.ite | apply keeps_readFar

theorem keeps_runReq {s0 s : State} (h : Keeps s0 s) (a1) : Keeps s0 (runReq s a1) := by
  unfold runReq; dsimp only
  with_reducible repeat' first
    | assumption | intro _ | apply Keeps.ite | apply Keeps.foldl | apply keeps_runRows | apply keeps_sealTable
    | apply keeps_putReq | split

theorem keeps_runReqs {s0 s : State} (h : Keeps s0 s) : Keeps s0 (runReqs s) := by
  unfold runReqs
  with_reducible repeat' first
    | assumption | intro _ | apply Keeps.foldl | apply keeps_runReq

theorem keeps_startRequest {s0 s : State} (h : Keeps s0 s) (a1 a2 a3) : StartKept s0 (startRequest s a1 a2 a3) := by
  unfold startRequest; dsimp only
  with_reducible repeat' first
    | assumption | apply StartKept.of_done | apply StartKept.of_fault | apply StartKept.of_notReady | intro _
    | apply StartKept.ite | apply Keeps.ite | apply Keeps.foldl | apply keeps_pinTable | apply keeps_wakeMem
    | apply keeps_takeSetting | apply keeps_putRetr | apply keeps_runReq | apply keeps_readIndex | split

theorem keeps_writeFarRows {s0 s : State} (h : Keeps s0 s) (a1) : Keeps s0 (writeFarRows s a1) := by
  unfold writeFarRows; dsimp only
  with_reducible repeat' first
    | assumption | intro _ | apply Keeps.foldl | apply keeps_applyRow | split

theorem keeps_execRetrieverRequestComplete {s0 s : State} (h : Keeps s0 s) (a1) : Kept s0 (execRetrieverRequestComplete a1 s) := by
  unfold execRetrieverRequestComplete; dsimp only
  with_reducible repeat' first
    | assumption | apply Kept.of_next | intro _ | apply Kept.ite | apply Keeps.ite | apply keeps_runReq
    | apply keeps_writeFarRows | apply keeps_putReq | apply keeps_onceSettled | apply keeps_dropFar
    | apply keeps_putRetr | apply keeps_sendSignal | split

theorem keeps_reqProgress {s0 s : State} (h : Keeps s0 s) (a1) : Keeps s0 (reqProgress s a1) := by
  unfold reqProgress
  with_reducible repeat' first
    | assumption | apply keeps_putReq | split

theorem keeps_mergeInto {s0 s : State} (h : Keeps s0 s) (a1 a2 a3) : Keeps s0 (mergeInto s a1 a2 a3) := by
  unfold mergeInto; dsimp only
  with_reducible repeat' first
    | assumption | apply Keeps.ite | apply keeps_addRow | apply keeps_writeBytes | apply keeps_retrCtr
    | apply keeps_mapTouch

theorem keeps_strayAdd {s0 s : State} (h : Keeps s0 s) (a1 a2) : Keeps s0 (strayAdd s a1 a2) := by
  unfold strayAdd; dsimp only
  with_reducible repeat' first
    | assumption | apply Keeps.ite | apply keeps_retrCtr | apply keeps_raise | apply keeps_putReq | split

theorem keeps_execMergeAdd {s0 s : State} (h : Keeps s0 s) (a1) : Kept s0 (execMergeAdd a1 s) := by
  unfold execMergeAdd; dsimp only
  with_reducible repeat' first
    | assumption | apply Kept.of_next | apply Kept.ite | apply Keeps.ite | apply keeps_putRetr
    | apply keeps_strayAdd | apply keeps_mergeInto | apply keeps_reqProgress | split

theorem keeps_execDeferredRowDelivered {s0 s : State} (h : Keeps s0 s) (a1) : Kept s0 (execDeferredRowDelivered a1 s) := by
  unfold execDeferredRowDelivered; dsimp only
  with_reducible repeat' first
    | assumption | apply Kept.of_next | intro _ | apply Kept.ite | apply Keeps.ite | apply keeps_putRetr
    | apply keeps_onceLevels | apply keeps_runReq | apply keeps_reqProgress | apply keeps_deliverIndex | split

theorem keeps_switchRow {s0 s : State} (h : Keeps s0 s) (a1) : Keeps s0 (switchRow s a1) := by
  unfold switchRow; dsimp only
  with_reducible repeat' first
    | assumption | apply Keeps.ite | apply keeps_writeBytes | apply keeps_putHot | apply keeps_putRetr
    | apply keeps_mapTouch | apply keeps_retrCtr | split

theorem keeps_execMigrationSwitch {s0 s : State} (h : Keeps s0 s) (a1) : Kept s0 (execMigrationSwitch a1 s) := by
  unfold execMigrationSwitch; dsimp only
  with_reducible repeat' first
    | assumption | apply Kept.of_next | intro _ | apply Kept.ite | apply Keeps.ite | apply keeps_onceLevels
    | apply keeps_wakeRuns | apply keeps_switchRow | split

theorem keeps_execMergeDirectoryCleared {s0 s : State} (h : Keeps s0 s) (a1 a2 a3) : Kept s0 (execMergeDirectoryCleared a1 a2 a3 s) := by
  unfold execMergeDirectoryCleared; dsimp only
  with_reducible repeat' first
    | assumption | apply Kept.of_next | intro _ | apply Keeps.foldl | apply keeps_clearDir | apply keeps_runReqs
    | apply keeps_putRetr

theorem keeps_stagePublish {s0 s : State} (h : Keeps s0 s) (a1 a2) : Keeps s0 (stagePublish a1 a2 s) := by
  unfold stagePublish; dsimp only
  with_reducible repeat' first
    | assumption | apply Keeps.ite | apply keeps_raise | apply keeps_putRetr

theorem keeps_publishStore {s0 s : State} (h : Keeps s0 s) (a1 a2) : Keeps s0 (publishStore a1 a2 s) := by
  unfold publishStore; dsimp only
  with_reducible repeat' first
    | assumption | intro _ | apply keeps_atDoorbell | apply keeps_stagePublish

theorem keeps_execPublishDoorbell {s0 s : State} (h : Keeps s0 s) (a1 a2) : Kept s0 (execPublishDoorbell a1 a2 s) := by
  unfold execPublishDoorbell
  with_reducible repeat' first
    | assumption | apply Kept.of_next | intro _ | apply keeps_byCore | apply keeps_publishStore

theorem keeps_takePublish {s0 s : State} (h : Keeps s0 s) (a1 a2) : Keeps s0 (takePublish a1 s a2) := by
  unfold takePublish; dsimp only
  with_reducible repeat' first
    | assumption | apply Keeps.ite | apply keeps_putRetr | apply keeps_putReg | apply keeps_retrCtr

theorem keeps_execVersionFreed {s0 s : State} (h : Keeps s0 s) (a1) : Kept s0 (execVersionFreed a1 s) := by
  unfold execVersionFreed; dsimp only
  with_reducible repeat' first
    | assumption | apply Kept.of_next | apply Kept.ite | apply Keeps.ite | apply keeps_putReg
    | apply keeps_raise | apply keeps_putRetr | split

theorem keeps_releasePins {s0 s : State} (h : Keeps s0 s) (a1 a2) : Keeps s0 (releasePins s a1 a2) := by
  unfold releasePins; dsimp only
  with_reducible repeat' first
    | assumption | intro _ | apply Keeps.ite | apply Keeps.foldl | apply keeps_putRetr | apply keeps_putReg

theorem keeps_retrBoundary {s0 s : State} (h : Keeps s0 s) (a1 a2) : Keeps s0 (retrBoundary s a1 a2) := by
  unfold retrBoundary; dsimp only
  with_reducible repeat' first
    | assumption | intro _ | apply Keeps.ite | apply Keeps.foldl | apply keeps_putRetr | apply keeps_releasePins
    | apply keeps_takePublish

theorem keeps_retrAbandon {s0 s : State} (h : Keeps s0 s) (a1) : Keeps s0 (retrAbandon s a1) := by
  unfold retrAbandon; dsimp only
  with_reducible repeat' first
    | assumption | intro _ | apply Keeps.foldl | apply keeps_retrCtr | apply keeps_putRetr | apply keeps_dropFar
    | apply keeps_putLft

theorem keeps_retrRestart {s0 s : State} (h : Keeps s0 s) (a1 a2) : Keeps s0 (retrRestart s a1 a2) := by
  unfold retrRestart; dsimp only
  with_reducible repeat' first
    | assumption | intro _ | apply Keeps.ite | apply Keeps.foldl | apply keeps_clearDir | apply keeps_putRetr
    | apply keeps_putSet | apply keeps_putHot | apply keeps_releasePins

theorem keeps_retrWriteBack {s0 s : State} (h : Keeps s0 s) (a1) : Keeps s0 (retrWriteBack s a1) := by
  unfold retrWriteBack; dsimp only
  with_reducible repeat' first
    | assumption | intro _ | apply Keeps.foldl | apply keeps_writeBytes | apply keeps_putHot | split

theorem keeps_retrForget {s0 s : State} (h : Keeps s0 s) (a1) : Keeps s0 (retrForget s a1) := by
  unfold retrForget
  with_reducible repeat' first
    | assumption | apply keeps_putRetr

theorem keeps_faultRequester {s0 s : State} (h : Keeps s0 s) (a1) : Keeps s0 (faultRequester s a1) := by
  unfold faultRequester; dsimp only
  with_reducible repeat' first
    | assumption | apply keeps_tileFault | apply keeps_putRetr | apply keeps_settleSeq | apply keeps_seenSeq
    | apply keeps_raiseRefused | apply keeps_sendNak | split

theorem keeps_execBankSideOp {s0 s : State} (h : Keeps s0 s) (a b c d e) : Kept s0 (execBankSideOp a b c d e s) := by
  unfold execBankSideOp
  split
  · exact .of_next (keeps_faultRequester h ..)
  · exact .of_next (keeps_bankWrite (h.upd ..) ..)

end Sys2Proof.Machine
end

