-- ==== Sys2Proof/Laws/KeepsUpdate.lean ====
section
/-! SUPPORT. Laws/KeepsUpdate.lean: the functions of Machine/Update.lean keep the invariant and the queue. -/

set_option linter.unusedTactic false
set_option linter.unreachableTactic false

namespace Sys2Proof.Machine

theorem keeps_putUpd {s0 s : State} (h : Keeps s0 s) (a1) : Keeps s0 (putUpd s a1) := by
  unfold putUpd
  with_reducible repeat' first
    | assumption | (refine Keeps.upd ?_ ..; assumption)

theorem keeps_updCtr {s0 s : State} (h : Keeps s0 s) (a1 a2 a3) : Keeps s0 (updCtr s a1 a2 a3) := by
  unfold updCtr
  with_reducible repeat' first
    | assumption | apply keeps_addCtr

theorem keeps_writeRecord {s0 s : State} (h : Keeps s0 s) (a1 a2 a3 a4 a5) : Keeps s0 (writeRecord s a1 a2 a3 a4 a5) := by
  unfold writeRecord
  with_reducible repeat' first
    | assumption | apply keeps_writeNat

theorem keeps_putCmd {s0 s : State} (h : Keeps s0 s) (a1) : Keeps s0 (putCmd s a1) := by
  unfold putCmd
  with_reducible repeat' first
    | assumption | apply Keeps.ite | apply keeps_putUpd

theorem keeps_dropCmd {s0 s : State} (h : Keeps s0 s) (a1) : Keeps s0 (dropCmd s a1) := by
  unfold dropCmd
  with_reducible repeat' first
    | assumption | apply keeps_putUpd

theorem keeps_armPass2 {s0 s : State} (h : Keeps s0 s) (a1) : Keeps s0 (armPass2 s a1) := by
  unfold armPass2
  with_reducible repeat' first
    | assumption | apply Keeps.ite | apply keeps_requestWatch | apply keeps_putCmd | split

theorem keeps_startUpdate {s0 s : State} (h : Keeps s0 s) (a1 a2) : StartKept s0 (startUpdate s a1 a2) := by
  unfold startUpdate; dsimp only
  with_reducible repeat' first
    | assumption | apply StartKept.of_done | apply StartKept.of_fault | apply StartKept.of_notReady | intro _
    | apply StartKept.ite | apply Keeps.ite | apply Keeps.foldl | apply keeps_updCtr | apply keeps_putUpd
    | apply keeps_wakeDomain | apply keeps_armPass2

theorem keeps_stepMismatch {s0 s : State} (h : Keeps s0 s) (a1 a2 a3 a4 a5) : Keeps s0 (stepMismatch s a1 a2 a3 a4 a5) := by
  unfold stepMismatch
  with_reducible repeat' first
    | assumption | apply keeps_causeOrHold | apply keeps_raise | apply keeps_updCtr

theorem keeps_writeNorms {s0 s : State} (h : Keeps s0 s) (a1 a2 a3 a4 a5 a6) : Keeps s0 (writeNorms s a1 a2 a3 a4 a5 a6) := by
  unfold writeNorms; dsimp only
  with_reducible repeat' first
    | assumption | apply keeps_writeBytes | apply keeps_bankCombine

theorem keeps_pass1Dense {s0 s : State} (h : Keeps s0 s) (a1 a2 a3 a4 a5) : Keeps s0 (pass1Dense s a1 a2 a3 a4 a5) := by
  unfold pass1Dense; dsimp only
  with_reducible repeat' first
    | assumption | apply keeps_putUpd | apply keeps_writeNorms | apply keeps_updCtr

theorem keeps_pass1Emb {s0 s : State} (h : Keeps s0 s) (a1 a2 a3 a4 a5) : Keeps s0 (pass1Emb s a1 a2 a3 a4 a5) := by
  unfold pass1Emb; dsimp only
  with_reducible repeat' first
    | assumption | apply keeps_putUpd | apply keeps_updCtr | apply keeps_writeNorms

theorem keeps_finishPass1 {s0 s : State} (h : Keeps s0 s) (a1) : Keeps s0 (finishPass1 s a1) := by
  unfold finishPass1; dsimp only
  with_reducible repeat' first
    | assumption | apply keeps_dropCmd | apply keeps_putUpd

theorem keeps_pass1Next {s0 s : State} (h : Keeps s0 s) (a1 a2 a3 a4) : Keeps s0 (pass1Next s a1 a2 a3 a4) := by
  unfold pass1Next; dsimp only
  with_reducible repeat' first
    | assumption | intro _ | apply Keeps.ite | apply keeps_addHold | apply keeps_raise | apply keeps_dropCmd
    | apply keeps_onceRead | apply keeps_pass1Emb | apply keeps_pass1Dense | apply keeps_finishPass1
    | apply keeps_putCmd

theorem keeps_pass1Head {s0 s : State} (h : Keeps s0 s) (a1 a2) : Keeps s0 (pass1Head s a1 a2) := by
  unfold pass1Head; dsimp only
  with_reducible repeat' first
    | assumption | apply Keeps.ite | apply keeps_dropCmd | apply keeps_stepMismatch | apply keeps_finishPass1
    | apply keeps_pass1Next | split

theorem keeps_execPass1Slice {s0 s : State} (h : Keeps s0 s) (a1) : Kept s0 (execPass1Slice a1 s) := by
  unfold execPass1Slice
  with_reducible repeat' first
    | assumption | apply Kept.of_next | intro _ | apply Kept.ite | apply Keeps.ite | apply keeps_finishPass1
    | apply keeps_onceLevels | apply keeps_pass1Head | split

theorem keeps_execDiePass1Complete {s0 s : State} (h : Keeps s0 s) (a1 a2) : Kept s0 (execDiePass1Complete a1 a2 s) := by
  unfold execDiePass1Complete; dsimp only
  with_reducible repeat' first
    | assumption | apply Kept.of_next | intro _ | apply Kept.ite | apply keeps_onceLevels
    | apply keeps_onceSettled | apply keeps_writeNat | apply keeps_sendSignal | apply keeps_putUpd | split

theorem keeps_execNormCombine {s0 s : State} (h : Keeps s0 s) (a1 a2 a3) : Kept s0 (execNormCombine a1 a2 a3 s) := by
  unfold execNormCombine; dsimp only
  with_reducible repeat' first
    | assumption | apply Kept.of_next | intro _ | apply Kept.ite | apply Keeps.ite | apply keeps_onceLevels
    | apply keeps_putUpd | split

theorem keeps_countSkip {s0 s : State} (h : Keeps s0 s) (a1 a2) : Keeps s0 (countSkip s a1 a2) := by
  unfold countSkip
  with_reducible repeat' first
    | assumption | apply Keeps.ite | apply keeps_updCtr | apply keeps_putUpd

theorem keeps_beginPass2 {s0 s : State} (h : Keeps s0 s) (a1) : Keeps s0 (beginPass2 s a1) := by
  unfold beginPass2; dsimp only
  with_reducible repeat' first
    | assumption | apply Keeps.ite | apply keeps_armPass2 | apply keeps_dropCmd | apply keeps_stepMismatch
    | apply keeps_raise | apply keeps_putCmd | apply keeps_countSkip

theorem keeps_execPass2Start {s0 s : State} (h : Keeps s0 s) (a1) : Kept s0 (execPass2Start a1 s) := by
  unfold execPass2Start; dsimp only
  with_reducible repeat' first
    | assumption | apply Kept.of_next | intro _ | apply Kept.ite | apply Keeps.ite | apply keeps_putSync
    | apply keeps_armPass2 | apply keeps_dropCmd | apply keeps_onceRead | apply keeps_beginPass2 | split

theorem keeps_pass2Dense {s0 s : State} (h : Keeps s0 s) (a1 a2 a3 a4) : Keeps s0 (pass2Dense s a1 a2 a3 a4) := by
  unfold pass2Dense; dsimp only
  with_reducible repeat' first
    | assumption | apply Keeps.ite | apply keeps_writeBytes | apply keeps_updCtr

theorem keeps_placeRow {s0 s : State} (h : Keeps s0 s) (a1 a2 a3 a4 a5) : Keeps s0 (placeRow s a1 a2 a3 a4 a5) := by
  unfold placeRow; dsimp only
  with_reducible repeat' first
    | assumption | apply Keeps.ite | apply keeps_mapTouch | apply keeps_writeBytes | apply keeps_retrCtr
    | apply keeps_putRetr | split

theorem keeps_updateRow {s0 s : State} (h : Keeps s0 s) (a1 a2 a3 a4 a5 a6 a7) : Keeps s0 (updateRow a1 a2 a3 a4 a5 a6 s a7) := by
  unfold updateRow; dsimp only
  with_reducible repeat' first
    | assumption | apply keeps_writeBytes | apply keeps_putUpd | apply keeps_placeRow | apply keeps_updCtr

theorem keeps_pass2Rows {s0 s : State} (h : Keeps s0 s) (a1 a2 a3 a4) : Keeps s0 (pass2Rows s a1 a2 a3 a4) := by
  unfold pass2Rows; dsimp only
  with_reducible repeat' first
    | assumption | intro _ | apply Keeps.foldl | apply keeps_updateRow

theorem keeps_recordSlice {s0 s : State} (h : Keeps s0 s) (a1 a2 a3) {a4 : State → State} (ha4 : ∀ u, Keeps s0 u → Keeps s0 (a4 u)) : Keeps s0 (recordSlice s a1 a2 a3 a4) := by
  unfold recordSlice
  with_reducible repeat' first
    | assumption | apply Keeps.ite | apply keeps_writeRecord | apply ha4

theorem keeps_pass2Slice {s0 s : State} (h : Keeps s0 s) (a1 a2 a3 a4 a5) {a6 : State → State} (ha6 : ∀ u, Keeps s0 u → Keeps s0 (a6 u)) : Keeps s0 (pass2Slice s a1 a2 a3 a4 a5 a6) := by
  unfold pass2Slice
  with_reducible repeat' first
    | assumption | intro _ | apply Keeps.ite | apply keeps_recordSlice | apply keeps_onceRead
    | apply keeps_putCmd | apply keeps_pass2Rows | apply keeps_pass2Dense | apply ha6

theorem keeps_pass2None {s0 s : State} (h : Keeps s0 s) (a1 a2) : Keeps s0 (pass2None s a1 a2) := by
  unfold pass2None; dsimp only
  with_reducible repeat' first
    | assumption | apply Keeps.ite | apply keeps_writeRecord | apply keeps_updCtr | apply keeps_putSet | split

theorem keeps_pass2Path1 {s0 s : State} (h : Keeps s0 s) (a1 a2) : Keeps s0 (pass2Path1 s a1 a2) := by
  unfold pass2Path1; dsimp only
  with_reducible repeat' first
    | assumption | apply keeps_writeRecord

theorem keeps_finishPass2 {s0 s : State} (h : Keeps s0 s) (a1) : Keeps s0 (finishPass2 s a1) := by
  unfold finishPass2; dsimp only
  with_reducible repeat' first
    | assumption | apply keeps_putUpd | apply keeps_dropCmd | apply keeps_armPass2

theorem keeps_pass2Head {s0 s : State} (h : Keeps s0 s) (a1 a2) : Keeps s0 (pass2Head s a1 a2) := by
  unfold pass2Head; dsimp only
  with_reducible repeat' first
    | assumption | intro _ | apply Keeps.ite | apply keeps_finishPass2 | apply keeps_putCmd
    | apply keeps_pass2None | apply keeps_onceSettled | apply keeps_pass2Path1 | apply keeps_pass2Slice | split

theorem keeps_execPass2SliceDone {s0 s : State} (h : Keeps s0 s) (a1) : Kept s0 (execPass2SliceDone a1 s) := by
  unfold execPass2SliceDone
  with_reducible repeat' first
    | assumption | apply Kept.of_next | intro _ | apply Kept.ite | apply Keeps.ite | apply keeps_onceLevels
    | apply keeps_pass2Head | split

theorem keeps_execGroupUpdateDone {s0 s : State} (h : Keeps s0 s) (a1 a2) : Kept s0 (execGroupUpdateDone a1 a2 s) := by
  unfold execGroupUpdateDone; dsimp only
  with_reducible repeat' first
    | assumption | apply Kept.of_next | apply Kept.ite | apply Keeps.ite | apply keeps_putUpd
    | apply keeps_signalOne | split

theorem keeps_clearPartials {s0 s : State} (h : Keeps s0 s) (a1) : Keeps s0 (clearPartials s a1) := by
  unfold clearPartials
  with_reducible repeat' first
    | assumption | intro _ | apply Keeps.foldl | apply keeps_writeNat

theorem keeps_updBoundary {s0 s : State} (h : Keeps s0 s) (a1 a2) : Keeps s0 (updBoundary s a1 a2) := by
  unfold updBoundary; dsimp only
  with_reducible repeat' first
    | assumption | apply keeps_clearPartials | apply keeps_putUpd

theorem keeps_updAbandon {s0 s : State} (h : Keeps s0 s) (a1) : Keeps s0 (updAbandon s a1) := by
  unfold updAbandon; dsimp only
  with_reducible repeat' first
    | assumption | intro _ | apply Keeps.foldl | apply keeps_putUpd | apply keeps_putSync | apply keeps_armPass2
    | split

theorem keeps_undoOne {s0 s : State} (h : Keeps s0 s) (a1) : Keeps s0 (undoOne s a1) := by
  unfold undoOne; dsimp only
  with_reducible repeat' first
    | assumption | apply Keeps.ite | apply keeps_writeBytes | split

theorem keeps_undoReplay {s0 s : State} (h : Keeps s0 s) (a1 a2) : Keeps s0 (undoReplay s a1 a2) := by
  unfold undoReplay; dsimp only
  with_reducible repeat' first
    | assumption | intro _ | apply Keeps.foldl | apply keeps_undoOne | apply keeps_putUpd

theorem keeps_readUpdTable {s0 s : State} (h : Keeps s0 s) (a1) : Keeps s0 (readUpdTable s a1).1 := by
  unfold readUpdTable; dsimp only
  with_reducible repeat' first
    | assumption | apply Keeps.ite | apply Keeps.ite_fst | apply keeps_putUpd | split | dsimp only

theorem keeps_updFresh {s0 s : State} (h : Keeps s0 s) (a1) : Keeps s0 (updFresh s a1) := by
  unfold updFresh
  with_reducible repeat' first
    | assumption | apply keeps_putUpd

theorem keeps_updForget {s0 s : State} (h : Keeps s0 s) (a1) : Keeps s0 (updForget s a1) := by
  unfold updForget; dsimp only
  with_reducible repeat' first
    | assumption | apply keeps_updFresh | apply keeps_updAbandon | apply keeps_putUpd

end Sys2Proof.Machine
end

