-- ==== Sys2Proof/Laws/KeepsPartition.lean ====
section
/-! SUPPORT. Laws/KeepsPartition.lean: the functions of Machine/Partition.lean keep the invariant and the queue. -/

set_option linter.unusedTactic false
set_option linter.unreachableTactic false

namespace Sys2Proof.Machine

theorem keeps_refuseCmd {s0 s : State} (h : Keeps s0 s) (a1 a2) : Keeps s0 (refuseCmd s a1 a2) := by
  unfold refuseCmd
  with_reducible repeat' first
    | assumption | apply keeps_raise

theorem keeps_setGroups {s0 s : State} (h : Keeps s0 s) (a1 a2) : Keeps s0 (setGroups s a1 a2) := by
  unfold setGroups
  with_reducible repeat' first
    | assumption | intro _ | apply Keeps.foldl | apply keeps_switchDom

theorem keeps_zeroPart {s0 s : State} (h : Keeps s0 s) (a1 a2) : Keeps s0 (zeroPart s a1 a2) := by
  unfold zeroPart; dsimp only
  with_reducible repeat' first
    | assumption | intro _ | apply Keeps.ite | apply Keeps.foldl | apply keeps_zeroRange

theorem keeps_stopTraceIn {s0 s : State} (h : Keeps s0 s) (a1) : Keeps s0 (stopTraceIn s a1) := by
  unfold stopTraceIn; dsimp only
  with_reducible repeat' first
    | assumption | apply Keeps.ite | apply keeps_putTrace

theorem keeps_forceBit {s0 s : State} (h : Keeps s0 s) (a1 a2) : Keeps s0 (forceBit s a1 a2) := by
  unfold forceBit; dsimp only
  with_reducible repeat' first
    | assumption | apply Keeps.ite | apply keeps_putSettings

theorem keeps_clearPartCtrs {s0 s : State} (h : Keeps s0 s) (a1 a2) : Keeps s0 (clearPartCtrs s a1 a2) := by
  unfold clearPartCtrs; dsimp only
  with_reducible repeat' first
    | assumption | intro _ | apply Keeps.foldl | apply keeps_clearCtrs

theorem keeps_loadCore {s0 s : State} (h : Keeps s0 s) (a1) : Keeps s0 (loadCore s a1) := by
  unfold loadCore
  with_reducible repeat' first
    | assumption | apply keeps_putSched | (refine Keeps.upd ?_ ..; assumption)

theorem keeps_finishForm {s0 s : State} (h : Keeps s0 s) (a1) : Keeps s0 (finishForm s a1) := by
  unfold finishForm; dsimp only
  with_reducible repeat' first
    | assumption | intro _ | apply Keeps.ite | apply Keeps.foldl | apply keeps_forceBit | apply keeps_ownCounter
    | apply keeps_putPart | apply keeps_loadCore | apply keeps_clearPartCtrs

theorem keeps_beginForm {s0 s : State} (h : Keeps s0 s) (a1 a2) : Keeps s0 (beginForm s a1 a2) := by
  unfold beginForm; dsimp only
  with_reducible repeat' first
    | assumption | intro _ | apply Keeps.foldl | apply keeps_freeTrailSlots | apply keeps_dropPlans
    | apply keeps_stopTraceIn | apply keeps_takeSettings | apply keeps_putPart | apply keeps_zeroPart
    | apply keeps_setGroups | apply keeps_discardTile | apply keeps_putUnits | apply keeps_finishForm
    | apply keeps_forceBit

theorem keeps_formCmd {s0 s : State} (h : Keeps s0 s) (a1) : Keeps s0 (formCmd s a1) := by
  unfold formCmd; dsimp only
  with_reducible repeat' first
    | assumption | apply Keeps.ite | apply keeps_beginForm | apply keeps_refuseCmd

theorem keeps_execForm {s0 s : State} (h : Keeps s0 s) (a1) : Kept s0 (execForm a1 s) := by
  unfold execForm
  with_reducible repeat' first
    | assumption | apply Kept.of_next | apply keeps_formCmd

theorem keeps_takeSnapshots {s0 s : State} (h : Keeps s0 s) (a1) : Keeps s0 (takeSnapshots s a1) := by
  unfold takeSnapshots; dsimp only
  with_reducible repeat' first
    | assumption | apply keeps_takeSettings | apply keeps_putPart

theorem keeps_wakeGroups {s0 s : State} (h : Keeps s0 s) (a1) : Keeps s0 (wakeGroups s a1) := by
  unfold wakeGroups
  with_reducible repeat' first
    | assumption | intro _ | apply Keeps.foldl | apply keeps_wakeDomain

theorem keeps_dropOrdinals {s0 s : State} (h : Keeps s0 s) (a1 a2) : Keeps s0 (dropOrdinals s a1 a2) := by
  unfold dropOrdinals
  with_reducible repeat' first
    | assumption | apply keeps_putLft

theorem keeps_unaskPreempt {s0 s : State} (h : Keeps s0 s) (a1 a2) : Keeps s0 (unaskPreempt a1 s a2) := by
  unfold unaskPreempt
  with_reducible repeat' first
    | assumption | apply keeps_putPart

theorem keeps_endQuiesce {s0 s : State} (h : Keeps s0 s) : Keeps s0 (endQuiesce s) := by
  unfold endQuiesce
  with_reducible repeat' first
    | assumption | intro _ | apply Keeps.foldl | apply keeps_unaskPreempt | apply keeps_putFront

theorem keeps_dropDelivered {s0 s : State} (h : Keeps s0 s) (a1) : Keeps s0 (dropDelivered s a1) := by
  unfold dropDelivered
  with_reducible repeat' first
    | assumption | apply keeps_putMemErr

theorem keeps_startJob {s0 s : State} (h : Keeps s0 s) (a1 a2) : Keeps s0 (startJob s a1 a2) := by
  unfold startJob; dsimp only
  with_reducible repeat' first
    | assumption | apply keeps_freeTrailSlots | apply keeps_updFresh | apply keeps_takeSettings
    | apply keeps_retrForget | apply keeps_putRetr | apply keeps_putPart | apply keeps_dropOrdinals
    | apply keeps_clearPartials | apply keeps_dropDelivered | apply keeps_endQuiesce | apply keeps_placeStart
    | apply keeps_takeSnapshots | apply keeps_wakeGroups

theorem keeps_startTables {s0 s : State} (h : Keeps s0 s) (a1) : Keeps s0 (startTables a1 s) := by
  unfold startTables; dsimp only
  with_reducible repeat' first
    | assumption | apply Keeps.ite | apply keeps_readUpdTable | apply keeps_refuseCmd | apply keeps_loadTable
    | apply keeps_startJob | split

theorem keeps_startCmd {s0 s : State} (h : Keeps s0 s) (a1) : Keeps s0 (startCmd s a1) := by
  unfold startCmd
  with_reducible repeat' first
    | assumption | intro _ | apply Keeps.ite | apply keeps_refuseCmd | apply keeps_atDoorbell
    | apply keeps_startTables

theorem keeps_execStart {s0 s : State} (h : Keeps s0 s) (a1) : Kept s0 (execStart a1 s) := by
  unfold execStart
  with_reducible repeat' first
    | assumption | apply Kept.of_next | apply keeps_startCmd

theorem keeps_dropUnaccepted {s0 s : State} (h : Keeps s0 s) (a1) : Keeps s0 (dropUnaccepted s a1) := by
  unfold dropUnaccepted
  with_reducible repeat' first
    | assumption | apply Keeps.ite | apply keeps_putLft

theorem keeps_dropSignals {s0 s : State} (h : Keeps s0 s) (a1) : Keeps s0 (dropSignals s a1) := by
  unfold dropSignals
  with_reducible repeat' first
    | assumption | apply keeps_putSync

theorem keeps_landSignals {s0 s : State} (h : Keeps s0 s) (a1) : Keeps s0 (landSignals s a1) := by
  unfold landSignals
  with_reducible repeat' first
    | assumption | intro _ | apply Keeps.foldl | apply keeps_hubApply | apply keeps_dropSignals

theorem keeps_dropWork {s0 s : State} (h : Keeps s0 s) (a1) : Keeps s0 (dropWork s a1) := by
  unfold dropWork
  with_reducible repeat' first
    | assumption | intro _ | apply Keeps.foldl | apply keeps_dropDoorbells

theorem keeps_stopWork {s0 s : State} (h : Keeps s0 s) (a1) : Keeps s0 (stopWork s a1) := by
  unfold stopWork; dsimp only
  with_reducible repeat' first
    | assumption | apply keeps_maskAbandon | apply keeps_retrAbandon | apply keeps_houndAbandon
    | apply keeps_cancelItems | apply keeps_dropUnaccepted | apply keeps_updAbandon | apply keeps_dropWork
    | apply keeps_putSync | split

theorem keeps_stopAtOnce {s0 s : State} (h : Keeps s0 s) (a1) : Keeps s0 (stopAtOnce s a1) := by
  unfold stopAtOnce; dsimp only
  with_reducible repeat' first
    | assumption | apply Keeps.ite | apply keeps_stopWork | apply keeps_landSignals | apply keeps_dropSignals

theorem keeps_stopPart {s0 s : State} (h : Keeps s0 s) (a1) : Keeps s0 (stopPart s a1) := by
  unfold stopPart; dsimp only
  with_reducible repeat' first
    | assumption | intro _ | apply Keeps.foldl | apply keeps_retrWriteBack | apply keeps_placeStop
    | apply keeps_stopAtOnce | apply keeps_freeTrailSlots | apply keeps_updFresh | apply keeps_discardTile
    | apply keeps_loadCore | apply keeps_orphanAll | apply keeps_ownCounter | apply keeps_putLft
    | apply keeps_dropOrdinals | apply keeps_wakeGroups | apply keeps_putPart

theorem keeps_stopCmd {s0 s : State} (h : Keeps s0 s) (a1) : Keeps s0 (stopCmd s a1) := by
  unfold stopCmd
  with_reducible repeat' first
    | assumption | apply Keeps.ite | apply keeps_stopPart | apply keeps_refuseCmd | split

theorem keeps_execStop {s0 s : State} (h : Keeps s0 s) (a1) : Kept s0 (execStop a1 s) := by
  unfold execStop
  with_reducible repeat' first
    | assumption | apply Kept.of_next | apply keeps_stopCmd

theorem keeps_askPreempt {s0 s : State} (h : Keeps s0 s) (a1 a2) : Keeps s0 (askPreempt s a1 a2) := by
  unfold askPreempt; dsimp only
  with_reducible repeat' first
    | assumption | apply Keeps.ite | apply keeps_putPart

theorem keeps_tryPreempt {s0 s : State} (h : Keeps s0 s) (a1) : Keeps s0 (tryPreempt s a1) := by
  unfold tryPreempt; dsimp only
  with_reducible repeat' first
    | assumption | apply Keeps.ite | apply keeps_putPart | apply keeps_addCtr

theorem keeps_preemptCmd {s0 s : State} (h : Keeps s0 s) (a1) : Keeps s0 (preemptCmd s a1) := by
  unfold preemptCmd
  with_reducible repeat' first
    | assumption | apply Keeps.ite | apply keeps_tryPreempt | apply keeps_wakeGroups | apply keeps_askPreempt
    | apply keeps_refuseCmd

theorem keeps_execPreempt {s0 s : State} (h : Keeps s0 s) (a1) : Kept s0 (execPreempt a1 s) := by
  unfold execPreempt
  with_reducible repeat' first
    | assumption | apply Kept.of_next | apply keeps_preemptCmd

theorem keeps_resumePart {s0 s : State} (h : Keeps s0 s) (a1) : Keeps s0 (resumePart s a1) := by
  unfold resumePart; dsimp only
  with_reducible repeat' first
    | assumption | apply keeps_resumeItems | apply keeps_wakeGroups | apply keeps_putPart

theorem keeps_resumeCmd {s0 s : State} (h : Keeps s0 s) (a1) : Keeps s0 (resumeCmd s a1) := by
  unfold resumeCmd
  with_reducible repeat' first
    | assumption | apply Keeps.ite | apply keeps_endQuiesce | apply keeps_resumePart | apply keeps_refuseCmd

theorem keeps_execResume {s0 s : State} (h : Keeps s0 s) (a1) : Kept s0 (execResume a1 s) := by
  unfold execResume
  with_reducible repeat' first
    | assumption | apply Kept.of_next | apply keeps_resumeCmd

theorem keeps_restartCmd {s0 s : State} (h : Keeps s0 s) (a1) : Keeps s0 (restartCmd s a1) := by
  unfold restartCmd; dsimp only
  with_reducible repeat' first
    | assumption | apply Keeps.ite | apply keeps_freshFree | apply keeps_addCause | apply keeps_wakeGroups
    | apply keeps_refuseCmd | apply keeps_putPart | apply keeps_endQuiesce | split

theorem keeps_execRestart {s0 s : State} (h : Keeps s0 s) (a1) : Kept s0 (execRestart a1 s) := by
  unfold execRestart
  with_reducible repeat' first
    | assumption | apply Kept.of_next | apply keeps_restartCmd

theorem keeps_dissolvePart {s0 s : State} (h : Keeps s0 s) (a1) : Keeps s0 (dissolvePart s a1) := by
  unfold dissolvePart; dsimp only
  with_reducible repeat' first
    | assumption | intro _ | apply Keeps.foldl | apply keeps_dropSignals | apply keeps_stopWork
    | apply keeps_orphanAll | apply keeps_releaseCounter | apply keeps_freeTrailSlots | apply keeps_dropPlans
    | apply keeps_updForget | apply keeps_retrForget | apply keeps_discardTile | apply keeps_putPlace
    | apply keeps_takeSettings | apply keeps_putPart | apply keeps_setGroups

theorem keeps_dissolveCmd {s0 s : State} (h : Keeps s0 s) (a1) : Keeps s0 (dissolveCmd s a1) := by
  unfold dissolveCmd
  with_reducible repeat' first
    | assumption | apply Keeps.ite | apply keeps_dissolvePart | apply keeps_refuseCmd

theorem keeps_execDissolve {s0 s : State} (h : Keeps s0 s) (a1) : Kept s0 (execDissolve a1 s) := by
  unfold execDissolve
  with_reducible repeat' first
    | assumption | apply Kept.of_next | apply keeps_dissolveCmd

theorem keeps_partCommand {s0 s : State} (h : Keeps s0 s) (a1 a2) : Keeps s0 (partCommand s a1 a2) := by
  unfold partCommand
  with_reducible repeat' first
    | assumption | apply keeps_formCmd | apply keeps_startCmd | apply keeps_stopCmd | apply keeps_preemptCmd
    | apply keeps_resumeCmd | apply keeps_restartCmd | apply keeps_dissolveCmd | apply keeps_refuseCmd | split

theorem keeps_dropTile {s0 s : State} (h : Keeps s0 s) (a1) : Keeps s0 (dropTile s a1) := by
  unfold dropTile; dsimp only
  with_reducible repeat' first
    | assumption | apply Keeps.ite | apply keeps_takeSettings | apply keeps_putUnits

theorem keeps_openSwitches {s0 s : State} (h : Keeps s0 s) (a1) : Keeps s0 (openSwitches s a1) := by
  unfold openSwitches; dsimp only
  with_reducible repeat' first
    | assumption | intro _ | apply Keeps.foldl | apply keeps_putUnits

theorem keeps_startRetirements {s0 s : State} (h : Keeps s0 s) (a1) : Keeps s0 (startRetirements s a1) := by
  unfold startRetirements; dsimp only
  with_reducible repeat' first
    | assumption | intro _ | apply Keeps.ite | apply Keeps.foldl | apply keeps_freshFree | apply keeps_dropTile
    | apply keeps_addCause | apply keeps_putPart

theorem keeps_passBoundary {s0 s : State} (h : Keeps s0 s) (a1) : Keeps s0 (passBoundary s a1) := by
  unfold passBoundary; dsimp only
  with_reducible repeat' first
    | assumption | intro _ | apply Keeps.ite | apply Keeps.foldl | apply keeps_placeBoundary
    | apply keeps_retrBoundary | apply keeps_updBoundary | apply keeps_reloadTable | apply keeps_clearSum
    | apply keeps_putLft | apply keeps_dropOrdinals | apply keeps_takeSettings | apply keeps_putPart
    | apply keeps_beginTrail | apply keeps_freeTrailSlots | apply keeps_takeSnapshots | apply keeps_tryPreempt
    | apply keeps_startRetirements

theorem keeps_execStepBoundary {s0 s : State} (h : Keeps s0 s) (a1) : Kept s0 (execStepBoundary a1 s) := by
  unfold execStepBoundary; dsimp only
  with_reducible repeat' first
    | assumption | apply Kept.of_next | intro _ | apply Kept.ite | apply Keeps.ite | apply keeps_onceLevels
    | apply keeps_passBoundary

theorem keeps_holdPart {s0 s : State} (h : Keeps s0 s) (a1 a2) : Keeps s0 (holdPart s a1 a2) := by
  unfold holdPart; dsimp only
  with_reducible repeat' first
    | assumption | intro _ | apply Keeps.ite | apply Keeps.foldl | apply keeps_placeAbandon
    | apply keeps_stopWork | apply keeps_landSignals | apply keeps_cancelWatches | apply keeps_putTile
    | apply keeps_putPart | apply keeps_raise | apply keeps_addCtr

theorem keeps_restartItem {s0 s : State} (h : Keeps s0 s) (a1) : Keeps s0 (restartItem s a1) := by
  unfold restartItem; dsimp only
  with_reducible repeat' first
    | assumption | apply Keeps.ite | apply keeps_enqueue | apply keeps_putPart

theorem keeps_beginReplay {s0 s : State} (h : Keeps s0 s) (a1) : Keeps s0 (beginReplay a1 s) := by
  unfold beginReplay; dsimp only
  with_reducible repeat' first
    | assumption | apply Keeps.ite | apply keeps_addCtr | apply keeps_restartItem | apply keeps_placeStart
    | apply keeps_putPart | apply keeps_dropDelivered

theorem keeps_rollBack {s0 s : State} (h : Keeps s0 s) (a1) : Keeps s0 (rollBack a1 s) := by
  unfold rollBack; dsimp only
  with_reducible repeat' first
    | assumption | intro _ | apply Keeps.foldl | apply keeps_landSignals | apply keeps_addBias
    | apply keeps_cancelWatches | apply keeps_undoReplay | apply keeps_freeTrailSlots
    | apply keeps_clearPartials | apply keeps_retrRestart | apply keeps_dropOrdinals | apply keeps_discardTile
    | apply keeps_putPart | apply keeps_openSwitches

theorem keeps_finishRestart {s0 s : State} (h : Keeps s0 s) (a1) : Keeps s0 (finishRestart s a1) := by
  unfold finishRestart; dsimp only
  with_reducible repeat' first
    | assumption | intro _ | apply Keeps.ite | apply keeps_holdPart | apply keeps_onceLevels
    | apply keeps_rollBack | apply keeps_onceRead | apply keeps_beginReplay

theorem keeps_restartPart {s0 s : State} (h : Keeps s0 s) (a1 a2) : Keeps s0 (restartPart s a1 a2) := by
  unfold restartPart; dsimp only
  with_reducible repeat' first
    | assumption | apply Keeps.ite | apply keeps_raise | apply keeps_addCtr | apply keeps_putPart
    | apply keeps_placeRestart | apply keeps_stopWork | apply keeps_holdPart | apply keeps_finishRestart | split

theorem keeps_actOnCauses {s0 s : State} (h : Keeps s0 s) (a1) : Keeps s0 (actOnCauses s a1) := by
  unfold actOnCauses; dsimp only
  with_reducible repeat' first
    | assumption | apply Keeps.ite | apply keeps_putPart | apply keeps_holdPart | apply keeps_restartPart
    | split

theorem keeps_execPartitionRestart {s0 s : State} (h : Keeps s0 s) (a1) : Kept s0 (execPartitionRestart a1 s) := by
  unfold execPartitionRestart
  with_reducible repeat' first
    | assumption | apply Kept.of_next | apply keeps_finishRestart | apply keeps_actOnCauses

end Sys2Proof.Machine
end

