-- ==== Sys2Proof/Laws/KeepsUnits.lean ====
section
/-! SUPPORT. Laws/KeepsUnits.lean: the functions of Machine/Units.lean keep the invariant and the queue. -/

set_option linter.unusedTactic false
set_option linter.unreachableTactic false

namespace Sys2Proof.Machine

theorem keeps_advanceTag {s0 s : State} (h : Keeps s0 s) (a1) : Keeps s0 (advanceTag s a1) := by
  unfold advanceTag
  with_reducible repeat' first
    | assumption | apply Keeps.ite | apply keeps_putUnits

theorem keeps_setPool {s0 s : State} (h : Keeps s0 s) (a1 a2) : Keeps s0 (setPool s a1 a2) := by
  unfold setPool; dsimp only
  with_reducible repeat' first
    | assumption | apply Keeps.ite | apply keeps_putUnits

theorem keeps_powerSpare {s0 s : State} (h : Keeps s0 s) (a1 a2) : Keeps s0 (powerSpare s a1 a2) := by
  unfold powerSpare
  with_reducible repeat' first
    | assumption | apply Keeps.ite | apply keeps_switchDom

theorem keeps_retirePhys {s0 s : State} (h : Keeps s0 s) (a1) : Keeps s0 (retirePhys s a1) := by
  unfold retirePhys; dsimp only
  with_reducible repeat' first
    | assumption | apply keeps_setPool | apply keeps_putUnits | apply keeps_putDap | apply keeps_raise
    | apply keeps_powerSpare

theorem keeps_takeReplacement {s0 s : State} (h : Keeps s0 s) (a1 a2) : Keeps s0 (takeReplacement s a1 a2).1 := by
  unfold takeReplacement; dsimp only
  with_reducible repeat' first
    | assumption | apply Keeps.ite | apply Keeps.ite_fst | apply keeps_putUnits | apply keeps_powerSpare
    | apply keeps_setPool | apply keeps_zeroRange | apply keeps_raise | apply keeps_discardTile | split
    | dsimp only

theorem keeps_serveOwed {s0 s : State} (h : Keeps s0 s) (a1) : Keeps s0 (serveOwed s a1) := by
  unfold serveOwed; dsimp only
  with_reducible repeat' first
    | assumption | intro _ | apply Keeps.ite | apply Keeps.foldl | apply keeps_takeReplacement
    | apply keeps_putUnits | apply keeps_finishForm

theorem keeps_execReplacementReady {s0 s : State} (h : Keeps s0 s) (a1) : Kept s0 (execReplacementReady a1 s) := by
  unfold execReplacementReady; dsimp only
  with_reducible repeat' first
    | assumption | apply Kept.of_next | apply Kept.ite | apply Keeps.ite | apply keeps_takeReplacement
    | apply keeps_putPart | apply keeps_addCtr | apply keeps_finishRestart | apply keeps_addHold
    | apply keeps_raise | split

theorem keeps_loseUnit {s0 s : State} (h : Keeps s0 s) (a1 a2) : Keeps s0 (loseUnit s a1 a2) := by
  unfold loseUnit; dsimp only
  with_reducible repeat' first
    | assumption | intro _ | apply Keeps.ite | apply Keeps.foldl | apply keeps_putPart | apply keeps_dropTile
    | apply keeps_putUnits | apply keeps_advanceTag | apply keeps_addHold | split

theorem keeps_declareDead {s0 s : State} (h : Keeps s0 s) (a1) : Keeps s0 (declareDead s a1) := by
  unfold declareDead; dsimp only
  with_reducible repeat' first
    | assumption | intro _ | apply Keeps.ite | apply Keeps.foldl | apply keeps_raise | apply keeps_putUnits
    | apply keeps_addCause | apply keeps_loseUnit

theorem keeps_execHealthProbe {s0 s : State} (h : Keeps s0 s) (a1 a2) : Kept s0 (execHealthProbe a1 a2 s) := by
  unfold execHealthProbe; dsimp only
  with_reducible repeat' first
    | assumption | apply Kept.of_next | apply Kept.ite | apply Keeps.ite | apply keeps_takeSettings
    | apply keeps_putUnits | apply keeps_declareDead

theorem keeps_retireRequest {s0 s : State} (h : Keeps s0 s) (a1) : Keeps s0 (retireRequest s a1) := by
  unfold retireRequest
  with_reducible repeat' first
    | assumption | apply Keeps.ite | apply keeps_putPart | apply keeps_openSwitches
    | apply keeps_takeReplacement | apply keeps_dropTile | split

theorem keeps_execRetireRequest {s0 s : State} (h : Keeps s0 s) (a1) : Kept s0 (execRetireRequest a1 s) := by
  unfold execRetireRequest
  with_reducible repeat' first
    | assumption | apply Kept.of_next | apply keeps_retireRequest

theorem keeps_testPool {s0 s : State} (h : Keeps s0 s) (a1) : Keeps s0 (testPool s a1) := by
  unfold testPool
  with_reducible repeat' first
    | assumption | apply Keeps.ite | apply keeps_powerSpare | apply keeps_putUnits

theorem keeps_execTestRequest {s0 s : State} (h : Keeps s0 s) (a1) : Kept s0 (execTestRequest a1 s) := by
  unfold execTestRequest
  with_reducible repeat' first
    | assumption | apply Kept.of_next | apply keeps_testPool

theorem keeps_execPoolTestTimer {s0 s : State} (h : Keeps s0 s) (a1) : Kept s0 (execPoolTestTimer a1 s) := by
  unfold execPoolTestTimer
  with_reducible repeat' first
    | assumption | apply Kept.of_next | intro _ | apply Keeps.foldl | apply keeps_testPool

theorem keeps_tileTested {s0 s : State} (h : Keeps s0 s) (a1 a2) : Keeps s0 (tileTested s a1 a2) := by
  unfold tileTested; dsimp only
  with_reducible repeat' first
    | assumption | apply Keeps.ite | apply keeps_putUnits | apply keeps_stepDone | apply keeps_addCtr
    | apply keeps_takeReplacement | apply keeps_retirePhys | apply keeps_finishForm | apply keeps_serveOwed
    | apply keeps_powerSpare | apply keeps_setPool | split

theorem keeps_execSelfTestDone {s0 s : State} (h : Keeps s0 s) (a1 a2) : Kept s0 (execSelfTestDone a1 a2 s) := by
  unfold execSelfTestDone; dsimp only
  with_reducible repeat' first
    | assumption | apply Kept.of_next | apply Kept.ite | apply Keeps.ite | apply keeps_tileTested
    | apply keeps_putUnits | apply keeps_raise

end Sys2Proof.Machine
end

