-- ==== Sys2Proof/Laws/KeepsFirmware.lean ====
section
/-! SUPPORT. Laws/KeepsFirmware.lean: the functions of Machine/Firmware.lean keep the invariant and the queue. -/

set_option linter.unusedTactic false
set_option linter.unreachableTactic false

namespace Sys2Proof.Machine

theorem keeps_putFw {s0 s : State} (h : Keeps s0 s) (a1) : Keeps s0 (putFw s a1) := by
  unfold putFw
  with_reducible repeat' first
    | assumption | (refine Keeps.upd ?_ ..; assumption)

theorem keeps_putSession {s0 s : State} (h : Keeps s0 s) (a1) : Keeps s0 (putSession s a1) := by
  unfold putSession
  with_reducible repeat' first
    | assumption | apply Keeps.ite | apply keeps_putDap

theorem keeps_refuseUpdate {s0 s : State} (h : Keeps s0 s) (a1) : Keeps s0 (refuseUpdate s a1) := by
  unfold refuseUpdate
  with_reducible repeat' first
    | assumption | apply keeps_raise | apply keeps_putFw

theorem keeps_setSlotState {s0 s : State} (h : Keeps s0 s) (a1 a2) : Keeps s0 (setSlotState s a1 a2) := by
  unfold setSlotState
  with_reducible repeat' first
    | assumption | apply keeps_putFw

theorem keeps_emptySlot {s0 s : State} (h : Keeps s0 s) (a1) : Keeps s0 (emptySlot s a1) := by
  unfold emptySlot
  with_reducible repeat' first
    | assumption | apply keeps_setSlotState | apply keeps_putFw

theorem keeps_fwBegin {s0 s : State} (h : Keeps s0 s) (a1 a2 a3) : Keeps s0 (fwBegin s a1 a2 a3).1 := by
  unfold fwBegin
  with_reducible repeat' first
    | assumption | apply Keeps.ite | apply Keeps.ite_fst | apply keeps_refuseUpdate | apply keeps_setSlotState
    | apply keeps_putFw | split | dsimp only

theorem keeps_fwBlock {s0 s : State} (h : Keeps s0 s) (a1 a2 a3 a4 a5) : Keeps s0 (fwBlock s a1 a2 a3 a4 a5).1 := by
  unfold fwBlock; dsimp only
  with_reducible repeat' first
    | assumption | apply Keeps.ite | apply Keeps.ite_fst | apply keeps_refuseUpdate | apply keeps_putFw | split
    | dsimp only

theorem keeps_fwManifest {s0 s : State} (h : Keeps s0 s) (a1 a2) : Keeps s0 (fwManifest s a1 a2).1 := by
  unfold fwManifest
  with_reducible repeat' first
    | assumption | apply Keeps.ite | apply Keeps.ite_fst | apply keeps_putFw | split | dsimp only

theorem keeps_handover {s0 s : State} (h : Keeps s0 s) : Keeps s0 (handover s) := by
  unfold handover
  with_reducible repeat' first
    | assumption | apply Keeps.ite | apply keeps_refuseUpdate | apply keeps_putFw

theorem keeps_fwActivate {s0 s : State} (h : Keeps s0 s) (a1 a2) : Keeps s0 (fwActivate s a1 a2).1 := by
  unfold fwActivate
  with_reducible repeat' first
    | assumption | apply Keeps.ite | apply Keeps.ite_fst | apply keeps_refuseUpdate | apply keeps_setSlotState
    | apply keeps_putFw | apply keeps_handover | split | dsimp only

theorem keeps_dropUpdate {s0 s : State} (h : Keeps s0 s) : Keeps s0 (dropUpdate s) := by
  unfold dropUpdate
  with_reducible repeat' first
    | assumption | apply keeps_emptySlot | apply keeps_putFw

theorem keeps_fwAbort {s0 s : State} (h : Keeps s0 s) (a1 a2) : Keeps s0 (fwAbort s a1 a2).1 := by
  unfold fwAbort
  with_reducible repeat' first
    | assumption | apply Keeps.ite | apply Keeps.ite_fst | apply keeps_dropUpdate | split | dsimp only

theorem keeps_execFwUpdateBegin {s0 s : State} (h : Keeps s0 s) (a1 a2 a3) : Kept s0 (execFwUpdateBegin a1 a2 a3 s) := by
  unfold execFwUpdateBegin
  with_reducible repeat' first
    | assumption | apply Kept.of_next | apply Kept.ite | apply Keeps.ite | apply keeps_fwBegin

theorem keeps_execFwUpdateBlock {s0 s : State} (h : Keeps s0 s) (a1 a2 a3 a4 a5) : Kept s0 (execFwUpdateBlock a1 a2 a3 a4 a5 s) := by
  unfold execFwUpdateBlock
  with_reducible repeat' first
    | assumption | apply Kept.of_next | apply Kept.ite | apply Keeps.ite | apply keeps_fwBlock

theorem keeps_execFwUpdateManifest {s0 s : State} (h : Keeps s0 s) (a1 a2) : Kept s0 (execFwUpdateManifest a1 a2 s) := by
  unfold execFwUpdateManifest
  with_reducible repeat' first
    | assumption | apply Kept.of_next | apply Kept.ite | apply Keeps.ite | apply keeps_fwManifest

theorem keeps_execFwUpdateActivate {s0 s : State} (h : Keeps s0 s) (a1 a2) : Kept s0 (execFwUpdateActivate a1 a2 s) := by
  unfold execFwUpdateActivate
  with_reducible repeat' first
    | assumption | apply Kept.of_next | apply Kept.ite | apply Keeps.ite | apply keeps_fwActivate

theorem keeps_execFwUpdateAbort {s0 s : State} (h : Keeps s0 s) (a1 a2) : Kept s0 (execFwUpdateAbort a1 a2 s) := by
  unfold execFwUpdateAbort
  with_reducible repeat' first
    | assumption | apply Kept.of_next | apply Kept.ite | apply Keeps.ite | apply keeps_fwAbort

theorem keeps_execFwBlockProgrammed {s0 s : State} (h : Keeps s0 s) : Kept s0 (execFwBlockProgrammed s) := by
  unfold execFwBlockProgrammed
  with_reducible repeat' first
    | assumption | apply Kept.of_next | apply keeps_putFw | split

theorem keeps_rejectImage {s0 s : State} (h : Keeps s0 s) (a1 a2 a3) : Keeps s0 (rejectImage s a1 a2 a3) := by
  unfold rejectImage
  with_reducible repeat' first
    | assumption | apply Keeps.ite | apply keeps_raise | apply keeps_setSlotState

theorem keeps_execFwVerifyDone {s0 s : State} (h : Keeps s0 s) : Kept s0 (execFwVerifyDone s) := by
  unfold execFwVerifyDone; dsimp only
  with_reducible repeat' first
    | assumption | apply Kept.of_next | apply Kept.ite | apply Keeps.ite | apply keeps_setSlotState
    | apply keeps_putFw | apply keeps_handover | apply keeps_rejectImage | split

theorem keeps_endSessions {s0 s : State} (h : Keeps s0 s) : Keeps s0 (endSessions s) := by
  unfold endSessions; dsimp only
  with_reducible repeat' first
    | assumption | apply Keeps.ite | apply keeps_dropUpdate | apply keeps_putDap

theorem keeps_runSlot {s0 s : State} (h : Keeps s0 s) (a1) : Keeps s0 (runSlot s a1) := by
  unfold runSlot; dsimp only
  with_reducible repeat' first
    | assumption | apply keeps_putFw

theorem keeps_execFwActivation {s0 s : State} (h : Keeps s0 s) : Kept s0 (execFwActivation s) := by
  unfold execFwActivation; dsimp only
  with_reducible repeat' first
    | assumption | apply Kept.of_next | apply Kept.ite | apply Keeps.ite | apply keeps_putFw
    | apply keeps_putDev | apply keeps_switchDom | apply keeps_endSessions | apply keeps_runSlot
    | apply keeps_raise

theorem keeps_fuseEffect {s0 s : State} (h : Keeps s0 s) (a1 a2 a3) : Keeps s0 (fuseEffect s a1 a2 a3) := by
  unfold fuseEffect; dsimp only
  with_reducible repeat' first
    | assumption | intro _ | apply Keeps.ite | apply Keeps.foldl | apply keeps_retirePhys | apply keeps_putDap
    | apply keeps_switchDom | apply keeps_putTrace | split

theorem keeps_programFuse {s0 s : State} (h : Keeps s0 s) (a1 a2 a3) : Keeps s0 (programFuse s a1 a2 a3).1 := by
  unfold programFuse; dsimp only
  with_reducible repeat' first
    | assumption | apply Keeps.ite | apply Keeps.ite_fst | apply keeps_putDap | apply keeps_freshFree
    | apply keeps_putSettings | apply keeps_fuseEffect | apply keeps_raise | split | dsimp only

theorem keeps_execModuleRemapWrite {s0 s : State} (h : Keeps s0 s) (a1) : Kept s0 (execModuleRemapWrite a1 s) := by
  unfold execModuleRemapWrite; dsimp only
  with_reducible repeat' first
    | assumption | apply Kept.of_next | apply Kept.ite | apply Keeps.ite | apply keeps_putDap
    | apply keeps_programFuse | split

theorem keeps_execFlashSettingsProgram {s0 s : State} (h : Keeps s0 s) : Kept s0 (execFlashSettingsProgram s) := by
  unfold execFlashSettingsProgram
  with_reducible repeat' first
    | assumption | apply Kept.of_next | apply Kept.ite | apply Keeps.ite | apply keeps_addCtr
    | apply keeps_putSettings

theorem keeps_attNonce {s0 s : State} (h : Keeps s0 s) (a1 a2) : Keeps s0 (attNonce s a1 a2) := by
  unfold attNonce
  with_reducible repeat' first
    | assumption | apply keeps_putSession | split

theorem keeps_execAttNonce {s0 s : State} (h : Keeps s0 s) (a1 a2) : Kept s0 (execAttNonce a1 a2 s) := by
  unfold execAttNonce
  with_reducible repeat' first
    | assumption | apply Kept.of_next | apply keeps_attNonce

theorem keeps_execAttReportBuilt {s0 s : State} (h : Keeps s0 s) (a1 a2) : Kept s0 (execAttReportBuilt a1 a2 s) := by
  unfold execAttReportBuilt; dsimp only
  with_reducible repeat' first
    | assumption | apply Kept.of_next | apply Kept.ite | apply Keeps.ite | apply keeps_putSession | split

end Sys2Proof.Machine
end

