-- ==== Sys2Proof/Laws/KeepsPorts.lean ====
section
/-! SUPPORT. Laws/KeepsPorts.lean: the functions of Machine/Ports.lean keep the invariant and the queue. -/

set_option linter.unusedTactic false
set_option linter.unreachableTactic false

namespace Sys2Proof.Machine

theorem keeps_portCtr {s0 s : State} (h : Keeps s0 s) (a1 a2 a3) : Keeps s0 (portCtr s a1 a2 a3) := by
  unfold portCtr
  with_reducible repeat' first
    | assumption | apply keeps_addCtr

theorem keeps_execLinkUp {s0 s : State} (h : Keeps s0 s) (a1) : Kept s0 (execLinkUp a1 s) := by
  unfold execLinkUp; dsimp only
  with_reducible repeat' first
    | assumption | apply Kept.of_next | intro _ | apply Kept.ite | apply Keeps.ite | apply Keeps.foldl
    | apply keeps_wakeDomain | apply keeps_putPorts | apply keeps_stepDone | apply keeps_raise
    | apply keeps_sendHello | apply keeps_setPeerState

theorem keeps_linkLost {s0 s : State} (h : Keeps s0 s) (a1) : Keeps s0 (linkLost s a1) := by
  unfold linkLost; dsimp only
  with_reducible repeat' first
    | assumption | intro _ | apply Keeps.ite | apply Keeps.foldl | apply keeps_putPorts | apply keeps_portCtr
    | apply keeps_raise | apply keeps_removePath | apply keeps_setPeerState

theorem keeps_execLinkDown {s0 s : State} (h : Keeps s0 s) (a1) : Kept s0 (execLinkDown a1 s) := by
  unfold execLinkDown
  with_reducible repeat' first
    | assumption | apply Kept.of_next | apply keeps_linkLost | apply keeps_wakeDomain

theorem keeps_execLinkHoldExpiry {s0 s : State} (h : Keeps s0 s) (a1) : Kept s0 (execLinkHoldExpiry a1 s) := by
  unfold execLinkHoldExpiry
  with_reducible repeat' first
    | assumption | apply Kept.of_next | apply keeps_putPorts

theorem keeps_portDown {s0 s : State} (h : Keeps s0 s) (a1) : Keeps s0 (portDown s a1) := by
  unfold portDown
  with_reducible repeat' first
    | assumption | intro _ | apply Keeps.foldl | apply keeps_linkLost

theorem keeps_pfcAsk {s0 s : State} (h : Keeps s0 s) (a1 a2 a3) : Keeps s0 (pfcAsk s a1 a2 a3) := by
  unfold pfcAsk; dsimp only
  with_reducible repeat' first
    | assumption | apply Keeps.ite | apply keeps_portCtr | apply keeps_putPorts

theorem keeps_execFrameReceived {s0 s : State} (h : Keeps s0 s) (a1 a2 a3) : Kept s0 (execFrameReceived a1 a2 a3 s) := by
  unfold execFrameReceived; dsimp only
  with_reducible repeat' first
    | assumption | apply Kept.of_next | apply Kept.ite | apply Keeps.ite | apply keeps_wakeDomain
    | apply keeps_portCtr | apply keeps_pfcAsk

theorem keeps_execPfcFrameReceived {s0 s : State} (h : Keeps s0 s) (a1 a2 a3) : Kept s0 (execPfcFrameReceived a1 a2 a3 s) := by
  unfold execPfcFrameReceived; dsimp only
  with_reducible repeat' first
    | assumption | apply Kept.of_next | intro _ | apply Kept.ite | apply Keeps.ite | apply Keeps.foldl
    | apply keeps_portCtr | apply keeps_putPorts

theorem keeps_execPfcWatchdog {s0 s : State} (h : Keeps s0 s) (a1 a2) : Kept s0 (execPfcWatchdog a1 a2 s) := by
  unfold execPfcWatchdog; dsimp only
  with_reducible repeat' first
    | assumption | apply Kept.of_next | apply Kept.ite | apply Keeps.ite | apply keeps_putPorts
    | apply keeps_raise | apply keeps_portCtr

theorem keeps_execPauseIgnoreExpiry {s0 s : State} (h : Keeps s0 s) (a1 a2) : Kept s0 (execPauseIgnoreExpiry a1 a2 s) := by
  unfold execPauseIgnoreExpiry
  with_reducible repeat' first
    | assumption | apply Kept.of_next | apply keeps_putPorts

theorem keeps_putOptic {s0 s : State} (h : Keeps s0 s) (a1 a2) : Keeps s0 (putOptic s a1 a2) := by
  unfold putOptic
  with_reducible repeat' first
    | assumption | apply keeps_putPorts

theorem keeps_refuseOptic {s0 s : State} (h : Keeps s0 s) (a1 a2 a3) : Keeps s0 (refuseOptic s a1 a2 a3) := by
  unfold refuseOptic
  with_reducible repeat' first
    | assumption | apply keeps_raise | apply keeps_putOptic

theorem keeps_selectApp {s0 s : State} (h : Keeps s0 s) (a1) : Keeps s0 (selectApp s a1) := by
  unfold selectApp; dsimp only
  with_reducible repeat' first
    | assumption | apply Keeps.ite | apply keeps_refuseOptic | apply keeps_putOptic

theorem keeps_execOpticInserted {s0 s : State} (h : Keeps s0 s) (a1 a2 a3 a4 a5 a6 a7) : Kept s0 (execOpticInserted a1 a2 a3 a4 a5 a6 a7 s) := by
  unfold execOpticInserted; dsimp only
  with_reducible repeat' first
    | assumption | apply Kept.of_next | apply Kept.ite | apply Keeps.ite | apply keeps_wakeDomain
    | apply keeps_selectApp | apply keeps_raise | apply keeps_putOptic

theorem keeps_execOpticRemoved {s0 s : State} (h : Keeps s0 s) (a1) : Kept s0 (execOpticRemoved a1 s) := by
  unfold execOpticRemoved; dsimp only
  with_reducible repeat' first
    | assumption | apply Kept.of_next | apply Kept.ite | apply Keeps.ite | apply keeps_portDown
    | apply keeps_wakeDomain | apply keeps_raise | apply keeps_putOptic

theorem keeps_execOpticMonitorRead {s0 s : State} (h : Keeps s0 s) (a1 a2 a3 a4 a5) : Kept s0 (execOpticMonitorRead a1 a2 a3 a4 a5 s) := by
  unfold execOpticMonitorRead; dsimp only
  with_reducible repeat' first
    | assumption | apply Kept.of_next | apply Kept.ite | apply Keeps.ite | apply keeps_wakeDomain
    | apply keeps_putOptic

theorem keeps_ethPower {s0 s : State} (h : Keeps s0 s) (a1) : Keeps s0 (ethPower s a1) := by
  unfold ethPower; dsimp only
  with_reducible repeat' first
    | assumption | apply Keeps.ite | apply keeps_switchDom | apply keeps_portDown | apply keeps_putPorts
    | apply keeps_selectApp

theorem keeps_alarmClear {s0 s : State} (h : Keeps s0 s) (a1 a2) : Keeps s0 (alarmClear s a1 a2) := by
  unfold alarmClear
  with_reducible repeat' first
    | assumption | apply Keeps.ite | apply keeps_putOptic

theorem keeps_execAlarmClear {s0 s : State} (h : Keeps s0 s) (a1 a2) : Kept s0 (execAlarmClear a1 a2 s) := by
  unfold execAlarmClear
  with_reducible repeat' first
    | assumption | apply Kept.of_next | apply keeps_alarmClear

theorem keeps_shiftTime {s0 s : State} (h : Keeps s0 s) (a1) : Keeps s0 (shiftTime s a1) := by
  unfold shiftTime; dsimp only
  with_reducible repeat' first
    | assumption | apply keeps_putTime

theorem keeps_advanceTime {s0 s : State} (h : Keeps s0 s) : Keeps s0 (advanceTime s) := by
  unfold advanceTime; dsimp only
  with_reducible repeat' first
    | assumption | apply keeps_shiftTime | apply keeps_putTime

theorem keeps_servoCorr {s0 s : State} (h : Keeps s0 s) : Keeps s0 (servoCorr s) := by
  unfold servoCorr; dsimp only
  with_reducible repeat' first
    | assumption | apply keeps_freshFree | apply keeps_putTime

theorem keeps_enterHoldover {s0 s : State} (h : Keeps s0 s) (a1) : Keeps s0 (enterHoldover s a1) := by
  unfold enterHoldover; dsimp only
  with_reducible repeat' first
    | assumption | apply keeps_putTime | apply keeps_raise

theorem keeps_enterLocked {s0 s : State} (h : Keeps s0 s) (a1) : Keeps s0 (enterLocked s a1) := by
  unfold enterLocked; dsimp only
  with_reducible repeat' first
    | assumption | apply keeps_stepDone | apply keeps_putTime | apply keeps_raise

theorem keeps_measured {s0 s : State} (h : Keeps s0 s) (a1) : Keeps s0 (measured s a1) := by
  unfold measured; dsimp only
  with_reducible repeat' first
    | assumption | apply Keeps.ite | apply keeps_putTime | apply keeps_raise | apply keeps_shiftTime
    | apply keeps_enterLocked | apply keeps_servoCorr | split

theorem keeps_putPtp {s0 s : State} (h : Keeps s0 s) (a1) : Keeps s0 (putPtp s a1) := by
  unfold putPtp
  with_reducible repeat' first
    | assumption | apply keeps_putTime

theorem keeps_ptpSend {s0 s : State} (h : Keeps s0 s) (a1 a2) : Keeps s0 (ptpSend s a1 a2) := by
  unfold ptpSend; dsimp only
  with_reducible repeat' first
    | assumption | apply Keeps.ite | apply keeps_wakeDomain | apply keeps_portCtr | split

theorem keeps_announced {s0 s : State} (h : Keeps s0 s) (a1) : Keeps s0 (announced s a1) := by
  unfold announced; dsimp only
  with_reducible repeat' first
    | assumption | apply Keeps.ite | apply keeps_putPtp | apply keeps_putTime | split

theorem keeps_askDelay {s0 s : State} (h : Keeps s0 s) (a1 a2) : Keeps s0 (askDelay s a1 a2) := by
  unfold askDelay; dsimp only
  with_reducible repeat' first
    | assumption | apply keeps_ptpSend | apply keeps_putPtp

theorem keeps_useDelay {s0 s : State} (h : Keeps s0 s) (a1) : Keeps s0 (useDelay s a1) := by
  unfold useDelay; dsimp only
  with_reducible repeat' first
    | assumption | apply keeps_putPtp | apply keeps_measured | split

theorem keeps_synced {s0 s : State} (h : Keeps s0 s) (a1 a2 a3) : Keeps s0 (synced s a1 a2 a3) := by
  unfold synced; dsimp only
  with_reducible repeat' first
    | assumption | apply Keeps.ite | apply keeps_putPtp | apply keeps_askDelay | apply keeps_useDelay | split

theorem keeps_ptpExchange {s0 s : State} (h : Keeps s0 s) (a1 a2) : Keeps s0 (ptpExchange s a1 a2) := by
  unfold ptpExchange; dsimp only
  with_reducible repeat' first
    | assumption | apply Keeps.ite | apply keeps_putPtp | apply keeps_synced | apply keeps_useDelay
    | apply keeps_ptpSend | split

theorem keeps_execPtpMessage {s0 s : State} (h : Keeps s0 s) (a1 a2) : Kept s0 (execPtpMessage a1 a2 s) := by
  unfold execPtpMessage; dsimp only
  with_reducible repeat' first
    | assumption | apply Kept.of_next | apply Kept.ite | apply Keeps.ite | apply keeps_announced
    | apply keeps_ptpExchange | split

theorem keeps_dropParent {s0 s : State} (h : Keeps s0 s) : Keeps s0 (dropParent s) := by
  unfold dropParent
  with_reducible repeat' first
    | assumption | apply keeps_putTime

theorem keeps_execAnnounceTimeout {s0 s : State} (h : Keeps s0 s) : Kept s0 (execAnnounceTimeout s) := by
  unfold execAnnounceTimeout
  with_reducible repeat' first
    | assumption | apply Kept.of_next | apply keeps_enterHoldover | apply keeps_dropParent | split

theorem keeps_execHoldoverLimit {s0 s : State} (h : Keeps s0 s) : Kept s0 (execHoldoverLimit s) := by
  unfold execHoldoverLimit; dsimp only
  with_reducible repeat' first
    | assumption | apply Kept.of_next | apply Kept.ite | apply keeps_putTime | apply keeps_raise

end Sys2Proof.Machine
end

