-- ==== Sys2Proof/Laws/KeepsBoot.lean ====
section
/-! SUPPORT. Laws/KeepsBoot.lean: the functions of Machine/Boot.lean keep the invariant and the queue. -/

set_option linter.unusedTactic false
set_option linter.unreachableTactic false

namespace Sys2Proof.Machine

theorem keeps_dropVolatile {s0 s : State} (h : Keeps s0 s) : Keeps s0 (dropVolatile s) := by
  unfold dropVolatile
  with_reducible repeat' first
    | assumption | apply keeps_putSettings | split

theorem keeps_clearAllCtrs {s0 s : State} (h : Keeps s0 s) : Keeps s0 (clearAllCtrs s) := keeps_mdropCtrs h _

theorem keeps_endService {s0 s : State} (h : Keeps s0 s) : Keeps s0 (endService s) := by
  unfold endService; dsimp only
  with_reducible repeat' first
    | assumption | intro _ | apply Keeps.ite | apply Keeps.foldl | apply keeps_finishFlash | apply keeps_putDap
    | apply keeps_emptySlot | apply keeps_putFw

theorem keeps_stampCores {s0 s : State} (h : Keeps s0 s) : Keeps s0 (stampCores s) := by
  unfold stampCores
  with_reducible repeat' first
    | assumption | intro _ | apply Keeps.foldl | apply keeps_putSched

theorem keeps_resetState {s0 s : State} (h : Keeps s0 s) : Keeps s0 (resetState s) := by
  unfold resetState; dsimp only
  with_reducible repeat' first
    | assumption | apply keeps_stampCores | apply keeps_endService | apply keeps_clearAllCtrs
    | apply keeps_dropVolatile | apply keeps_putFront

theorem keeps_failStep {s0 s : State} (h : Keeps s0 s) (a1 a2) : Keeps s0 (failStep s a1 a2) := by
  unfold failStep
  with_reducible repeat' first
    | assumption | apply Keeps.ite | apply keeps_raise | apply keeps_putDev

theorem keeps_enterRecovery {s0 s : State} (h : Keeps s0 s) (a1) : Keeps s0 (enterRecovery s a1) := by
  unfold enterRecovery
  with_reducible repeat' first
    | assumption | apply keeps_selectApp | apply keeps_switchDom | apply keeps_raise | apply keeps_putDev

theorem keeps_execRomRecovery {s0 s : State} (h : Keeps s0 s) : Kept s0 (execRomRecovery s) := by
  unfold execRomRecovery
  with_reducible repeat' first
    | assumption | apply Kept.of_next | apply Kept.ite | apply Keeps.ite | apply keeps_enterRecovery

theorem keeps_step2 {s0 s : State} (h : Keeps s0 s) (a1) : Keeps s0 (step2 s a1) := by
  unfold step2; dsimp only
  with_reducible repeat' first
    | assumption | apply keeps_putTime | apply keeps_putMemErr | apply keeps_stampStep | apply keeps_putDev

theorem keeps_step5 {s0 s : State} (h : Keeps s0 s) (a1 a2) : Keeps s0 (step5 s a1 a2) := by
  unfold step5; dsimp only
  with_reducible repeat' first
    | assumption | apply Keeps.ite | apply keeps_runSlot | apply keeps_resetState | apply keeps_addCtr
    | apply keeps_putLft | apply keeps_putDev | apply keeps_stampStep | apply keeps_raise
    | apply keeps_setSlotState | apply keeps_putFw | split

theorem keeps_step6 {s0 s : State} (h : Keeps s0 s) : Keeps s0 (step6 s) := by
  unfold step6; dsimp only
  with_reducible repeat' first
    | assumption | intro _ | apply Keeps.ite | apply Keeps.foldl | apply keeps_putPower | apply keeps_selectApp
    | apply keeps_stampStep | apply keeps_putUnits | apply keeps_stepDone

theorem keeps_runFrom4 {s0 s : State} (h : Keeps s0 s) (a1 a2) : Keeps s0 (runFrom4 s a1 a2) := by
  unfold runFrom4; dsimp only
  with_reducible repeat' first
    | assumption | apply Keeps.ite | apply keeps_failStep | apply keeps_step6 | apply keeps_stampStep
    | apply keeps_step5 | apply keeps_enterRecovery

theorem keeps_runFrom3 {s0 s : State} (h : Keeps s0 s) (a1 a2 a3) : Keeps s0 (runFrom3 s a1 a2 a3) := by
  unfold runFrom3; dsimp only
  with_reducible repeat' first
    | assumption | apply Keeps.ite | apply keeps_putDev | apply keeps_failStep | apply keeps_stampStep
    | apply keeps_setDom | apply keeps_runFrom4

theorem keeps_execColdStart {s0 s : State} (h : Keeps s0 s) (a1 a2 a3 a4) : Kept s0 (execColdStart a1 a2 a3 a4 s) := by
  unfold execColdStart; dsimp only
  with_reducible repeat' first
    | assumption | apply Kept.of_next | apply Kept.ite | apply Keeps.ite | apply keeps_step2
    | apply keeps_runFrom3 | apply keeps_putDev | apply keeps_runFrom4 | split

theorem keeps_execSvcPowerUpRelease {s0 s : State} (h : Keeps s0 s) : Kept s0 (execSvcPowerUpRelease s) := by
  unfold execSvcPowerUpRelease
  with_reducible repeat' first
    | assumption | apply Kept.of_next | apply Kept.ite | apply Keeps.ite | apply keeps_putDev

theorem keeps_execGddr7TrainingDone {s0 s : State} (h : Keeps s0 s) (a1) : Kept s0 (execGddr7TrainingDone a1 s) := by
  unfold execGddr7TrainingDone; dsimp only
  with_reducible repeat' first
    | assumption | apply Kept.of_next | intro _ | apply Kept.ite | apply Keeps.ite | apply Keeps.foldl
    | apply keeps_raise | apply keeps_putDev | apply keeps_failStep | apply keeps_stampStep
    | apply keeps_stepDone

theorem keeps_execPtpWaitExpiry {s0 s : State} (h : Keeps s0 s) : Kept s0 (execPtpWaitExpiry s) := by
  unfold execPtpWaitExpiry
  with_reducible repeat' first
    | assumption | apply Kept.of_next | apply keeps_stepDone

theorem keeps_execBootReady {s0 s : State} (h : Keeps s0 s) : Kept s0 (execBootReady s) := by
  unfold execBootReady; dsimp only
  with_reducible repeat' first
    | assumption | apply Kept.of_next | intro _ | apply Kept.ite | apply Keeps.ite | apply Keeps.foldl
    | apply keeps_switchDom | apply keeps_stampStep | apply keeps_putDev | apply keeps_raise

theorem keeps_execPwrEnHigh {s0 s : State} (h : Keeps s0 s) : Kept s0 (execPwrEnHigh s) := by
  unfold execPwrEnHigh; dsimp only
  with_reducible repeat' first
    | assumption | apply Kept.of_next | apply Kept.ite | apply Keeps.ite | apply keeps_putDev
    | apply keeps_beginCold

theorem keeps_execPwrEnLow {s0 s : State} (h : Keeps s0 s) : Kept s0 (execPwrEnLow s) := by
  unfold execPwrEnLow; dsimp only
  with_reducible repeat' first
    | assumption | apply Kept.of_next | apply Kept.ite | apply Keeps.ite | apply keeps_putDev
    | apply keeps_shutDown

theorem keeps_requestReset {s0 s : State} (h : Keeps s0 s) (a1) : Keeps s0 (requestReset s a1) := by
  unfold requestReset
  with_reducible repeat' first
    | assumption | apply Keeps.ite | apply keeps_putDev | apply keeps_raise

theorem keeps_execRstNLow {s0 s : State} (h : Keeps s0 s) : Kept s0 (execRstNLow s) := by
  unfold execRstNLow; dsimp only
  with_reducible repeat' first
    | assumption | apply Kept.of_next | apply Kept.ite | apply Keeps.ite | apply keeps_putDev
    | apply keeps_domainsOff | apply keeps_requestReset | apply keeps_wipe | split

theorem keeps_execRstNHigh {s0 s : State} (h : Keeps s0 s) : Kept s0 (execRstNHigh s) := by
  unfold execRstNHigh; dsimp only
  with_reducible repeat' first
    | assumption | apply Kept.of_next | apply Kept.ite | apply Keeps.ite | apply keeps_putDev

theorem keeps_devReset {s0 s : State} (h : Keeps s0 s) (a1) : Keeps s0 (devReset s a1) := by
  unfold devReset
  with_reducible repeat' first
    | assumption | apply keeps_requestReset | split

theorem keeps_execDevReset {s0 s : State} (h : Keeps s0 s) (a1) : Kept s0 (execDevReset a1 s) := by
  unfold execDevReset
  with_reducible repeat' first
    | assumption | apply Kept.of_next | apply keeps_devReset

theorem keeps_warmOff {s0 s : State} (h : Keeps s0 s) : Keeps s0 (warmOff s) := by
  unfold warmOff; dsimp only
  with_reducible repeat' first
    | assumption | apply Keeps.ite | apply keeps_endService | apply keeps_domainsOff | apply keeps_wipe
    | apply keeps_putPower | apply keeps_freshFree | apply keeps_enterHoldover | apply keeps_putDev

theorem keeps_execWarmReset {s0 s : State} (h : Keeps s0 s) (a1 a2 a3 a4) : Kept s0 (execWarmReset a1 a2 a3 a4 s) := by
  unfold execWarmReset; dsimp only
  with_reducible repeat' first
    | assumption | apply Kept.of_next | apply Kept.ite | apply Keeps.ite | apply keeps_warmOff
    | apply keeps_runFrom3 | apply keeps_putDev

end Sys2Proof.Machine
end

