-- ==== Sys2Proof/Laws/KeepsPanel.lean ====
section
/-! SUPPORT. Laws/KeepsPanel.lean: the functions of Machine/Panel.lean keep the invariant and the queue. -/

set_option linter.unusedTactic false
set_option linter.unreachableTactic false

namespace Sys2Proof.Machine

theorem keeps_setIdentify {s0 s : State} (h : Keeps s0 s) (a1) : Keeps s0 (setIdentify s a1) := by
  unfold setIdentify
  with_reducible repeat' first
    | assumption | apply Keeps.ite | apply keeps_putFront | apply keeps_raise

theorem keeps_execIdentifyWrite {s0 s : State} (h : Keeps s0 s) (a1) : Kept s0 (execIdentifyWrite a1 s) := by
  unfold execIdentifyWrite
  with_reducible repeat' first
    | assumption | apply Kept.of_next | apply Kept.ite | apply Keeps.ite | apply keeps_setIdentify

theorem keeps_execIdentifyExpiry {s0 s : State} (h : Keeps s0 s) : Kept s0 (execIdentifyExpiry s) := by
  unfold execIdentifyExpiry
  with_reducible repeat' first
    | assumption | apply Kept.of_next | apply keeps_putFront

theorem keeps_execSvcShortPress {s0 s : State} (h : Keeps s0 s) : Kept s0 (execSvcShortPress s) := by
  unfold execSvcShortPress
  with_reducible repeat' first
    | assumption | apply Kept.of_next | apply Kept.ite | apply Keeps.ite | apply keeps_setIdentify

theorem keeps_ledTest {s0 s : State} (h : Keeps s0 s) (a1) : Keeps s0 (ledTest s a1) := by
  unfold ledTest
  with_reducible repeat' first
    | assumption | apply Keeps.ite | apply keeps_putFront

theorem keeps_execLedTest {s0 s : State} (h : Keeps s0 s) (a1) : Kept s0 (execLedTest a1 s) := by
  unfold execLedTest
  with_reducible repeat' first
    | assumption | apply Kept.of_next | apply keeps_ledTest

theorem keeps_execLedTestExpiry {s0 s : State} (h : Keeps s0 s) : Kept s0 (execLedTestExpiry s) := by
  unfold execLedTestExpiry
  with_reducible repeat' first
    | assumption | apply Kept.of_next | apply keeps_putFront

theorem keeps_pushPreempts {s0 s : State} (h : Keeps s0 s) (a1) : Keeps s0 (pushPreempts s a1) := by
  unfold pushPreempts; dsimp only
  with_reducible repeat' first
    | assumption | intro _ | apply Keeps.ite | apply Keeps.foldl | apply keeps_tryPreempt
    | apply keeps_askPreempt

theorem keeps_dropPreempts {s0 s : State} (h : Keeps s0 s) (a1) : Keeps s0 (dropPreempts s a1) := by
  unfold dropPreempts; dsimp only
  with_reducible repeat' first
    | assumption | intro _ | apply Keeps.ite | apply Keeps.foldl | apply keeps_putPart | apply keeps_resumePart
    | apply keeps_refuseCmd

theorem keeps_followRequests {s0 s : State} (h : Keeps s0 s) : Keeps s0 (followRequests s) := by
  unfold followRequests; dsimp only
  with_reducible repeat' first
    | assumption | apply Keeps.ite | apply keeps_pushPreempts | apply keeps_putFront | split

theorem keeps_quiesceRequest {s0 s : State} (h : Keeps s0 s) : Keeps s0 (quiesceRequest s) := by
  unfold quiesceRequest
  with_reducible repeat' first
    | assumption | apply keeps_followRequests | apply keeps_raise | apply keeps_putFront

theorem keeps_execQuiesceRequest {s0 s : State} (h : Keeps s0 s) : Kept s0 (execQuiesceRequest s) := by
  unfold execQuiesceRequest
  with_reducible repeat' first
    | assumption | apply Kept.of_next | apply Kept.ite | apply Keeps.ite | apply keeps_quiesceRequest

theorem keeps_execSvcHold {s0 s : State} (h : Keeps s0 s) : Kept s0 (execSvcHold s) := by
  unfold execSvcHold
  with_reducible repeat' first
    | assumption | apply Kept.of_next | apply Kept.ite | apply Keeps.ite | apply keeps_quiesceRequest
    | apply keeps_dropPreempts | apply keeps_putFront

theorem keeps_execQuiesced {s0 s : State} (h : Keeps s0 s) : Kept s0 (execQuiesced s) := by
  unfold execQuiesced
  with_reducible repeat' first
    | assumption | apply Kept.of_next | apply Kept.ite | apply keeps_raise | apply keeps_putFront

theorem keeps_removalRequest {s0 s : State} (h : Keeps s0 s) (a1) : Keeps s0 (removalRequest s a1) := by
  unfold removalRequest
  with_reducible repeat' first
    | assumption | apply Keeps.ite | apply keeps_followRequests | apply keeps_raise | apply keeps_putFront

theorem keeps_removalCancel {s0 s : State} (h : Keeps s0 s) : Keeps s0 (removalCancel s) := by
  unfold removalCancel
  with_reducible repeat' first
    | assumption | apply Keeps.ite | apply keeps_dropPreempts | apply keeps_raise | apply keeps_putFront

theorem keeps_execRemovalRequest {s0 s : State} (h : Keeps s0 s) : Kept s0 (execRemovalRequest s) := by
  unfold execRemovalRequest
  with_reducible repeat' first
    | assumption | apply Kept.of_next | apply keeps_removalRequest

theorem keeps_execRemovalCancel {s0 s : State} (h : Keeps s0 s) : Kept s0 (execRemovalCancel s) := by
  unfold execRemovalCancel
  with_reducible repeat' first
    | assumption | apply Kept.of_next | apply keeps_removalCancel

theorem keeps_execRemovalSafe {s0 s : State} (h : Keeps s0 s) : Kept s0 (execRemovalSafe s) := by
  unfold execRemovalSafe
  with_reducible repeat' first
    | assumption | apply Kept.of_next | apply Kept.ite | apply keeps_raise | apply keeps_putFront

theorem keeps_checkRemoval {s0 s : State} (h : Keeps s0 s) : Keeps s0 (checkRemoval s) := by
  unfold checkRemoval
  with_reducible repeat' first
    | assumption | apply Keeps.ite | apply keeps_putFront

theorem keeps_execHandlePadTouch {s0 s : State} (h : Keeps s0 s) (a1) : Kept s0 (execHandlePadTouch a1 s) := by
  unfold execHandlePadTouch
  with_reducible repeat' first
    | assumption | apply Kept.of_next | apply Kept.ite | apply Keeps.ite | apply keeps_removalRequest

theorem keeps_execLeverOpen {s0 s : State} (h : Keeps s0 s) : Kept s0 (execLeverOpen s) := by
  unfold execLeverOpen
  with_reducible repeat' first
    | assumption | apply Kept.of_next | apply Kept.ite | apply Keeps.ite | apply keeps_removalRequest
    | apply keeps_raise | apply keeps_putFront

theorem keeps_execLeverClosed {s0 s : State} (h : Keeps s0 s) : Kept s0 (execLeverClosed s) := by
  unfold execLeverClosed
  with_reducible repeat' first
    | assumption | apply Kept.of_next | apply Kept.ite | apply Keeps.ite | apply keeps_raise
    | apply keeps_putFront

theorem keeps_execHandlingSample {s0 s : State} (h : Keeps s0 s) (a1) : Kept s0 (execHandlingSample a1 s) := by
  unfold execHandlingSample; dsimp only
  with_reducible repeat' first
    | assumption | apply Kept.of_next | apply Kept.ite | apply Keeps.ite | apply keeps_putFront
    | apply keeps_raise | split

theorem keeps_execLiveInsertion {s0 s : State} (h : Keeps s0 s) : Kept s0 (execLiveInsertion s) := by
  unfold execLiveInsertion
  with_reducible repeat' first
    | assumption | apply Kept.of_next | apply Kept.ite | apply Keeps.ite | apply keeps_putDev

theorem keeps_execManagementPortLinkUp {s0 s : State} (h : Keeps s0 s) : Kept s0 (execManagementPortLinkUp s) := by
  unfold execManagementPortLinkUp
  with_reducible repeat' first
    | assumption | apply Kept.of_next | apply keeps_wakeDomain | apply keeps_putDev

theorem keeps_execManagementPortLinkDown {s0 s : State} (h : Keeps s0 s) : Kept s0 (execManagementPortLinkDown s) := by
  unfold execManagementPortLinkDown
  with_reducible repeat' first
    | assumption | apply Kept.of_next | apply keeps_putDev

theorem keeps_traceArm {s0 s : State} (h : Keeps s0 s) (a1) : Keeps s0 (traceArm s a1).1 := by
  unfold traceArm
  with_reducible repeat' first
    | assumption | apply Keeps.ite | apply Keeps.ite_fst | apply keeps_putTrace | split | dsimp only

theorem keeps_execTraceArm {s0 s : State} (h : Keeps s0 s) (a1) : Kept s0 (execTraceArm a1 s) := by
  unfold execTraceArm
  with_reducible repeat' first
    | assumption | apply Kept.of_next | apply Kept.ite | apply Keeps.ite | apply keeps_traceArm

end Sys2Proof.Machine
end

