-- ==== Sys2Proof/Laws/KeepsDict.lean ====
section
/-! SUPPORT. Laws/KeepsDict.lean: the functions of Machine/Dict.lean keep the invariant and the queue. -/

set_option linter.unusedTactic false
set_option linter.unreachableTactic false

namespace Sys2Proof.Machine

theorem keeps_holdOld {s0 s : State} (h : Keeps s0 s) (a1 a2 a3 a4) : Keeps s0 (holdOld a1 a2 a3 s a4) := by
  unfold holdOld; dsimp only
  with_reducible repeat' first
    | assumption | apply Keeps.ite | apply keeps_putSettings | split

theorem keeps_restDomains {s0 s : State} (h : Keeps s0 s) (a1) : Keeps s0 (restDomains s a1) := by
  unfold restDomains
  with_reducible repeat' first
    | assumption | intro _ | apply Keeps.foldl | apply keeps_putPower

theorem keeps_applySetting {s0 s : State} (h : Keeps s0 s) (a1 a2 a3 a4) : Keeps s0 (applySetting s a1 a2 a3 a4) := by
  unfold applySetting; dsimp only
  with_reducible repeat' first
    | assumption | intro _ | apply Keeps.ite | apply Keeps.foldl | apply keeps_holdOld | apply keeps_restDomains
    | apply keeps_putSettings

theorem keeps_alertClear {s0 s : State} (h : Keeps s0 s) (a) : Keeps s0 (alertClear s a) :=
  .ite (h.putLog fun hl => hl) h

theorem keeps_execAlertClear {s0 s : State} (h : Keeps s0 s) (a1) : Kept s0 (execAlertClear a1 s) := by
  unfold execAlertClear
  with_reducible repeat' first
    | assumption | apply Kept.of_next | apply keeps_alertClear

theorem keeps_removalWrite {s0 s : State} (h : Keeps s0 s) (a1) : Keeps s0 (removalWrite s a1) := by
  unfold removalWrite
  with_reducible repeat' first
    | assumption | apply keeps_removalRequest | apply keeps_removalCancel | split

theorem keeps_fwWrite {s0 s : State} (h : Keeps s0 s) (a1 a2 a3) : Keeps s0 (fwWrite s a1 a2 a3).1 := by
  unfold fwWrite
  with_reducible repeat' first
    | assumption | apply Keeps.ite | apply Keeps.ite_fst | apply keeps_fwBegin | apply keeps_fwBlock
    | apply keeps_fwManifest | apply keeps_fwActivate | apply keeps_fwAbort | split | dsimp only

theorem keeps_woWrite {s0 s : State} (h : Keeps s0 s) (a1 a2 a3 a4) : Keeps s0 (woWrite s a1 a2 a3 a4).1 := by
  unfold woWrite; dsimp only
  with_reducible repeat' first
    | assumption | apply keeps_devReset | apply keeps_attNonce | apply keeps_alertClear | apply keeps_fwWrite
    | apply keeps_partCommand | apply keeps_retireRequest | apply keeps_testPool | apply keeps_askReload
    | apply keeps_removalWrite | apply keeps_ledTest | apply keeps_traceArm | apply keeps_alarmClear | split
    | dsimp only

theorem keeps_rwWrite {s0 s : State} (h : Keeps s0 s) (a1 a2 a3 a4) : Keeps s0 (rwWrite s a1 a2 a3 a4).1 := by
  unfold rwWrite; dsimp only
  with_reducible repeat' first
    | assumption | apply Keeps.ite | apply Keeps.ite_fst | apply keeps_setIdentify | apply keeps_putSync
    | apply keeps_applySetting | split | dsimp only

theorem keeps_stageWrite {s0 s : State} (h : Keeps s0 s) (a1 a2 a3 a4) : Keeps s0 (stageWrite s a1 a2 a3 a4) := by
  unfold stageWrite
  with_reducible repeat' first
    | assumption | apply keeps_putSession

theorem keeps_fuseWrite {s0 s : State} (h : Keeps s0 s) (a1 a2 a3 a4) : Keeps s0 (fuseWrite s a1 a2 a3 a4).1 := by
  unfold fuseWrite; dsimp only
  with_reducible repeat' first
    | assumption | apply keeps_freshFree | apply keeps_putSession | split | dsimp only

theorem keeps_writeObj {s0 s : State} (h : Keeps s0 s) (a1 a2 a3 a4) : Keeps s0 (writeObj s a1 a2 a3 a4).1 := by
  unfold writeObj; dsimp only
  with_reducible repeat' first
    | assumption | apply Keeps.ite | apply Keeps.ite_fst | apply keeps_rwWrite | apply keeps_woWrite
    | apply keeps_stageWrite | apply keeps_fuseWrite | split | dsimp only

theorem keeps_ctlWrite {s0 s : State} (h : Keeps s0 s) (a1 a2 a3) : Keeps s0 (ctlWrite s a1 a2 a3) := by
  unfold ctlWrite; dsimp only
  with_reducible repeat' first
    | assumption | apply Keeps.ite | apply keeps_putTile

theorem keeps_execRegisterWrite {s0 s : State} (h : Keeps s0 s) (a1) : Kept s0 (execRegisterWrite a1 s) := by
  unfold execRegisterWrite; dsimp only
  with_reducible repeat' first
    | assumption | apply Kept.of_next | apply Kept.ite | apply Keeps.ite | apply keeps_writeObj
    | apply keeps_ctlWrite | apply keeps_putTile | split

theorem keeps_endSession {s0 s : State} (h : Keeps s0 s) (a1) : Keeps s0 (endSession s a1) := by
  unfold endSession; dsimp only
  with_reducible repeat' first
    | assumption | apply Keeps.ite | apply keeps_dropUpdate | apply keeps_putDap

theorem keeps_afterSettings {s0 s : State} (h : Keeps s0 s) (a o) : Keeps s0 (afterSettings s a o) := by
  unfold afterSettings; try dsimp only
  repeat' (first
    | with_reducible assumption
    | intro _
    | (with_reducible refine Keeps.upd ?_ ..; with_reducible assumption)
    | with_reducible apply Keeps.ite
    | with_reducible apply Keeps.foldl
    | with_reducible apply Keeps.ite_fst
    | with_reducible apply Keeps.ite_snd
    | with_reducible apply Keeps.foldl_fst
    | with_reducible apply keeps_selectApp
    | with_reducible apply keeps_ethPower
    | with_reducible apply keeps_portDown
    | with_reducible apply keeps_linkLost
    | with_reducible apply keeps_putDev
    | with_reducible apply keeps_endSession
    | (with_reducible apply Keeps.eq_fst; assumption)
    | (with_reducible apply Keeps.eq_snd; assumption)
    | split
    | dsimp only)

theorem keeps_commitSet {s0 s : State} (h : Keeps s0 s) (a1) : Keeps s0 (commitSet s a1).1 := by
  unfold commitSet; dsimp only
  with_reducible repeat' first
    | assumption | intro _ | apply Keeps.foldl | apply keeps_addCtr | apply keeps_applySetting
    | apply keeps_putSession | apply keeps_afterSettings | split | dsimp only

end Sys2Proof.Machine
end

