-- ==== Sys2Proof/Laws/KeepsDap.lean ====
section
/-! SUPPORT. Laws/KeepsDap.lean: the functions of Machine/Dap.lean keep the invariant and the queue. -/

set_option linter.unusedTactic false
set_option linter.unreachableTactic false

namespace Sys2Proof.Machine

theorem keeps_sendDap {s0 s : State} (h : Keeps s0 s) (a1) : Keeps s0 (sendDap s a1) := by
  unfold sendDap; dsimp only
  with_reducible repeat' first
    | assumption | apply Keeps.ite | apply keeps_putDap | apply keeps_portCtr | apply keeps_wakeDomain

theorem keeps_endHandshake {s0 s : State} (h : Keeps s0 s) (a1 a2 a3 a4 a5 a6) : Keeps s0 (endHandshake s a1 a2 a3 a4 a5 a6) := by
  unfold endHandshake
  with_reducible repeat' first
    | assumption | apply Keeps.ite | apply keeps_sendDap

theorem keeps_helloMsg {s0 s : State} (h : Keeps s0 s) (a1 a2 a3 a4 a5 a6) : Keeps s0 (helloMsg s a1 a2 a3 a4 a5 a6) := by
  unfold helloMsg; dsimp only
  with_reducible repeat' first
    | assumption | apply Keeps.ite | apply keeps_endHandshake | apply keeps_freshFree | apply keeps_putDap
    | apply keeps_sendDap

theorem keeps_execDapHello {s0 s : State} (h : Keeps s0 s) (a1 a2 a3 a4 a5 a6) : Kept s0 (execDapHello a1 a2 a3 a4 a5 a6 s) := by
  unfold execDapHello
  with_reducible repeat' first
    | assumption | apply Kept.of_next | apply keeps_helloMsg

theorem keeps_refuseKey {s0 s : State} (h : Keeps s0 s) (a1 a2) : Keeps s0 (refuseKey s a1 a2) := by
  unfold refuseKey; dsimp only
  with_reducible repeat' first
    | assumption | apply Keeps.ite | apply keeps_endHandshake | apply keeps_endSession | apply keeps_raise
    | apply keeps_addCtr

theorem keeps_keyMsg {s0 s : State} (h : Keeps s0 s) (a1 a2 a3) : Keeps s0 (keyMsg s a1 a2 a3) := by
  unfold keyMsg; dsimp only
  with_reducible repeat' first
    | assumption | apply Keeps.ite | apply keeps_refuseKey | apply keeps_sendDap | apply keeps_addCtr
    | apply keeps_putSession

theorem keeps_execDapKey {s0 s : State} (h : Keeps s0 s) (a1 a2 a3) : Kept s0 (execDapKey a1 a2 a3 s) := by
  unfold execDapKey
  with_reducible repeat' first
    | assumption | apply Kept.of_next | apply keeps_keyMsg | split

theorem keeps_execHandshakeTimeout {s0 s : State} (h : Keeps s0 s) (a1) : Kept s0 (execHandshakeTimeout a1 s) := by
  unfold execHandshakeTimeout
  with_reducible repeat' first
    | assumption | apply Kept.of_next | apply Kept.ite | apply Keeps.ite | apply keeps_endSession | split

theorem keeps_execIdleTimeout {s0 s : State} (h : Keeps s0 s) (a1) : Kept s0 (execIdleTimeout a1 s) := by
  unfold execIdleTimeout
  with_reducible repeat' first
    | assumption | apply Kept.of_next | apply Kept.ite | apply Keeps.ite | apply keeps_endSession | split

theorem keeps_sendEvents {s0 s : State} (h : Keeps s0 s) (a1 a2) : Keeps s0 (sendEvents s a1 a2) := by
  unfold sendEvents; dsimp only
  with_reducible repeat' first
    | assumption | apply Keeps.ite | apply keeps_sendDap | apply keeps_endSession | apply keeps_putSession
    | split

theorem keeps_deliverEvents {s0 s : State} (h : Keeps s0 s) (a1) : Keeps s0 (deliverEvents s a1) := by
  unfold deliverEvents; dsimp only
  with_reducible repeat' first
    | assumption | apply Keeps.ite | apply keeps_addCtr | apply keeps_putSession | apply keeps_sendEvents
    | split

theorem keeps_resendEvents {s0 s : State} (h : Keeps s0 s) (a1 a2) : Keeps s0 (resendEvents s a1 a2) := by
  unfold resendEvents; dsimp only
  with_reducible repeat' first
    | assumption | intro _ | apply Keeps.ite | apply Keeps.foldl | apply keeps_sendEvents

theorem keeps_execEventResendTimer {s0 s : State} (h : Keeps s0 s) (a1) : Kept s0 (execEventResendTimer a1 s) := by
  unfold execEventResendTimer
  with_reducible repeat' first
    | assumption | apply Kept.of_next | apply keeps_resendEvents | split

theorem keeps_writeItems {s0 s : State} (h : Keeps s0 s) (a1 a2) : Keeps s0 (writeItems a1 a2 s).1 := by
  induction a2 generalizing s a1 with
  | nil => exact h
  | cons x r ih =>
    unfold writeItems; dsimp only
    with_reducible repeat' first
      | assumption | apply keeps_writeObj | apply ih | split | dsimp only

theorem keeps_confirm {s0 s : State} (h : Keeps s0 s) (a1 a2) : Keeps s0 (confirm s a1 a2).1 := by
  unfold confirm; dsimp only
  with_reducible repeat' first
    | assumption | apply Keeps.ite | apply Keeps.ite_fst | apply keeps_putSession | apply keeps_programFuse
    | split | dsimp only

theorem keeps_runMsg {s0 s : State} (h : Keeps s0 s) (a1 a2) : Keeps s0 (runMsg s a1 a2).1 := by
  unfold runMsg; dsimp only
  with_reducible repeat' first
    | assumption | apply Keeps.ite | apply Keeps.ite_fst | apply keeps_writeItems | apply keeps_commitSet
    | apply keeps_putSession | apply keeps_confirm | split | dsimp only

theorem keeps_runInSession {s0 s : State} (h : Keeps s0 s) (a1 a2 a3) : Keeps s0 (runInSession s a1 a2 a3) := by
  unfold runInSession; dsimp only
  with_reducible repeat' first
    | assumption | apply Keeps.ite | apply keeps_addCtr | apply keeps_putSession | apply keeps_runMsg
    | apply keeps_endSession | apply keeps_deliverEvents | apply keeps_sendDap | split

theorem keeps_drainHeld {s0 s : State} (h : Keeps s0 s) (a1 a2) : Keeps s0 (drainHeld a1 s a2) := by
  induction a1 generalizing s a2 with
  | zero => exact h
  | succ k ih =>
    unfold drainHeld; dsimp only
    with_reducible repeat' first
      | assumption | apply keeps_putSession | apply keeps_runInSession | apply ih | split

theorem keeps_deliverMsg {s0 s : State} (h : Keeps s0 s) (a1 a2 a3) : Keeps s0 (deliverMsg s a1 a2 a3) := by
  unfold deliverMsg
  with_reducible repeat' first
    | assumption | apply Keeps.ite | apply keeps_drainHeld | apply keeps_runInSession | apply keeps_sendDap
    | apply keeps_putSession | split

theorem keeps_execRead {s0 s : State} (h : Keeps s0 s) (a1 a2 a3) : Kept s0 (execRead a1 a2 a3 s) := by
  unfold execRead
  with_reducible repeat' first
    | assumption | apply Kept.of_next | apply keeps_deliverMsg

theorem keeps_execWrite {s0 s : State} (h : Keeps s0 s) (a1 a2 a3) : Kept s0 (execWrite a1 a2 a3 s) := by
  unfold execWrite
  with_reducible repeat' first
    | assumption | apply Kept.of_next | apply keeps_deliverMsg

theorem keeps_execCommit {s0 s : State} (h : Keeps s0 s) (a1 a2) : Kept s0 (execCommit a1 a2 s) := by
  unfold execCommit
  with_reducible repeat' first
    | assumption | apply Kept.of_next | apply keeps_deliverMsg

theorem keeps_execDiscard {s0 s : State} (h : Keeps s0 s) (a1 a2) : Kept s0 (execDiscard a1 a2 s) := by
  unfold execDiscard
  with_reducible repeat' first
    | assumption | apply Kept.of_next | apply keeps_deliverMsg

theorem keeps_execConfirm {s0 s : State} (h : Keeps s0 s) (a1 a2 a3) : Kept s0 (execConfirm a1 a2 a3 s) := by
  unfold execConfirm
  with_reducible repeat' first
    | assumption | apply Kept.of_next | apply keeps_deliverMsg

theorem keeps_execSubscribe {s0 s : State} (h : Keeps s0 s) (a1 a2 a3 a4 a5) : Kept s0 (execSubscribe a1 a2 a3 a4 a5 s) := by
  unfold execSubscribe
  with_reducible repeat' first
    | assumption | apply Kept.of_next | apply keeps_deliverMsg

theorem keeps_execEventAck {s0 s : State} (h : Keeps s0 s) (a1 a2 a3) : Kept s0 (execEventAck a1 a2 a3 s) := by
  unfold execEventAck
  with_reducible repeat' first
    | assumption | apply Kept.of_next | apply keeps_deliverMsg

theorem keeps_execPing {s0 s : State} (h : Keeps s0 s) (a1 a2) : Kept s0 (execPing a1 a2 s) := by
  unfold execPing
  with_reducible repeat' first
    | assumption | apply Kept.of_next | apply keeps_deliverMsg

theorem keeps_execClose {s0 s : State} (h : Keeps s0 s) (a1 a2) : Kept s0 (execClose a1 a2 s) := by
  unfold execClose
  with_reducible repeat' first
    | assumption | apply Kept.of_next | apply keeps_deliverMsg

theorem keeps_tagFailed {s0 s : State} (h : Keeps s0 s) (a1) : Keeps s0 (tagFailed s a1) := by
  unfold tagFailed; dsimp only
  with_reducible repeat' first
    | assumption | apply Keeps.ite | apply keeps_addCtr | apply keeps_putSession | apply keeps_raise
    | apply keeps_endSession

theorem keeps_joinSegment {s0 s : State} (h : Keeps s0 s) (a1 a2 a3) : Keeps s0 (joinSegment s a1 a2 a3) := by
  unfold joinSegment; dsimp only
  with_reducible repeat' first
    | assumption | apply Keeps.ite | apply keeps_deliverMsg | apply keeps_putSession

theorem keeps_openMsg {s0 s : State} (h : Keeps s0 s) (a1 a2) : Keeps s0 (openMsg s a1 a2) := by
  unfold openMsg
  with_reducible repeat' first
    | assumption | apply Keeps.ite | apply keeps_helloMsg | apply keeps_keyMsg | split

theorem keeps_openFrame {s0 s : State} (h : Keeps s0 s) (a1 a2) : Keeps s0 (openFrame s a1 a2) := by
  unfold openFrame; dsimp only
  with_reducible repeat' first
    | assumption | apply Keeps.ite | apply keeps_putDap | apply keeps_openMsg | split

theorem keeps_execDapFrameReceived {s0 s : State} (h : Keeps s0 s) (a1 a2 a3) : Kept s0 (execDapFrameReceived a1 a2 a3 s) := by
  unfold execDapFrameReceived; dsimp only
  with_reducible repeat' first
    | assumption | apply Kept.of_next | apply Kept.ite | apply Keeps.ite | apply keeps_openFrame
    | apply keeps_tagFailed | apply keeps_joinSegment | split

theorem keeps_execReassemblyTimeout {s0 s : State} (h : Keeps s0 s) (a1 a2) : Kept s0 (execReassemblyTimeout a1 a2 s) := by
  unfold execReassemblyTimeout; dsimp only
  with_reducible repeat' first
    | assumption | apply Kept.of_next | apply keeps_putDap | apply keeps_putSession | split

end Sys2Proof.Machine
end

