-- ==== Sys2Proof/Laws/KeepsDrain.lean ====
section
/-! SUPPORT. Laws/KeepsDrain.lean: the functions of Machine/Drain.lean keep the invariant and the queue. -/

set_option linter.unusedTactic false
set_option linter.unreachableTactic false

namespace Sys2Proof.Machine

theorem keeps_writeElem {s0 s : State} (h : Keeps s0 s) (a1 a2 a3 a4) : Keeps s0 (writeElem s a1 a2 a3 a4) := by
  unfold writeElem; dsimp only
  with_reducible repeat' first
    | assumption | apply keeps_writeNat

theorem keeps_writeOut {s0 s : State} (h : Keeps s0 s) (a1 a2 a3 a4) : Keeps s0 (writeOut s a1 a2 a3 a4) := by
  unfold writeOut
  with_reducible repeat' first
    | assumption | intro _ | apply Keeps.foldl | apply keeps_writeElem

theorem keeps_writeRed {s0 s : State} (h : Keeps s0 s) (a1 a2 a3 a4) : Keeps s0 (writeRed s a1 a2 a3 a4) := by
  unfold writeRed; dsimp only
  with_reducible repeat' first
    | assumption | apply Keeps.ite | apply keeps_writeBytes | apply keeps_bankCombine | split

theorem keeps_writeReds {s0 s : State} (h : Keeps s0 s) (a1 a2 a3) : Keeps s0 (writeReds s a1 a2 a3) := by
  unfold writeReds; dsimp only
  with_reducible repeat' first
    | assumption | intro _ | apply Keeps.ite | apply Keeps.foldl | apply keeps_writeRed

theorem keeps_drainMain {s0 s : State} (h : Keeps s0 s) (a1 a2 a3 a4) : Keeps s0 (drainMain s a1 a2 a3 a4) := by
  unfold drainMain; dsimp only
  with_reducible repeat' first
    | assumption | intro _ | apply Keeps.ite | apply Keeps.foldl | apply keeps_writeBytes | apply keeps_writeOut
    | apply keeps_tileCtr | split

theorem keeps_drainTile {s0 s : State} (h : Keeps s0 s) (a1 a2 a3 a4 a5) : Keeps s0 (drainTile s a1 a2 a3 a4 a5) := by
  unfold drainTile; dsimp only
  with_reducible repeat' first
    | assumption | apply Keeps.ite | apply keeps_drainMain | apply keeps_writeReds | apply keeps_bankCombine
    | apply keeps_tileCtr | apply keeps_putTile

theorem keeps_runDrain {s0 s : State} (h : Keeps s0 s) (a1 a2 a3 a4 a5) : StartKept s0 (runDrain s a1 a2 a3 a4 a5) := by
  unfold runDrain; dsimp only
  with_reducible repeat' first
    | assumption | apply StartKept.of_done | apply StartKept.of_going | apply StartKept.of_fault
    | apply StartKept.of_notReady | apply StartKept.ite | apply Keeps.ite | apply keeps_drainTile
    | apply keeps_putTile

theorem keeps_storeDrain {s0 s : State} (h : Keeps s0 s) (a1 a2 a3 a4) : StartKept s0 (storeDrain s a1 a2 a3 a4) := by
  unfold storeDrain; dsimp only
  with_reducible repeat' first
    | assumption | apply StartKept.of_done | apply keeps_drainTile

theorem keeps_startDrain {s0 s : State} (h : Keeps s0 s) (a1 a2 a3) : StartKept s0 (startDrain s a1 a2 a3) := by
  unfold startDrain; dsimp only
  with_reducible repeat' first
    | assumption | apply StartKept.of_done | apply StartKept.of_going | apply StartKept.of_fault
    | apply StartKept.of_notReady | apply StartKept.own | apply StartKept.ite | apply Keeps.ite
    | apply keeps_runDrain | split

theorem keeps_sideLoaded {s0 s : State} (h : Keeps s0 s) (a1 a2 a3) : Keeps s0 (sideLoaded s a1 a2 a3) := by
  unfold sideLoaded; dsimp only
  with_reducible repeat' first
    | assumption | apply Keeps.ite | apply keeps_putTile | split

end Sys2Proof.Machine
end

