-- ==== Sys2Proof/Laws/KeepsMatrix.lean ====
section
/-! SUPPORT. Laws/KeepsMatrix.lean: the functions of Machine/Matrix.lean keep the invariant and the queue. -/

set_option linter.unusedTactic false
set_option linter.unreachableTactic false

namespace Sys2Proof.Machine

theorem keeps_useFeeders {s0 s : State} (h : Keeps s0 s) (a1 a2 a3) : Keeps s0 (useFeeders s a1 a2 a3) := by
  unfold useFeeders; dsimp only
  with_reducible repeat' first
    | assumption | apply Keeps.ite | apply keeps_tileCtr | apply keeps_putTile

theorem keeps_finishAccum {s0 s : State} (h : Keeps s0 s) (a1 a2 a3 a4 a5 a6) : StartKept s0 (finishAccum s a1 a2 a3 a4 a5 a6) := by
  unfold finishAccum; dsimp only
  with_reducible repeat' first
    | assumption | apply StartKept.of_done | apply StartKept.of_going | apply StartKept.ite | apply Keeps.ite
    | apply keeps_useFeeders | apply keeps_tileCtr | apply keeps_putTile

theorem keeps_handOver {s0 s : State} (h : Keeps s0 s) (a1) : Keeps s0 (handOver s a1) := by
  unfold handOver; dsimp only
  with_reducible repeat' first
    | assumption | apply Keeps.ite | apply keeps_tileCtr | apply keeps_takeSettings | apply keeps_putTile
    | split

theorem keeps_runDense {s0 s : State} (h : Keeps s0 s) (s2 : State) (a1 a2 a3 a4) : StartKept s0 (runDense s s2 a1 a2 a3 a4) := by
  unfold runDense; dsimp only
  with_reducible repeat' first
    | assumption | apply StartKept.of_fault | apply StartKept.of_notReady | apply keeps_finishAccum | split

theorem keeps_runBwd2 {s0 s : State} (h : Keeps s0 s) (s2 : State) (a1 a2 a3 a4) : StartKept s0 (runBwd2 s s2 a1 a2 a3 a4) := by
  unfold runBwd2; dsimp only
  with_reducible repeat' first
    | assumption | apply StartKept.of_fault | apply StartKept.of_notReady | apply StartKept.ite
    | apply Keeps.ite | apply keeps_finishAccum | split

theorem keeps_runSparse {s0 s : State} (h : Keeps s0 s) (s2 : State) (a1 a2 a3 a4) : StartKept s0 (runSparse s s2 a1 a2 a3 a4) := by
  unfold runSparse; dsimp only
  with_reducible repeat' first
    | assumption | apply StartKept.of_fault | apply StartKept.of_notReady | apply StartKept.ite
    | apply Keeps.ite | apply keeps_finishAccum | split

theorem keeps_skipDw {s0 s : State} (h : Keeps s0 s) (a1 a2) : StartKept s0 (skipDw s a1 a2) := by
  unfold skipDw
  with_reducible repeat' first
    | assumption | apply StartKept.of_done | apply StartKept.ite | apply Keeps.ite | apply keeps_tileCtr

theorem keeps_runAccum {s0 s : State} (h : Keeps s0 s) (s2 : State) (a1 a2 a3 a4) : StartKept s0 (runAccum s s2 a1 a2 a3 a4) := by
  unfold runAccum
  with_reducible repeat' first
    | assumption | apply StartKept.ite | apply Keeps.ite | apply keeps_runSparse | apply keeps_runBwd2
    | apply keeps_runDense

theorem keeps_panelSoon {s0 s : State} (h : Keeps s0 s) (a1 a2 a3) : Keeps s0 (panelSoon s a1 a2 a3) := by
  unfold panelSoon
  with_reducible repeat' first
    | assumption | apply Keeps.ite | apply keeps_putTile

theorem keeps_takeAccum {s0 s : State} (h : Keeps s0 s) (a1 a2 a3 a4) : StartKept s0 (takeAccum s a1 a2 a3 a4) := by
  unfold takeAccum; dsimp only
  with_reducible repeat' first
    | assumption | apply StartKept.of_going | apply StartKept.of_fault | apply StartKept.of_notReady
    | apply StartKept.ite | apply Keeps.ite | apply keeps_runAccum | split

theorem keeps_startPanelLoad {s0 s : State} (h : Keeps s0 s) (a1 a2 a3 a4) : StartKept s0 (startPanelLoad s a1 a2 a3 a4) := by
  unfold startPanelLoad; dsimp only
  with_reducible repeat' first
    | assumption | apply StartKept.of_going | apply StartKept.of_fault | apply StartKept.of_notReady
    | apply StartKept.ite | apply Keeps.ite | apply keeps_putTile | split

theorem keeps_startAccum {s0 s : State} (h : Keeps s0 s) (a1 a2 a3) : StartKept s0 (startAccum s a1 a2 a3) := by
  unfold startAccum; dsimp only
  with_reducible repeat' first
    | assumption | apply StartKept.own | apply StartKept.ite | apply Keeps.ite | apply keeps_startPanelLoad
    | apply keeps_skipDw | apply keeps_takeAccum

end Sys2Proof.Machine
end

