-- ==== Sys2Proof/Laws/KeepsMove.lean ====
section
/-! SUPPORT. Laws/KeepsMove.lean: the functions of Machine/Move.lean keep the invariant and the queue. -/

set_option linter.unusedTactic false
set_option linter.unreachableTactic false

namespace Sys2Proof.Machine

theorem keeps_startLoad {s0 s : State} (h : Keeps s0 s) (a1 a2 a3) : StartKept s0 (startLoad s a1 a2 a3) := by
  unfold startLoad; dsimp only
  with_reducible repeat' first
    | assumption | apply StartKept.of_going | apply StartKept.of_fault | intro _ | apply StartKept.ite
    | apply Keeps.ite | apply Keeps.foldl | apply keeps_readFar | apply keeps_wakeRun | split

theorem keeps_writeNear {s0 s : State} (h : Keeps s0 s) (a1 a2 a3) : Keeps s0 (writeNear s a1 a2 a3) := by
  unfold writeNear
  with_reducible repeat' first
    | assumption | intro _ | apply Keeps.foldl | apply keeps_writeBytes

theorem keeps_loadComplete {s0 s : State} (h : Keeps s0 s) (a1 a2 a3) : Keeps s0 (loadComplete s a1 a2 a3) := by
  unfold loadComplete; dsimp only
  with_reducible repeat' first
    | assumption | intro _ | apply Keeps.ite | apply keeps_onceRead | apply keeps_dropFar
    | apply keeps_writeNear | apply keeps_finishInstr | split

theorem keeps_execLoadComplete {s0 s : State} (h : Keeps s0 s) (a1 a2 a3) : Kept s0 (execLoadComplete a1 a2 a3 s) := by
  unfold execLoadComplete
  with_reducible repeat' first
    | assumption | apply Kept.of_next | apply keeps_loadComplete

theorem keeps_localStore {s0 s : State} (h : Keeps s0 s) (a1 a2) : Keeps s0 (localStore s a1 a2) := by
  unfold localStore
  with_reducible repeat' first
    | assumption | intro _ | apply Keeps.foldl | apply keeps_bankWriteLines

theorem keeps_startStore {s0 s : State} (h : Keeps s0 s) (a1 a2 a3) : StartKept s0 (startStore s a1 a2 a3) := by
  unfold startStore; dsimp only
  with_reducible repeat' first
    | assumption | apply StartKept.of_done | apply StartKept.of_going | apply StartKept.of_fault
    | apply StartKept.ite | apply Keeps.ite | apply keeps_enqueue | apply keeps_localStore
    | apply keeps_remoteStore | split

end Sys2Proof.Machine
end

