-- ==== Sys2Proof/Laws/KeepsReduce.lean ====
section
/-! SUPPORT. Laws/KeepsReduce.lean: the functions of Machine/Reduce.lean keep the invariant and the queue. -/

set_option linter.unusedTactic false
set_option linter.unreachableTactic false

namespace Sys2Proof.Machine

theorem keeps_countClamped {s0 s : State} (h : Keeps s0 s) (a1 a2) : Keeps s0 (countClamped s a1 a2) := by
  unfold countClamped
  with_reducible repeat' first
    | assumption | apply keeps_tileCtr

theorem keeps_runSlotSum {s0 s : State} (h : Keeps s0 s) (a1 a2) : Keeps s0 (runSlotSum s a1 a2) := by
  unfold runSlotSum; dsimp only
  with_reducible repeat' first
    | assumption | apply keeps_countClamped | apply keeps_writeBytes

theorem keeps_startSlotSum {s0 s : State} (h : Keeps s0 s) (a1 a2 a3) : StartKept s0 (startSlotSum s a1 a2 a3) := by
  unfold startSlotSum; dsimp only
  with_reducible repeat' first
    | assumption | apply StartKept.of_done | apply StartKept.of_going | apply StartKept.of_fault
    | apply StartKept.ite | apply keeps_requestWatch | apply keeps_runSlotSum | split

theorem keeps_sparseCtr {s0 s : State} (h : Keeps s0 s) (a1 a2 a3) : Keeps s0 (sparseCtr s a1 a2 a3) := by
  unfold sparseCtr
  with_reducible repeat' first
    | assumption | apply keeps_addCtr

theorem keeps_writeSelection {s0 s : State} (h : Keeps s0 s) (a1 a2 a3) : Keeps s0 (writeSelection s a1 a2 a3) := by
  unfold writeSelection; dsimp only
  with_reducible repeat' first
    | assumption | apply Keeps.ite | apply keeps_writeBytes | apply keeps_sparseCtr

theorem keeps_startSelect {s0 s : State} (h : Keeps s0 s) (a1 a2 a3) : StartKept s0 (startSelect s a1 a2 a3) := by
  unfold startSelect; dsimp only
  with_reducible repeat' first
    | assumption | apply StartKept.of_done | apply StartKept.of_fault | apply StartKept.own
    | apply keeps_writeSelection | split

theorem keeps_addU32 {s0 s : State} (h : Keeps s0 s) (a1 a2) : Keeps s0 (addU32 s a1 a2).2 := by
  unfold addU32; dsimp only
  with_reducible repeat' first
    | assumption | apply Keeps.ite | apply Keeps.ite_snd | apply keeps_freshFree | split | dsimp only

theorem keeps_writeAudit {s0 s : State} (h : Keeps s0 s) (a1 a2 a3) : Keeps s0 (writeAudit s a1 a2 a3) := by
  unfold writeAudit; dsimp only
  with_reducible repeat' first
    | assumption | intro _ | apply Keeps.ite | apply Keeps.foldl | apply keeps_addU32 | apply keeps_writeBytes
    | apply keeps_sparseCtr | apply keeps_raise

theorem keeps_startAudit {s0 s : State} (h : Keeps s0 s) (a1 a2 a3) : StartKept s0 (startAudit s a1 a2 a3) := by
  unfold startAudit; dsimp only
  with_reducible repeat' first
    | assumption | apply StartKept.of_done | apply StartKept.of_fault | apply StartKept.own
    | apply keeps_writeAudit | split

theorem keeps_writeDx {s0 s : State} (h : Keeps s0 s) (a1 a2 a3 a4) : Keeps s0 (writeDx s a1 a2 a3 a4) := by
  unfold writeDx; dsimp only
  with_reducible repeat' first
    | assumption | apply Keeps.ite | apply keeps_countClamped | apply keeps_writeBytes

theorem keeps_runNorm {s0 s : State} (h : Keeps s0 s) (a1 a2) : Keeps s0 (runNorm s a1 a2) := by
  unfold runNorm; dsimp only
  with_reducible repeat' first
    | assumption | intro _ | apply Keeps.ite | apply Keeps.foldl | apply keeps_writeDx | apply keeps_bankCombine

theorem keeps_runSoft {s0 s : State} (h : Keeps s0 s) (a1 a2) : Keeps s0 (runSoft s a1 a2) := by
  unfold runSoft
  with_reducible repeat' first
    | assumption | intro _ | apply Keeps.foldl | apply keeps_writeDx

theorem keeps_startRecompute {s0 s : State} (h : Keeps s0 s) (a1 a2) : StartKept s0 (startRecompute s a1 a2) := by
  unfold startRecompute; dsimp only
  with_reducible repeat' first
    | assumption | apply StartKept.of_done | apply StartKept.of_fault | apply StartKept.own
    | apply StartKept.ite | apply Keeps.ite | apply keeps_tileCtr | apply keeps_runNorm | apply keeps_runSoft
    | split

end Sys2Proof.Machine
end

