-- ==== Sys2Proof/Laws/KeepsVector.lean ====
section
/-! SUPPORT. Laws/KeepsVector.lean: the functions of Machine/Vector.lean keep the invariant and the queue. -/

set_option linter.unusedTactic false
set_option linter.unreachableTactic false

namespace Sys2Proof.Machine

theorem keeps_vCount {s0 s : State} (h : Keeps s0 s) (a1 a2 a3) : Keeps s0 (vCount s a1 a2 a3) := by
  unfold vCount; dsimp only
  with_reducible repeat' first
    | assumption | apply Keeps.ite | apply keeps_tileCtr | split

theorem keeps_vecFault {s0 s : State} (h : Keeps s0 s) (a1 a2 a3) : Keeps s0 (vecFault s a1 a2 a3) := by
  unfold vecFault; dsimp only
  with_reducible repeat' first
    | assumption | apply keeps_tileFault | apply keeps_putTile

theorem keeps_vecStep {s0 s : State} (h : Keeps s0 s) (a1 a2) : Keeps s0 (vecStep s a1 a2) := by
  unfold vecStep; dsimp only
  with_reducible repeat' first
    | assumption | intro _ | apply Keeps.ite | apply keeps_vecFault | apply keeps_finishInstr
    | apply keeps_onceRead | apply keeps_writeNat | apply keeps_vCount | apply keeps_putTile | split

theorem keeps_vecFetch {s0 s : State} (h : Keeps s0 s) (a1) : Keeps s0 (vecFetch s a1) := by
  unfold vecFetch; dsimp only
  with_reducible repeat' first
    | assumption | intro _ | apply keeps_onceRead | apply keeps_vecStep

theorem keeps_startVexec {s0 s : State} (h : Keeps s0 s) (a1 a2) : StartKept s0 (startVexec s a1 a2) := by
  unfold startVexec; dsimp only
  with_reducible repeat' first
    | assumption | apply StartKept.of_going | apply keeps_putTile

theorem keeps_execVend {s0 s : State} (h : Keeps s0 s) (a1 a2) : Kept s0 (execVend a1 a2 s) := by
  unfold execVend
  with_reducible repeat' first
    | assumption | apply Kept.of_next | apply keeps_vecStep

theorem keeps_execVld {s0 s : State} (h : Keeps s0 s) (a1 a2) : Kept s0 (execVld a1 a2 s) := by
  unfold execVld
  with_reducible repeat' first
    | assumption | apply Kept.of_next | apply keeps_vecStep

theorem keeps_execVst {s0 s : State} (h : Keeps s0 s) (a1 a2) : Kept s0 (execVst a1 a2 s) := by
  unfold execVst
  with_reducible repeat' first
    | assumption | apply Kept.of_next | apply keeps_vecStep

theorem keeps_execVadd {s0 s : State} (h : Keeps s0 s) (a1 a2) : Kept s0 (execVadd a1 a2 s) := by
  unfold execVadd
  with_reducible repeat' first
    | assumption | apply Kept.of_next | apply keeps_vecStep

theorem keeps_execVsub {s0 s : State} (h : Keeps s0 s) (a1 a2) : Kept s0 (execVsub a1 a2 s) := by
  unfold execVsub
  with_reducible repeat' first
    | assumption | apply Kept.of_next | apply keeps_vecStep

theorem keeps_execVmul {s0 s : State} (h : Keeps s0 s) (a1 a2) : Kept s0 (execVmul a1 a2 s) := by
  unfold execVmul
  with_reducible repeat' first
    | assumption | apply Kept.of_next | apply keeps_vecStep

theorem keeps_execVfma {s0 s : State} (h : Keeps s0 s) (a1 a2) : Kept s0 (execVfma a1 a2 s) := by
  unfold execVfma
  with_reducible repeat' first
    | assumption | apply Kept.of_next | apply keeps_vecStep

theorem keeps_execVmax {s0 s : State} (h : Keeps s0 s) (a1 a2) : Kept s0 (execVmax a1 a2 s) := by
  unfold execVmax
  with_reducible repeat' first
    | assumption | apply Kept.of_next | apply keeps_vecStep

theorem keeps_execVmin {s0 s : State} (h : Keeps s0 s) (a1 a2) : Kept s0 (execVmin a1 a2 s) := by
  unfold execVmin
  with_reducible repeat' first
    | assumption | apply Kept.of_next | apply keeps_vecStep

theorem keeps_execVcgt {s0 s : State} (h : Keeps s0 s) (a1 a2) : Kept s0 (execVcgt a1 a2 s) := by
  unfold execVcgt
  with_reducible repeat' first
    | assumption | apply Kept.of_next | apply keeps_vecStep

theorem keeps_execVsel {s0 s : State} (h : Keeps s0 s) (a1 a2) : Kept s0 (execVsel a1 a2 s) := by
  unfold execVsel
  with_reducible repeat' first
    | assumption | apply Kept.of_next | apply keeps_vecStep

theorem keeps_execVexp {s0 s : State} (h : Keeps s0 s) (a1 a2) : Kept s0 (execVexp a1 a2 s) := by
  unfold execVexp
  with_reducible repeat' first
    | assumption | apply Kept.of_next | apply keeps_vecStep

theorem keeps_execVlog {s0 s : State} (h : Keeps s0 s) (a1 a2) : Kept s0 (execVlog a1 a2 s) := by
  unfold execVlog
  with_reducible repeat' first
    | assumption | apply Kept.of_next | apply keeps_vecStep

theorem keeps_execVrcp {s0 s : State} (h : Keeps s0 s) (a1 a2) : Kept s0 (execVrcp a1 a2 s) := by
  unfold execVrcp
  with_reducible repeat' first
    | assumption | apply Kept.of_next | apply keeps_vecStep

theorem keeps_execVrsq {s0 s : State} (h : Keeps s0 s) (a1 a2) : Kept s0 (execVrsq a1 a2 s) := by
  unfold execVrsq
  with_reducible repeat' first
    | assumption | apply Kept.of_next | apply keeps_vecStep

theorem keeps_execVcvt {s0 s : State} (h : Keeps s0 s) (a1 a2) : Kept s0 (execVcvt a1 a2 s) := by
  unfold execVcvt
  with_reducible repeat' first
    | assumption | apply Kept.of_next | apply keeps_vecStep

theorem keeps_execVand {s0 s : State} (h : Keeps s0 s) (a1 a2) : Kept s0 (execVand a1 a2 s) := by
  unfold execVand
  with_reducible repeat' first
    | assumption | apply Kept.of_next | apply keeps_vecStep

theorem keeps_execVor {s0 s : State} (h : Keeps s0 s) (a1 a2) : Kept s0 (execVor a1 a2 s) := by
  unfold execVor
  with_reducible repeat' first
    | assumption | apply Kept.of_next | apply keeps_vecStep

theorem keeps_execVxor {s0 s : State} (h : Keeps s0 s) (a1 a2) : Kept s0 (execVxor a1 a2 s) := by
  unfold execVxor
  with_reducible repeat' first
    | assumption | apply Kept.of_next | apply keeps_vecStep

theorem keeps_execVshl {s0 s : State} (h : Keeps s0 s) (a1 a2) : Kept s0 (execVshl a1 a2 s) := by
  unfold execVshl
  with_reducible repeat' first
    | assumption | apply Kept.of_next | apply keeps_vecStep

theorem keeps_execVbc {s0 s : State} (h : Keeps s0 s) (a1 a2) : Kept s0 (execVbc a1 a2 s) := by
  unfold execVbc
  with_reducible repeat' first
    | assumption | apply Kept.of_next | apply keeps_vecStep

theorem keeps_execVrsum {s0 s : State} (h : Keeps s0 s) (a1 a2) : Kept s0 (execVrsum a1 a2 s) := by
  unfold execVrsum
  with_reducible repeat' first
    | assumption | apply Kept.of_next | apply keeps_vecStep

theorem keeps_execVrmax {s0 s : State} (h : Keeps s0 s) (a1 a2) : Kept s0 (execVrmax a1 a2 s) := by
  unfold execVrmax
  with_reducible repeat' first
    | assumption | apply Kept.of_next | apply keeps_vecStep

theorem keeps_execSadd {s0 s : State} (h : Keeps s0 s) (a1 a2) : Kept s0 (execSadd a1 a2 s) := by
  unfold execSadd
  with_reducible repeat' first
    | assumption | apply Kept.of_next | apply keeps_vecStep

theorem keeps_execSloop {s0 s : State} (h : Keeps s0 s) (a1 a2) : Kept s0 (execSloop a1 a2 s) := by
  unfold execSloop
  with_reducible repeat' first
    | assumption | apply Kept.of_next | apply keeps_vecStep

theorem keeps_execSld {s0 s : State} (h : Keeps s0 s) (a1 a2) : Kept s0 (execSld a1 a2 s) := by
  unfold execSld
  with_reducible repeat' first
    | assumption | apply Kept.of_next | apply keeps_vecStep

theorem keeps_execSst {s0 s : State} (h : Keeps s0 s) (a1 a2) : Kept s0 (execSst a1 a2 s) := by
  unfold execSst
  with_reducible repeat' first
    | assumption | apply Kept.of_next | apply keeps_vecStep

theorem keeps_execSwread {s0 s : State} (h : Keeps s0 s) (a1 a2) : Kept s0 (execSwread a1 a2 s) := by
  unfold execSwread
  with_reducible repeat' first
    | assumption | apply Kept.of_next | apply keeps_vecStep

end Sys2Proof.Machine
end

