-- ==== Sys2Proof/Laws/KeepsEngine.lean ====
section
/-! SUPPORT. Laws/KeepsEngine.lean: the functions of Machine/Engine.lean keep the invariant and the queue. -/

set_option linter.unusedTactic false
set_option linter.unreachableTactic false

namespace Sys2Proof.Machine

theorem keeps_startClass {s0 s : State} (h : Keeps s0 s) (a1 a2 a3) : StartKept s0 (startClass s a1 a2 a3) := by
  unfold startClass
  with_reducible repeat' first
    | assumption | apply StartKept.ite | apply Keeps.ite | apply keeps_startAccum | apply keeps_startDrain
    | apply keeps_startLoad | apply keeps_startStore | apply keeps_startRequest | apply keeps_startUpdate
    | apply keeps_startVexec | apply keeps_startSlotSum | apply keeps_startSelect | apply keeps_startAudit
    | apply keeps_startRecompute | apply keeps_startRemoteSignal | apply keeps_startSignal
    | apply keeps_startWatch | apply keeps_startWait | split

theorem keeps_afterStart {s0 s : State} (h : Keeps s0 s) (t q) {o : Started} (ho : StartKept s0 o) :
    MayKeep s0 (afterStart s t q o) := by
  refine ⟨fun u hu => ?_⟩
  cases o with
  | fault f => cases hu; exact keeps_tileFault h ..
  | done s' => cases hu; exact keeps_finishInstr (ho.done _ rfl) ..
  | going s' w d => cases hu; exact keeps_putTile (ho.going _ _ _ rfl) ..
  | notReady => cases hu

theorem keeps_startMeets {s0 s : State} (h : Keeps s0 s) (a1 a2 a3) : MayKeep s0 (startMeets s a1 a2 a3) := by
  unfold startMeets
  with_reducible repeat' first
    | assumption | apply Keeps.ite | apply keeps_meetLevels | refine MayKeep.some ?_ _ (by assumption)
    | apply MayKeep.ite | exact MayKeep.of_none | exact MayKeep.of_some (by assumption)

theorem keeps_wakeStart {s0 s : State} (h : Keeps s0 s) (a1 a2 a3) : Keeps s0 (wakeStart s a1 a2 a3) := by
  unfold wakeStart
  with_reducible repeat' first
    | assumption | apply Keeps.ite | apply keeps_wakeRuns

theorem keeps_tryStart {s0 s : State} (h : Keeps s0 s) (p t q) : MayKeep s0 (tryStart s p t q) := by
  unfold tryStart
  dsimp only
  refine .ite ?_ .of_none
  have hw := keeps_wakeStart h p t q
  generalize wakeStart s p t q = w at hw
  split
  · exact .ite .of_none (.of_some ((keeps_startMeets hw ..).some _ (by assumption)))
  · exact keeps_afterStart (keeps_putTile hw ..) _ _ (keeps_startClass (keeps_putTile hw ..) ..)

theorem keeps_onceReads {s0 s : State} (h : Keeps s0 s) (t i l) {r : Started} (hr : StartKept s0 r) :
    StartKept s0 (onceReads s t i l r) := by
  unfold onceReads
  split
  · rename_i hm
    exact .ite .of_notReady (.of_going ((keeps_meetRuns h _).some _ hm))
  · exact hr

theorem keeps_resumeClass {s0 s : State} (h : Keeps s0 s) (a1 a2 a3) : StartKept s0 (resumeClass s a1 a2 a3) := by
  unfold resumeClass
  with_reducible repeat' first
    | assumption | apply StartKept.of_done | apply StartKept.of_going | apply StartKept.of_notReady
    | apply StartKept.own | apply StartKept.ite | apply Keeps.ite | apply keeps_runDrain | apply keeps_skipDw
    | apply keeps_takeAccum | apply keeps_onceReads | apply keeps_runSlotSum | apply keeps_runAccum
    | apply keeps_storeDrain | apply keeps_startRemoteSignal | apply keeps_emitSignal
    | (refine Keeps.upd ?_ ..; assumption) | split

theorem keeps_goOn {s0 s : State} (h : Keeps s0 s) (p t i) : MayKeep s0 (goOn s p t i) :=
  keeps_afterStart (keeps_putTile h ..) _ _ (keeps_resumeClass (keeps_putTile h ..) ..)

theorem keeps_startOf {s0 s : State} (h : Keeps s0 s) (p t e x) : MayKeep s0 (startOf s p t e x) := by
  refine ⟨fun u hu => ?_⟩
  unfold startOf at hu
  dsimp only at hu
  split at hu
  · exact (keeps_goOn h ..).some _ hu
  · obtain ⟨q, -, hq⟩ := Option.bind_eq_some_iff.mp hu
    exact (keeps_tryStart h ..).some _ hq

theorem keeps_readyStarts {s0 s : State} (h : Keeps s0 s) (p t e) : ∀ r ∈ readyStarts s p t e, Keeps s0 r.2 := by
  intro r hr
  obtain ⟨x, -, hx⟩ := List.mem_filterMap.mp hr
  obtain ⟨u, hu, rfl⟩ := Option.map_eq_some_iff.mp hx
  exact (keeps_startOf h p t e x).some u hu

theorem keeps_streamOn {s0 s : State} (h : Keeps s0 s) (a1 a2) : Keeps s0 (streamOn s a1 a2) := by
  unfold streamOn; dsimp only
  with_reducible repeat' first
    | assumption | intro _ | apply Keeps.ite | apply keeps_onceRead | apply keeps_putTile | split

theorem keeps_arbitrate {s0 s : State} (h : Keeps s0 s) (t e) : Keeps s0 (arbitrate s t e) := by
  unfold arbitrate
  dsimp only
  split
  · exact h
  · split
    · exact h
    · rename_i r hr
      have hk : Keeps s0 r.2 := by
        refine keeps_readyStarts h ((partOfTile s t).getD 0) t e r ?_
        cases hf : (readyStarts s ((partOfTile s t).getD 0) t e).find? (fun r =>
          decide (settingAt s (1 + t) 0x3110 2 ≤ mget 0 (getTile s t).starve (starveKey e r.1))) with
        | some r' =>
          rw [hf] at hr
          cases hr
          exact List.mem_of_find?_eq_some hf
        | none =>
          rw [hf] at hr
          exact List.mem_of_mem_head? hr
      exact keeps_putTile (.ite (keeps_tileCtr hk ..) hk) ..

theorem keeps_finishVisible {s0 s : State} (h : Keeps s0 s) (a1) : Keeps s0 (finishVisible s a1) := by
  unfold finishVisible; dsimp only
  with_reducible repeat' first
    | assumption | intro _ | apply Keeps.ite | apply Keeps.foldl | apply keeps_putTile

theorem keeps_tileInstr {s0 s : State} (h : Keeps s0 s) (a1 a2 a3) : Keeps s0 (tileInstr s a1 a2 a3) := by
  unfold tileInstr; dsimp only
  with_reducible repeat' first
    | assumption | apply Keeps.ite | apply keeps_dispatch | apply keeps_arbitrate

theorem keeps_runWord {s0 s : State} (h : Keeps s0 s) (a1 a2 a3 a4) : Keeps s0 (runWord a1 a2 a3 a4 s) := by
  unfold runWord
  with_reducible repeat' first
    | assumption | apply keeps_tileInstr

theorem keeps_execHandOver {s0 s : State} (h : Keeps s0 s) (a1) : Kept s0 (execHandOver a1 s) := by
  unfold execHandOver
  with_reducible repeat' first
    | assumption | apply Kept.of_next | apply Kept.ite | apply Keeps.ite | apply keeps_handOver

theorem keeps_panelLoaded {s0 s : State} (h : Keeps s0 s) (a1 a2 a3) : Keeps s0 (panelLoaded s a1 a2 a3) := by
  unfold panelLoaded; dsimp only
  with_reducible repeat' first
    | assumption | intro _ | apply Keeps.ite | apply keeps_onceRead | apply keeps_tileCtr
    | apply keeps_arbitrate | apply keeps_putTile | split

theorem keeps_execPanelLoadComplete {s0 s : State} (h : Keeps s0 s) (a1 a2 a3) : Kept s0 (execPanelLoadComplete a1 a2 a3 s) := by
  unfold execPanelLoadComplete
  with_reducible repeat' first
    | assumption | apply Kept.of_next | apply keeps_panelLoaded

theorem keeps_execSideOperandLoaded {s0 s : State} (h : Keeps s0 s) (a1 a2 a3) : Kept s0 (execSideOperandLoaded a1 a2 a3 s) := by
  unfold execSideOperandLoaded; dsimp only
  with_reducible repeat' first
    | assumption | apply Kept.of_next | intro _ | apply keeps_onceRead | apply keeps_arbitrate
    | apply keeps_sideLoaded | split

theorem keeps_execTokenTimeout {s0 s : State} (h : Keeps s0 s) (a1 a2 a3) : Kept s0 (execTokenTimeout a1 a2 a3 s) := by
  unfold execTokenTimeout; dsimp only
  with_reducible repeat' first
    | assumption | apply Kept.of_next | apply Kept.ite | apply Keeps.ite | apply keeps_putTile
    | apply keeps_addCause | apply keeps_raise

theorem keeps_runStream {s0 s : State} (h : Keeps s0 s) (a1 a2) : Keeps s0 (runStream s a1 a2) := by
  unfold runStream; dsimp only
  with_reducible repeat' first
    | assumption | apply Keeps.ite | apply keeps_putTile | apply keeps_wakeDomain

theorem keeps_execStreamRun {s0 s : State} (h : Keeps s0 s) (a1 a2) : Kept s0 (execStreamRun a1 a2 s) := by
  unfold execStreamRun
  with_reducible repeat' first
    | assumption | apply Kept.of_next | apply keeps_runStream

theorem keeps_execNop {s0 s : State} (h : Keeps s0 s) (a1 a2 a3) : Kept s0 (execNop a1 a2 a3 s) := by
  unfold execNop
  with_reducible repeat' first
    | assumption | apply Kept.of_next | apply keeps_runWord

theorem keeps_execStep {s0 s : State} (h : Keeps s0 s) (a1 a2 a3) : Kept s0 (execStep a1 a2 a3 s) := by
  unfold execStep
  with_reducible repeat' first
    | assumption | apply Kept.of_next | apply keeps_runWord

theorem keeps_execJump {s0 s : State} (h : Keeps s0 s) (a1 a2 a3) : Kept s0 (execJump a1 a2 a3 s) := by
  unfold execJump
  with_reducible repeat' first
    | assumption | apply Kept.of_next | apply keeps_runWord

theorem keeps_execEndStream {s0 s : State} (h : Keeps s0 s) (a1 a2 a3) : Kept s0 (execEndStream a1 a2 a3 s) := by
  unfold execEndStream
  with_reducible repeat' first
    | assumption | apply Kept.of_next | apply keeps_runWord

theorem keeps_execMma {s0 s : State} (h : Keeps s0 s) (a1 a2 a3) : Kept s0 (execMma a1 a2 a3 s) := by
  unfold execMma
  with_reducible repeat' first
    | assumption | apply Kept.of_next | apply keeps_runWord

theorem keeps_execMmaT {s0 s : State} (h : Keeps s0 s) (a1 a2 a3) : Kept s0 (execMmaT a1 a2 a3 s) := by
  unfold execMmaT
  with_reducible repeat' first
    | assumption | apply Kept.of_next | apply keeps_runWord

theorem keeps_execBwd2 {s0 s : State} (h : Keeps s0 s) (a1 a2 a3) : Kept s0 (execBwd2 a1 a2 a3 s) := by
  unfold execBwd2
  with_reducible repeat' first
    | assumption | apply Kept.of_next | apply keeps_runWord

theorem keeps_execDrain {s0 s : State} (h : Keeps s0 s) (a1 a2 a3) : Kept s0 (execDrain a1 a2 a3 s) := by
  unfold execDrain
  with_reducible repeat' first
    | assumption | apply Kept.of_next | apply keeps_runWord

theorem keeps_execLoad {s0 s : State} (h : Keeps s0 s) (a1 a2 a3) : Kept s0 (execLoad a1 a2 a3 s) := by
  unfold execLoad
  with_reducible repeat' first
    | assumption | apply Kept.of_next | apply keeps_runWord

theorem keeps_execLoadt {s0 s : State} (h : Keeps s0 s) (a1 a2 a3) : Kept s0 (execLoadt a1 a2 a3 s) := by
  unfold execLoadt
  with_reducible repeat' first
    | assumption | apply Kept.of_next | apply keeps_runWord

theorem keeps_execStore {s0 s : State} (h : Keeps s0 s) (a1 a2 a3) : Kept s0 (execStore a1 a2 a3 s) := by
  unfold execStore
  with_reducible repeat' first
    | assumption | apply Kept.of_next | apply keeps_runWord

theorem keeps_execGather {s0 s : State} (h : Keeps s0 s) (a1 a2 a3) : Kept s0 (execGather a1 a2 a3 s) := by
  unfold execGather
  with_reducible repeat' first
    | assumption | apply Kept.of_next | apply keeps_runWord

theorem keeps_execScatterAdd {s0 s : State} (h : Keeps s0 s) (a1 a2 a3) : Kept s0 (execScatterAdd a1 a2 a3 s) := by
  unfold execScatterAdd
  with_reducible repeat' first
    | assumption | apply Kept.of_next | apply keeps_runWord

theorem keeps_execUpdP1 {s0 s : State} (h : Keeps s0 s) (a1 a2 a3) : Kept s0 (execUpdP1 a1 a2 a3 s) := by
  unfold execUpdP1
  with_reducible repeat' first
    | assumption | apply Kept.of_next | apply keeps_runWord

theorem keeps_execUpdP2 {s0 s : State} (h : Keeps s0 s) (a1 a2 a3) : Kept s0 (execUpdP2 a1 a2 a3 s) := by
  unfold execUpdP2
  with_reducible repeat' first
    | assumption | apply Kept.of_next | apply keeps_runWord

theorem keeps_execVexec {s0 s : State} (h : Keeps s0 s) (a1 a2 a3) : Kept s0 (execVexec a1 a2 a3 s) := by
  unfold execVexec
  with_reducible repeat' first
    | assumption | apply Kept.of_next | apply keeps_runWord

theorem keeps_execReduceSlotSum {s0 s : State} (h : Keeps s0 s) (a1 a2 a3) : Kept s0 (execReduceSlotSum a1 a2 a3 s) := by
  unfold execReduceSlotSum
  with_reducible repeat' first
    | assumption | apply Kept.of_next | apply keeps_runWord

theorem keeps_execReduceSelect {s0 s : State} (h : Keeps s0 s) (a1 a2 a3) : Kept s0 (execReduceSelect a1 a2 a3 s) := by
  unfold execReduceSelect
  with_reducible repeat' first
    | assumption | apply Kept.of_next | apply keeps_runWord

theorem keeps_execReduceAudit {s0 s : State} (h : Keeps s0 s) (a1 a2 a3) : Kept s0 (execReduceAudit a1 a2 a3 s) := by
  unfold execReduceAudit
  with_reducible repeat' first
    | assumption | apply Kept.of_next | apply keeps_runWord

theorem keeps_execNormrc {s0 s : State} (h : Keeps s0 s) (a1 a2 a3) : Kept s0 (execNormrc a1 a2 a3 s) := by
  unfold execNormrc
  with_reducible repeat' first
    | assumption | apply Kept.of_next | apply keeps_runWord

theorem keeps_execSmaxrc {s0 s : State} (h : Keeps s0 s) (a1 a2 a3) : Kept s0 (execSmaxrc a1 a2 a3 s) := by
  unfold execSmaxrc
  with_reducible repeat' first
    | assumption | apply Kept.of_next | apply keeps_runWord

theorem keeps_execSignal {s0 s : State} (h : Keeps s0 s) (a1 a2 a3) : Kept s0 (execSignal a1 a2 a3 s) := by
  unfold execSignal
  with_reducible repeat' first
    | assumption | apply Kept.of_next | apply keeps_runWord

theorem keeps_execWatch {s0 s : State} (h : Keeps s0 s) (a1 a2 a3) : Kept s0 (execWatch a1 a2 a3 s) := by
  unfold execWatch
  with_reducible repeat' first
    | assumption | apply Kept.of_next | apply keeps_runWord

theorem keeps_execWait {s0 s : State} (h : Keeps s0 s) (a1 a2 a3) : Kept s0 (execWait a1 a2 a3 s) := by
  unfold execWait
  with_reducible repeat' first
    | assumption | apply Kept.of_next | apply keeps_runWord

end Sys2Proof.Machine
end

