-- ==== Sys2Proof/Laws/KeepsReduction.lean ====
section
/-! SUPPORT. Laws/KeepsReduction.lean: the functions of Machine/Reduction.lean keep the invariant and the queue. -/

set_option linter.unusedTactic false
set_option linter.unreachableTactic false

namespace Sys2Proof.Machine

theorem keeps_putRed {s0 s : State} (h : Keeps s0 s) (a1) : Keeps s0 (putRed s a1) := by
  unfold putRed
  with_reducible repeat' first
    | assumption | apply Keeps.ite | apply keeps_putLft

theorem keeps_sendRed {s0 s : State} (h : Keeps s0 s) (a1 a2 a3) : Keeps s0 (sendRed s a1 a2 a3) := by
  unfold sendRed; dsimp only
  with_reducible repeat' first
    | assumption | apply keeps_queuePkts | apply keeps_pump

theorem keeps_redMismatch {s0 s : State} (h : Keeps s0 s) (a1) : Keeps s0 (redMismatch s a1) := by
  unfold redMismatch; dsimp only
  with_reducible repeat' first
    | assumption | apply keeps_putLft | apply keeps_addHold | apply keeps_raise

theorem keeps_runRed {s0 s : State} (h : Keeps s0 s) (a1 a2) : Keeps s0 (runRed a1 s a2) := by
  induction a1 generalizing s a2 with
  | zero => exact h
  | succ k ih =>
    unfold runRed; dsimp only
    with_reducible repeat' first
      | assumption | apply Keeps.ite | apply keeps_putRed | apply keeps_sendRed | apply keeps_redMismatch
      | apply ih | split

theorem keeps_reduceStore {s0 s : State} (h : Keeps s0 s) (a1 a2) : Keeps s0 (reduceStore a1 a2 s) := by
  unfold reduceStore; dsimp only
  with_reducible repeat' first
    | assumption | intro _ | apply Keeps.ite | apply keeps_atDoorbell | apply keeps_putLft | apply keeps_runRed

theorem keeps_execReduceDoorbell {s0 s : State} (h : Keeps s0 s) (a1 a2) : Kept s0 (execReduceDoorbell a1 a2 s) := by
  unfold execReduceDoorbell
  with_reducible repeat' first
    | assumption | apply Kept.of_next | intro _ | apply keeps_byCore | apply keeps_reduceStore

theorem keeps_contribute {s0 s : State} (h : Keeps s0 s) (a1 a2 a3 a4 a5) : Keeps s0 (contribute s a1 a2 a3 a4 a5) := by
  unfold contribute; dsimp only
  with_reducible repeat' first
    | assumption | apply keeps_runRed | apply keeps_putRed | apply keeps_putLft | split

theorem keeps_execLftReduceReceived {s0 s : State} (h : Keeps s0 s) (a1 a2) : Kept s0 (execLftReduceReceived a1 a2 s) := by
  unfold execLftReduceReceived; dsimp only
  with_reducible repeat' first
    | assumption | apply Kept.of_next | intro _ | apply Kept.ite | apply Keeps.ite | apply Keeps.ite_fst
    | apply Keeps.ite_snd | apply keeps_fromPeer | apply keeps_receiveSeq | apply keeps_contribute
    | (refine Keeps.upd ?_ ..; assumption) | split | dsimp only

theorem keeps_resultVals {s0 s : State} (h : Keeps s0 s) (r) : Keeps s0 (resultVals s r).2 := by
  unfold resultVals
  refine List.foldlRecOn (motive := fun (p : List Nat × State) => Keeps s0 p.2) (upFrom 0 8) _ h ?_
  intro p hp i _
  dsimp only
  split
  · exact keeps_freshFree hp
  · exact hp

theorem keeps_execReductionDone {s0 s : State} (h : Keeps s0 s) (a1) : Kept s0 (execReductionDone a1 s) := by
  unfold execReductionDone; dsimp only
  with_reducible repeat' first
    | assumption | apply Kept.of_next | apply Kept.ite | apply Keeps.ite | apply keeps_resultVals
    | apply keeps_writeBytes | apply keeps_lftCtr | apply keeps_putLft | apply keeps_signalOne | split

end Sys2Proof.Machine
end

