-- ==== Sys2Proof/Laws/KeepsRefill.lean ====
section
/-! SUPPORT. Laws/KeepsRefill.lean: the functions of Machine/Refill.lean keep the invariant and the queue. -/

set_option linter.unusedTactic false
set_option linter.unreachableTactic false

namespace Sys2Proof.Machine

theorem keeps_askRefill {s0 s : State} (h : Keeps s0 s) (a1 a2 a3) : Keeps s0 (askRefill a1 a2 s a3) := by
  unfold askRefill
  with_reducible repeat' first
    | assumption | apply Keeps.ite | apply keeps_readFar | apply keeps_putLft | split

theorem keeps_forgetRefill {s0 s : State} (h : Keeps s0 s) (a1) : Keeps s0 (forgetRefill s a1) := by
  unfold forgetRefill; dsimp only
  with_reducible repeat' first
    | assumption | apply keeps_dropFar | apply keeps_putLft

theorem keeps_seekOne {s0 s : State} (h : Keeps s0 s) (a1) : Keeps s0 (seekOne s a1) := by
  unfold seekOne; dsimp only
  with_reducible repeat' first
    | assumption | intro _ | apply Keeps.ite | apply Keeps.foldl | apply keeps_failRefill
    | apply keeps_putMemErr | apply keeps_askRefill | apply keeps_forgetRefill | split

theorem keeps_dropFailed {s0 s : State} (h : Keeps s0 s) (a1) : Keeps s0 (dropFailed s a1) := by
  unfold dropFailed
  with_reducible repeat' first
    | assumption | apply Keeps.ite | apply keeps_failRefill | apply keeps_forgetRefill | apply keeps_putMemErr

theorem keeps_seekRefills {s0 s : State} (h : Keeps s0 s) : Keeps s0 (seekRefills s) := by
  unfold seekRefills; dsimp only
  with_reducible repeat' first
    | assumption | intro _ | apply Keeps.foldl | apply keeps_seekOne | apply keeps_dropFailed

theorem keeps_healLine {s0 s : State} (h : Keeps s0 s) (a1) : Keeps s0 (healLine s a1) := by
  unfold healLine
  with_reducible repeat' first
    | assumption | apply Keeps.ite | apply keeps_putMemErr

theorem keeps_refillWith {s0 s : State} (h : Keeps s0 s) (a1 a2) : Keeps s0 (refillWith s a1 a2) := by
  unfold refillWith; dsimp only
  with_reducible repeat' first
    | assumption | intro _ | apply Keeps.ite | apply Keeps.foldl | apply keeps_serveFar | apply keeps_takeParked
    | apply keeps_putMemErr | apply keeps_pokeMemory | apply keeps_retireLine | apply keeps_serveOne
    | apply keeps_healLine | split

theorem keeps_countCorrected {s0 s : State} (h : Keeps s0 s) (a1) : Keeps s0 (countCorrected s a1) := by
  unfold countCorrected
  with_reducible repeat' first
    | assumption | apply Keeps.ite | apply keeps_tileCtr | apply keeps_addCtr | split

theorem keeps_execRefillArrived {s0 s : State} (h : Keeps s0 s) (a1 a2 a3) : Kept s0 (execRefillArrived a1 a2 a3 s) := by
  unfold execRefillArrived; dsimp only
  with_reducible repeat' first
    | assumption | apply Kept.of_next | apply Kept.ite | apply Keeps.ite | apply keeps_putMemErr
    | apply keeps_failRefill | apply keeps_forgetRefill | apply keeps_addCtr | apply keeps_admitPoison
    | apply keeps_refillWith | apply keeps_notePoison | apply keeps_countCorrected | split

end Sys2Proof.Machine
end

