-- ==== Sys2Proof/Laws/KeepsWork.lean ====
section
/-! SUPPORT. Laws/KeepsWork.lean: the functions of Machine/Work.lean keep the invariant and the queue. -/

set_option linter.unusedTactic false
set_option linter.unreachableTactic false

namespace Sys2Proof.Machine

theorem keeps_putCore {s0 s : State} (h : Keeps s0 s) (a1 a2) : Keeps s0 (putCore s a1 a2) := by
  unfold putCore
  with_reducible repeat' first
    | assumption | apply keeps_putSched

theorem keeps_areaStore {s0 s : State} (h : Keeps s0 s) (a1 a2 a3 a4) : Keeps s0 (areaStore s a1 a2 a3 a4) := by
  unfold areaStore; dsimp only
  with_reducible repeat' first
    | assumption | apply Keeps.ite | apply keeps_ctlWrite | apply keeps_runStream | apply keeps_putTile | split

theorem keeps_windowStore {s0 s : State} (h : Keeps s0 s) (a1 a2 a3 a4) : Keeps s0 (windowStore s a1 a2 a3 a4) := by
  unfold windowStore; dsimp only
  with_reducible repeat' first
    | assumption | apply Keeps.ite | apply keeps_putLft | apply keeps_closeWindow

theorem keeps_peerStore {s0 s : State} (h : Keeps s0 s) (a1 a2 a3 a4) : Keeps s0 (peerStore s a1 a2 a3 a4) := by
  unfold peerStore
  with_reducible repeat' first
    | assumption | apply keeps_writePeer

theorem keeps_staleLoad {s0 s : State} (h : Keeps s0 s) (a1) : Keeps s0 (staleLoad s a1) := by
  unfold staleLoad; dsimp only
  with_reducible repeat' first
    | assumption | apply Keeps.ite | apply keeps_staleDrop | apply keeps_putCore

theorem keeps_endReservations {s0 s : State} (h : Keeps s0 s) (a1 a2 a3) : Keeps s0 (endReservations s a1 a2 a3) := by
  unfold endReservations; dsimp only
  with_reducible repeat' first
    | assumption | intro _ | apply Keeps.foldl | apply keeps_putCore

theorem keeps_storeAt {s0 s : State} (h : Keeps s0 s) (c p a n x k) : Keeps s0 (storeAt s c p a n x k) := by
  unfold storeAt
  with_reducible repeat' first
    | assumption | apply keeps_counterStore | apply keeps_areaStore | apply keeps_coreEnqueue | apply keeps_houndStore
    | apply keeps_publishStore | apply keeps_maskStore | apply keeps_reduceStore | apply keeps_windowStore
    | apply keeps_peerStore | apply keeps_writeNat | split

/-- What a load or a store of a work core leaves keeps it. -/
structure CoreKept (s0 : State) (o : CoreDone) : Prop where
  done : ∀ u v, o = .done u v → Keeps s0 u
  wait : ∀ u, o = .wait u → Keeps s0 u

theorem CoreKept.of_done {s0 s : State} {v : Nat} (h : Keeps s0 s) : CoreKept s0 (.done s v) :=
  ⟨fun _ _ hu => by cases hu; exact h, fun _ hu => by cases hu⟩

theorem CoreKept.of_wait {s0 s : State} (h : Keeps s0 s) : CoreKept s0 (.wait s) :=
  ⟨fun _ _ hu => by (cases hu), fun _ hu => by cases hu; exact h⟩

theorem CoreKept.of_fault {s0 : State} : CoreKept s0 .fault := ⟨fun _ _ hu => by (cases hu), fun _ hu => by cases hu⟩

theorem CoreKept.ite {s0 : State} {a b : CoreDone} {c : Prop} [Decidable c] (ha : CoreKept s0 a) (hb : CoreKept s0 b) :
    CoreKept s0 (if c then a else b) := by split <;> assumption

/-- What an instruction of a work core leaves keeps it. -/
structure RvKept (s0 : State) (o : RvDone) : Prop where
  next : ∀ u, o = .next u → Keeps s0 u
  wait : ∀ u, o = .wait u → Keeps s0 u

theorem RvKept.of_next {s0 s : State} (h : Keeps s0 s) : RvKept s0 (.next s) :=
  ⟨fun _ hu => by cases hu; exact h, fun _ hu => by cases hu⟩

theorem RvKept.of_wait {s0 s : State} (h : Keeps s0 s) : RvKept s0 (.wait s) :=
  ⟨fun _ hu => by (cases hu), fun _ hu => by cases hu; exact h⟩

theorem RvKept.of_trap {s0 : State} {k : Nat} : RvKept s0 (.trap k) := ⟨fun _ hu => by (cases hu), fun _ hu => by cases hu⟩

theorem RvKept.ite {s0 : State} {a b : RvDone} {c : Prop} [Decidable c] (ha : RvKept s0 a) (hb : RvKept s0 b) :
    RvKept s0 (if c then a else b) := by split <;> assumption

theorem keeps_coreLoad {s0 s : State} (h : Keeps s0 s) (c p a n) : CoreKept s0 (coreLoad s c p a n) := by
  have hw := keeps_wakeRuns h [(a, n)]
  unfold coreLoad
  dsimp only
  with_reducible repeat' first
    | assumption | apply CoreKept.of_done | apply CoreKept.of_wait | apply CoreKept.of_fault | apply CoreKept.ite
    | apply keeps_putCore | apply keeps_readFar | apply keeps_dropFar | apply keeps_freshFree | apply keeps_staleLoad
    | apply keeps_wakeDomain | exact (keeps_meetRuns hw _).some _ (by assumption) | split

theorem keeps_coreStore {s0 s : State} (h : Keeps s0 s) (c p a n x) : CoreKept s0 (coreStore s c p a n x) := by
  have hr := keeps_endReservations h c a n
  unfold coreStore
  dsimp only
  generalize endReservations s c a n = u at hr
  with_reducible repeat' first
    | assumption | apply CoreKept.of_done | apply CoreKept.of_wait | apply CoreKept.of_fault | apply CoreKept.ite
    | apply keeps_putSched | apply keeps_staleDrop | apply keeps_storeAt | apply keeps_wakeDomain | split

theorem load_done {s0 s u : State} {c p a n v : Nat} (he : coreLoad s c p a n = .done u v) (h : Keeps s0 s) : Keeps s0 u :=
  (keeps_coreLoad h ..).done _ _ he

theorem load_wait {s0 s u : State} {c p a n : Nat} (he : coreLoad s c p a n = .wait u) (h : Keeps s0 s) : Keeps s0 u :=
  (keeps_coreLoad h ..).wait _ he

theorem store_done {s0 s u : State} {c p a n x v : Nat} (he : coreStore s c p a n x = .done u v) (h : Keeps s0 s) :
    Keeps s0 u := (keeps_coreStore h ..).done _ _ he

theorem store_wait {s0 s u : State} {c p a n x : Nat} (he : coreStore s c p a n x = .wait u) (h : Keeps s0 s) : Keeps s0 u :=
  (keeps_coreStore h ..).wait _ he

theorem keeps_goTo {s0 s : State} (h : Keeps s0 s) (c pc f) : RvKept s0 (goTo s c pc f) := .of_next (keeps_putCore h ..)

theorem keeps_rvLoad {s0 s : State} (h : Keeps s0 s) (c p pc i) : RvKept s0 (rvLoad s c p pc i) := by
  unfold rvLoad
  dsimp only
  with_reducible repeat' first
    | assumption | exact .of_trap | apply RvKept.ite | apply keeps_goTo | apply RvKept.of_wait
    | refine load_done (by assumption) ?_ | refine load_wait (by assumption) ?_
    | refine store_done (by assumption) ?_ | refine store_wait (by assumption) ?_
    | split

theorem keeps_rvStore {s0 s : State} (h : Keeps s0 s) (c p pc i) : RvKept s0 (rvStore s c p pc i) := by
  unfold rvStore
  dsimp only
  with_reducible repeat' first
    | assumption | exact .of_trap | apply RvKept.ite | apply keeps_goTo | apply RvKept.of_wait
    | refine load_done (by assumption) ?_ | refine load_wait (by assumption) ?_
    | refine store_done (by assumption) ?_ | refine store_wait (by assumption) ?_
    | split

theorem keeps_rvFLoad {s0 s : State} (h : Keeps s0 s) (c p pc i) : RvKept s0 (rvFLoad s c p pc i) := by
  unfold rvFLoad
  dsimp only
  with_reducible repeat' first
    | assumption | exact .of_trap | apply RvKept.ite | apply keeps_goTo | apply RvKept.of_wait
    | refine load_done (by assumption) ?_ | refine load_wait (by assumption) ?_
    | refine store_done (by assumption) ?_ | refine store_wait (by assumption) ?_
    | split

theorem keeps_rvFStore {s0 s : State} (h : Keeps s0 s) (c p pc i) : RvKept s0 (rvFStore s c p pc i) := by
  unfold rvFStore
  dsimp only
  with_reducible repeat' first
    | assumption | exact .of_trap | apply RvKept.ite | apply keeps_goTo | apply RvKept.of_wait
    | refine load_done (by assumption) ?_ | refine load_wait (by assumption) ?_
    | refine store_done (by assumption) ?_ | refine store_wait (by assumption) ?_
    | split

theorem keeps_rvReserve {s0 s : State} (h : Keeps s0 s) (c p pc i a n) : RvKept s0 (rvReserve s c p pc i a n) := by
  unfold rvReserve
  dsimp only
  with_reducible repeat' first
    | assumption | exact .of_trap | apply RvKept.ite | apply keeps_goTo | apply RvKept.of_wait
    | refine load_done (by assumption) ?_ | refine load_wait (by assumption) ?_
    | refine store_done (by assumption) ?_ | refine store_wait (by assumption) ?_
    | split

theorem keeps_rvAtomic {s0 s : State} (h : Keeps s0 s) (c p pc i) : RvKept s0 (rvAtomic s c p pc i) := by
  unfold rvAtomic
  dsimp only
  with_reducible repeat' first
    | assumption | exact .of_trap | apply RvKept.ite | apply keeps_goTo | apply RvKept.of_wait
    | refine load_done (by assumption) ?_ | refine load_wait (by assumption) ?_
    | refine store_done (by assumption) ?_ | refine store_wait (by assumption) ?_
    | apply keeps_rvReserve
    | split

theorem keeps_rvFma {s0 s : State} (h : Keeps s0 s) (c pc i) : RvKept s0 (rvFma s c pc i) := by
  unfold rvFma
  dsimp only
  with_reducible repeat' first
    | assumption | exact .of_trap | apply RvKept.ite | apply keeps_goTo | apply RvKept.of_wait
    | refine load_done (by assumption) ?_ | refine load_wait (by assumption) ?_
    | refine store_done (by assumption) ?_ | refine store_wait (by assumption) ?_
    | split

theorem keeps_rvFloat {s0 s : State} (h : Keeps s0 s) (c pc i) : RvKept s0 (rvFloat s c pc i) := by
  unfold rvFloat
  dsimp only
  with_reducible repeat' first
    | assumption | exact .of_trap | apply RvKept.ite | apply keeps_goTo | apply RvKept.of_wait
    | refine load_done (by assumption) ?_ | refine load_wait (by assumption) ?_
    | refine store_done (by assumption) ?_ | refine store_wait (by assumption) ?_
    | split

theorem keeps_rvFence {s0 s : State} (h : Keeps s0 s) (c pc i) : RvKept s0 (rvFence s c pc i) := by
  unfold rvFence
  with_reducible repeat' first
    | assumption | exact .of_trap | apply RvKept.ite | apply keeps_goTo | apply RvKept.of_wait
    | refine load_done (by assumption) ?_ | refine load_wait (by assumption) ?_
    | refine store_done (by assumption) ?_ | refine store_wait (by assumption) ?_
    | split

theorem keeps_rvCsr {s0 s : State} (h : Keeps s0 s) (v n) (x : Nat) (u : State) (hu : rvCsr s v n = some (x, u)) :
    Keeps s0 u := by
  unfold rvCsr at hu
  dsimp only at hu
  split at hu <;> first
    | (cases hu; exact h)
    | (cases hu; exact keeps_freshFree h)
    | cases hu

theorem keeps_rvSystem {s0 s : State} (h : Keeps s0 s) (c pc i) : RvKept s0 (rvSystem s c pc i) := by
  unfold rvSystem
  dsimp only
  split
  · exact .ite .of_trap (.ite .of_trap .of_trap)
  · refine .ite .of_trap ?_
    split
    · exact .of_trap
    · rename_i hd
      exact keeps_goTo (keeps_rvCsr h _ _ _ _ hd) ..

theorem keeps_rvSetVl {s0 s : State} (h : Keeps s0 s) (c pc i) : RvKept s0 (rvSetVl s c pc i) := by
  unfold rvSetVl
  dsimp only
  with_reducible repeat' first
    | assumption | exact .of_trap | apply RvKept.ite | apply keeps_goTo | apply RvKept.of_wait
    | refine load_done (by assumption) ?_ | refine load_wait (by assumption) ?_
    | refine store_done (by assumption) ?_ | refine store_wait (by assumption) ?_
    | split

theorem keeps_rvvAccess {s0 s : State} (h : Keeps s0 s) (c p store x) : CoreKept s0 (rvvAccess s c p store x) := by
  unfold rvvAccess
  refine .ite .of_fault (.ite (keeps_coreStore h ..) ?_)
  split
  · exact .of_done (keeps_putCore (load_done (by assumption) h) ..)
  · exact keeps_coreLoad h ..

theorem keeps_rvvRun {s0 s : State} (h : Keeps s0 s) (c p store first l) : RvKept s0 (rvvRun c p store first l s) := by
  induction l generalizing s with
  | nil => exact .of_next h
  | cons x xs ih =>
    have hk := keeps_rvvAccess h c p store x
    unfold rvvRun
    split
    · exact .ite (.of_next (keeps_putCore h ..)) .of_trap
    · exact .of_wait (keeps_putCore (hk.wait _ (by assumption)) ..)
    · exact ih (hk.done _ _ (by assumption))

theorem keeps_rvvGo {s0 s : State} (h : Keeps s0 s) (c p i store first l) :
    RvKept s0 (rvvGo s c p i store first l) := by
  unfold rvvGo
  dsimp only
  split
  · exact .of_next (keeps_coreEnqueue h ..)
  · exact keeps_rvvRun h ..

theorem keeps_rvVector {s0 s : State} (h : Keeps s0 s) (c p pc i store) : RvKept s0 (rvVector s c p pc i store) := by
  unfold rvVector
  split
  · exact .of_trap
  · split
    · exact keeps_goTo ((keeps_rvvGo h ..).next _ (by assumption)) ..
    · exact keeps_rvvGo h ..

theorem keeps_rvExec {s0 s : State} (h : Keeps s0 s) (c p pc len i) : RvKept s0 (rvExec s c p pc len i) := by
  unfold rvExec
  dsimp only
  with_reducible repeat' first
    | exact .of_trap | apply RvKept.ite | exact keeps_goTo h .. | exact keeps_rvLoad h .. | exact keeps_rvFLoad h ..
    | exact keeps_rvStore h .. | exact keeps_rvFStore h .. | exact keeps_rvAtomic h .. | exact keeps_rvSystem h ..
    | exact keeps_rvSetVl h .. | exact keeps_rvVector h .. | exact keeps_rvFma h .. | exact keeps_rvFloat h ..
    | exact keeps_rvFence h .. | split

theorem keeps_coreFetch {s0 s : State} (h : Keeps s0 s) (c p a n) : CoreKept s0 (coreFetch s c p a n) := by
  unfold coreFetch
  split
  · exact keeps_coreLoad h ..
  · exact keeps_coreLoad h ..
  · exact .of_fault

/-- What a fetch leaves, with an instruction or without. -/
structure FetchKept (s0 : State) (o : RvDone ⊕ (State × Nat × Nat)) : Prop where
  inl : ∀ r, o = .inl r → RvKept s0 r
  inr : ∀ x, o = .inr x → Keeps s0 x.1

theorem FetchKept.of_inl {s0 : State} {r : RvDone} (h : RvKept s0 r) : FetchKept s0 (.inl r) :=
  ⟨fun _ he => Sum.inl.inj he ▸ h, fun _ he => (nomatch he)⟩

theorem FetchKept.of_inr {s0 : State} {x : State × Nat × Nat} (h : Keeps s0 x.1) : FetchKept s0 (.inr x) :=
  ⟨fun _ he => (nomatch he), fun _ he => by cases he; exact h⟩

theorem fetch_done {s0 s u : State} {c p a n v : Nat} (he : coreFetch s c p a n = .done u v) (h : Keeps s0 s) :
    Keeps s0 u := (keeps_coreFetch h ..).done _ _ he

theorem fetch_wait {s0 s u : State} {c p a n : Nat} (he : coreFetch s c p a n = .wait u) (h : Keeps s0 s) : Keeps s0 u :=
  (keeps_coreFetch h ..).wait _ he

theorem keeps_rvFetch {s0 s : State} (h : Keeps s0 s) (c p pc) : FetchKept s0 (rvFetch s c p pc) := by
  unfold rvFetch
  with_reducible repeat' first
    | assumption | exact .of_inl .of_trap | apply FetchKept.of_inr | (apply FetchKept.of_inl; apply RvKept.of_wait)
    | refine fetch_done (by assumption) ?_ | refine fetch_wait (by assumption) ?_ | split

theorem keeps_rvvMark {s0 s : State} (h : Keeps s0 s) (a1 a2) : Keeps s0 (rvvMark s a1 a2) := by
  unfold rvvMark
  with_reducible repeat' first
    | assumption | apply keeps_putCore

-- TODO rvFetch Sys2Proof.Machine.RvDone;Sum.{0, 0} Sys2Proof.Machine.RvDone (Prod.{0, 0} Sys2Proof.Machine.State (Prod.{0, 0} Nat Nat))

theorem keeps_coreStep {s0 s : State} (h : Keeps s0 s) (c) : Keeps s0 (coreStep s c) := by
  unfold coreStep
  split
  · dsimp only
    rename_i p _ _
    have hf := keeps_rvFetch h c p (getCore s c).pc
    have hk : RvKept s0 (match rvFetch s c p (getCore s c).pc with
        | .inl r => r
        | .inr x => rvExec x.1 c p (getCore s c).pc x.2.1 x.2.2) := by
      split
      · exact hf.inl _ (by assumption)
      · exact keeps_rvExec (hf.inr _ (by assumption)) ..
    refine .ite h (.ite (keeps_itemReturns h ..) ?_)
    split
    · exact hk.next _ (by assumption)
    · exact hk.wait _ (by assumption)
    · exact keeps_itemFaults h ..
  · exact h

theorem keeps_stepCores {s0 s : State} (h : Keeps s0 s) : Keeps s0 (stepCores s) := by
  unfold stepCores
  with_reducible repeat' first
    | assumption | intro _ | apply Keeps.foldl | apply keeps_coreStep

end Sys2Proof.Machine
end

