-- ==== Sys2Proof/Laws/KeepsTick.lean ====
section
/-! SUPPORT. Laws/KeepsTick.lean: the functions of Machine/Tick.lean keep the invariant and the queue. -/

set_option linter.unusedTactic false
set_option linter.unreachableTactic false

namespace Sys2Proof.Machine

theorem keeps_fillStream {s0 s : State} (h : Keeps s0 s) (a1 a2 a3) : Keeps s0 (fillStream a1 a2 s a3) := by
  unfold fillStream; dsimp only
  with_reducible repeat' first
    | assumption | intro _ | apply Keeps.ite | apply keeps_onceRead | apply keeps_putTile

theorem keeps_fillBuffers {s0 s : State} (h : Keeps s0 s) (a1) : Keeps s0 (fillBuffers s a1) := by
  unfold fillBuffers
  with_reducible repeat' first
    | assumption | intro _ | apply Keeps.foldl | apply keeps_fillStream | split

theorem keeps_dispatchNext {s0 s : State} (h : Keeps s0 s) (a1 a2) : Keeps s0 (dispatchNext s a1 a2) := by
  unfold dispatchNext; dsimp only
  with_reducible repeat' first
    | assumption | apply Keeps.ite | apply keeps_dispatch | split

theorem keeps_sequence {s0 s : State} (h : Keeps s0 s) (a1) : Keeps s0 (sequence s a1) := by
  unfold sequence; dsimp only
  with_reducible repeat' first
    | assumption | intro _ | apply Keeps.ite | apply Keeps.ite_fst | apply Keeps.ite_snd | apply Keeps.foldl
    | apply Keeps.foldl_fst | apply keeps_dispatchNext | (refine Keeps.upd ?_ ..; assumption) | split
    | dsimp only

theorem keeps_tickTile {s0 s : State} (h : Keeps s0 s) (a1) : Keeps s0 (tickTile s a1) := by
  unfold tickTile; dsimp only
  with_reducible repeat' first
    | assumption | intro _ | apply Keeps.ite | apply Keeps.foldl | apply keeps_handOver
    | apply keeps_finishVisible | apply keeps_putTile | apply keeps_streamOn | apply keeps_arbitrate
    | apply keeps_sequence | apply keeps_fillBuffers | apply keeps_vecFetch

theorem keeps_sendOut {s0 s : State} (h : Keeps s0 s) : Keeps s0 (sendOut s) := by
  unfold sendOut; dsimp only
  with_reducible repeat' first
    | assumption | intro _ | apply Keeps.foldl | apply keeps_portCtr | apply keeps_putLft

theorem keeps_stageWait {s0 s : State} (h : Keeps s0 s) (a1 a2 a3 a4) : Keeps s0 (stageWait a1 a2 a3 s a4) := by
  unfold stageWait; dsimp only
  with_reducible repeat' first
    | assumption | apply Keeps.ite | apply keeps_addCtr | split

theorem keeps_stageWaits {s0 s : State} (h : Keeps s0 s) (a1) : Keeps s0 (stageWaits a1 s) := by
  unfold stageWaits
  with_reducible repeat' first
    | assumption | intro _ | apply Keeps.foldl | apply keeps_stageWait | split

theorem keeps_tickCounters {s0 s : State} (h : Keeps s0 s) (a1) : Keeps s0 (tickCounters a1 s) := by
  unfold tickCounters; dsimp only
  with_reducible repeat' first
    | assumption | intro _ | apply Keeps.ite | apply Keeps.foldl | apply keeps_addCtr | apply keeps_scrubTick
    | apply keeps_stageWaits | apply keeps_putDev

theorem keeps_tickSleep {s0 s : State} (h : Keeps s0 s) : Keeps s0 (tickSleep s) := by
  unfold tickSleep
  with_reducible repeat' first
    | assumption | apply Keeps.ite | apply keeps_enterHoldover

theorem keeps_tickPart {s0 s : State} (h : Keeps s0 s) (a1) : Keeps s0 (tickPart s a1) := by
  unfold tickPart
  with_reducible repeat' first
    | assumption | apply keeps_finishRestart | apply keeps_tryPreempt | apply keeps_evalEntries
    | apply keeps_takeGates

theorem keeps_ringAgain {s0 s : State} (h : Keeps s0 s) (a1) : Keeps s0 (ringAgain s a1) := by
  unfold ringAgain
  with_reducible repeat' first
    | assumption | apply keeps_houndStore | apply keeps_maskStore | apply keeps_reduceStore
    | apply keeps_publishStore | apply keeps_startCmd | split

theorem keeps_serveDoorbells {s0 s : State} (h : Keeps s0 s) : Keeps s0 (serveDoorbells s) := by
  unfold serveDoorbells
  with_reducible repeat' first
    | assumption | intro _ | apply Keeps.ite | apply Keeps.foldl | apply keeps_ringAgain | apply keeps_putSched

theorem keeps_tickWork {s0 s : State} (h : Keeps s0 s) : Keeps s0 (tickWork s) := by
  unfold tickWork; dsimp only
  with_reducible repeat' first
    | assumption | intro _ | apply Keeps.foldl | apply keeps_tickTile | apply keeps_tickPart
    | apply keeps_pumpAll | apply keeps_armPass2 | apply keeps_runReqs | apply keeps_serveDoorbells
    | apply keeps_seekRefills | apply keeps_admitPoison | apply keeps_serveLandings | apply keeps_serveReads
    | apply keeps_stepCores | apply keeps_checkRemoval | apply keeps_followRequests | apply keeps_holdupTick
    | apply keeps_retryBlocked | apply keeps_timerTick | apply keeps_deliverEvents

theorem keeps_tick {s0 s : State} (h : Keeps s0 s) : Keeps s0 (tick s) := by
  unfold tick; dsimp only
  with_reducible repeat' first
    | assumption | apply Keeps.ite | apply keeps_sendOut | apply keeps_tickSleep | apply keeps_tickWork
    | apply keeps_tickCounters | apply keeps_advanceTime | (refine Keeps.upd ?_ ..; assumption)

end Sys2Proof.Machine
end

