-- ==== Sys2Proof/Laws/Ops.lean ====
section
/-! SUPPORT. Laws/Ops.lean: what the shared operations read after they wrote: memory bytes, partitions, counters, flows,
counter objects, sessions, settings and the event log. -/

namespace Sys2Proof.Machine

/-! ## Reads depend on their field alone -/

theorem settingV_congr {s u : State} (h : u.settings = s.settings) (i j : Nat) : settingV u i j = settingV s i j := by
  unfold settingV; rw [h]

theorem setting_congr {s u : State} (h : u.settings = s.settings) (i j : Nat) : setting u i j = setting s i j := by
  unfold setting; rw [settingV_congr h]

theorem settingAt_congr {s u : State} (h : u.settings = s.settings) (k i j : Nat) :
    settingAt u k i j = settingAt s k i j := by
  unfold settingAt; rw [h, setting_congr h]

theorem getTile_congr {s u : State} (h : u.tiles = s.tiles) (t : Nat) : getTile u t = getTile s t := by
  unfold getTile; rw [h]

theorem getPart_congr {s u : State} (h : u.parts = s.parts) (p : Nat) : getPart u p = getPart s p := by
  unfold getPart; rw [h]

theorem getCounter_congr {s u : State} (h : u.sync = s.sync) (n : Nat) : getCounter u n = getCounter s n := by
  unfold getCounter; rw [h]

theorem readByte_congr {s u : State} (h : u.mem = s.mem) (a : Nat) : readByte u a = readByte s a := by
  unfold readByte; rw [h]

theorem readBytes_congr {s u : State} (h : u.mem = s.mem) (a n : Nat) : readBytes u a n = readBytes s a n := by
  unfold readBytes
  rw [show readByte u = readByte s from funext (readByte_congr h)]

theorem readNat_congr {s u : State} (h : u.mem = s.mem) (a n : Nat) : readNat u a n = readNat s a n := by
  unfold readNat; rw [readBytes_congr h]

/-! ## Read after write -/

theorem getPart_putPart_ne (s : State) (v : Part) {p q : Nat} (h : q ≠ p) : getPart (putPart s p v) q = getPart s q :=
  mget_mset_ne _ _ _ h

@[simp] theorem getPart_putPart (s : State) (p : Nat) (v : Part) : getPart (putPart s p v) p = v := mget_mset_same _ _ _ _

theorem getCounter_putCounter_ne (s : State) (v : Counter) {n k : Nat} (h : k ≠ n) :
    getCounter (putCounter s n v) k = getCounter s k := mget_mset_ne _ _ _ h

@[simp] theorem getCounter_putCounter (s : State) (n : Nat) (v : Counter) : getCounter (putCounter s n v) n = v :=
  mget_mset_same _ _ _ _

theorem getFlow_putFlow_ne (s : State) (f : Flow) {a b c d : Nat} (h : flowKey c d ≠ flowKey a b) :
    getFlow (putFlow s a b f) c d = getFlow s c d := mget_mset_ne _ _ _ h

@[simp] theorem getFlow_putFlow (s : State) (a b : Nat) (f : Flow) : getFlow (putFlow s a b f) a b = f :=
  mget_mset_same _ _ _ _

theorem getCtr_setCtr_ne (s : State) (v : Nat) {i j k l : Nat} (h : objKey k l ≠ objKey i j) :
    getCtr (setCtr s i j v) k l = getCtr s k l := mget_mset_ne _ _ _ h

/-- A counter object reads the value written, which saturates (R542). -/
theorem getCtr_setCtr (s : State) (i j v : Nat) :
    getCtr (setCtr s i j v) i j = min v (2 ^ 64 - 1) := mget_mset_same _ _ _ _

theorem getCtr_addCtr (s : State) (i j n : Nat) :
    getCtr (addCtr s i j n) i j = min (getCtr s i j + n) (2 ^ 64 - 1) := getCtr_setCtr _ _ _ _

/-- A domain is in the state that it was put into. -/
@[simp] theorem getDom_setDom (s : State) (i st : Nat) : getDom (setDom s i st) i = st := mget_mset_same _ _ _ _

/-! ## Memory -/

/-- A byte outside a run of bytes written reads as before. -/
theorem mget_pokeBytes_out (m : Map (BitVec 8)) (a k : Nat) (bs : List Byte) (h : k < a ∨ a + bs.length ≤ k) :
    mget 0 (pokeBytes m a bs) k = mget 0 m k := by
  induction bs generalizing m a with
  | nil => rfl
  | cons b bs ih =>
    simp only [List.length_cons] at h
    rw [pokeBytes, ih _ _ (by omega), mget_mset_ne _ _ _ (by omega)]

/-- A byte of a run of bytes written reads as written. -/
theorem mget_pokeBytes_in (m : Map (BitVec 8)) (a i : Nat) (bs : List Byte) (h : i < bs.length) :
    mget 0 (pokeBytes m a bs) (a + i) = bs[i] := by
  induction bs generalizing m a i with
  | nil => simp at h
  | cons b bs ih =>
    cases i with
    | zero =>
      rw [pokeBytes, Nat.add_zero, mget_pokeBytes_out _ _ _ _ (by omega)]
      exact mget_mset_same _ _ _ _
    | succ i =>
      rw [pokeBytes, show a + (i + 1) = a + 1 + i by omega]
      exact ih _ _ _ _

theorem readByte_pokeMemory_out (s : State) (a k : Nat) (bs : List Byte) (h : k < a ∨ a + bs.length ≤ k) :
    readByte (pokeMemory s a bs) k = readByte s k := mget_pokeBytes_out _ _ _ _ h

/-- The write of a part of a line stays within the run of bytes. -/
theorem readByte_writePiece_out (s : State) (a k l : Nat) (bs : List Byte) (h : k < a ∨ a + bs.length ≤ k) :
    readByte (writePiece bs a s l) k = readByte s k := by
  unfold writePiece
  split
  · rfl
  · refine readByte_pokeMemory_out _ _ _ _ ?_
    simp only [pieceIn, List.length_take, List.length_drop]
    omega

/-- A wake leaves memory alone. -/
@[simp] theorem wakeRun_mem (s : State) (a n : Nat) : (wakeRun s a n).mem = s.mem := by
  obtain ⟨c, w, h, -⟩ := wakeRun_eq s a n; rw [h]; rfl

theorem readByte_writeBytes_out (s : State) (a k : Nat) (bs : List Byte) (h : k < a ∨ a + bs.length ≤ k) :
    readByte (writeBytes s a bs) k = readByte s k := by
  rw [← readByte_congr (wakeRun_mem s a bs.length) k]
  unfold writeBytes
  dsimp only
  generalize wakeRun s a bs.length = s
  split
  · exact readByte_pokeMemory_out _ _ _ _ h
  · rename_i hn; clear hn
    generalize linesOf a bs.length = ls
    induction ls generalizing s with
    | nil => rfl
    | cons l ls ih => rw [List.foldl_cons, ih, readByte_writePiece_out _ _ _ _ _ h]

/-- A wake leaves no line waiting that did not. -/
theorem memQuiet_wakeRun (s : State) (a n : Nat) : memQuiet (wakeRun s a n) = memQuiet s := by
  obtain ⟨c, w, h, hd, he⟩ := wakeRun_eq s a n
  rw [h]
  unfold memQuiet
  simp only [putPower_power, putPower_memErr, putCtrs_memErr, hd, he]

/-- While no line waits, the bytes written read as written. -/
theorem readByte_writeBytes_in {s : State} (hq : memQuiet s = true) (a i : Nat) (bs : List Byte)
    (h : i < bs.length) : readByte (writeBytes s a bs) (a + i) = bs[i] := by
  unfold writeBytes
  dsimp only
  rw [memQuiet_wakeRun, if_pos hq]
  exact mget_pokeBytes_in _ _ _ _ h

theorem toBytes_length (n v : Nat) : (toBytes n v).length = n := by
  induction n generalizing v with
  | zero => rfl
  | succ n ih => simp [toBytes, ih]

theorem readByte_writeNat_out (s : State) (a n v k : Nat) (h : k < a ∨ a + n ≤ k) :
    readByte (writeNat s a n v) k = readByte s k :=
  readByte_writeBytes_out _ _ _ _ (by rwa [toBytes_length])

/-- A key that a drop does not name reads as before. -/
theorem mget_mdrop_keep {α : Type} (d : α) (p : Nat → Bool) (m : Map α) (k : Nat) (h : p k = false) :
    mget d (mdrop p m) k = mget d m k := by
  induction m with
  | nil => rfl
  | cons e m ih =>
    by_cases he : e.1 = k
    · simp [mdrop, mget, he, h]
    · by_cases hf : p e.1 = true
      · simp only [mdrop, List.filter_cons, hf, Bool.not_true] at ih ⊢
        simpa [mget, he] using ih
      · simp only [Bool.not_eq_true] at hf
        simp only [mdrop, List.filter_cons, hf, Bool.not_false, if_true] at ih ⊢
        simpa [mget, he] using ih

/-- A byte outside a zeroed range reads as before. -/
theorem readByte_zeroRange_out (s : State) (lo hi k : Nat) (h : k < lo ∨ hi ≤ k) :
    readByte (zeroRange s lo hi) k = readByte s k := by
  refine mget_mdrop_keep 0 (fun k => decide (lo ≤ k) && decide (k < hi)) s.mem k ?_
  simp only [Bool.and_eq_false_iff, decide_eq_false_iff_not]
  omega

/-- A byte of a zeroed range reads 0. -/
theorem readByte_zeroRange_in (s : State) (lo hi k : Nat) (h : lo ≤ k ∧ k < hi) : readByte (zeroRange s lo hi) k = 0 := by
  refine mget_notin 0 _ k (fun hk => ?_)
  obtain ⟨e, he, rfl⟩ := List.mem_map.mp hk
  have := (List.mem_filter.mp he).2
  simp [h.1, h.2] at this

/-! ## The event log and the sessions -/

/-- An event is the last record, with the next number (R468). -/
theorem raise_log (s : State) (c p u : Nat) (l : List Nat) :
    (raise s c p u l).log.next = s.log.next + 1 ∧
      ∃ e, (raise s c p u l).log.ring.getLast? = some e ∧ e.code = c ∧ e.seq = s.log.next ∧
        e.args = l.map (· % 2 ^ 64) := by
  refine ⟨rfl, ?_⟩
  simp only [raise, putLog_log, List.getLast?_append, List.getLast?_singleton, Option.some_or]
  exact ⟨_, rfl, rfl, rfl, rfl⟩

theorem getSession_number {s : State} {n : Nat} {x : Session} (h : getSession s n = some x) : x.number = n := by
  simpa using List.find?_some h

/-- A replaced session reads as replaced. -/
theorem getSession_putSession {s : State} {n : Nat} {x y : Session} (h : getSession s n = some x) (hy : y.number = n) :
    getSession (putSession s y) n = some y := by
  unfold getSession at *
  show List.find? _ (s.dap.sessions.map _) = _
  generalize s.dap.sessions = l at h
  induction l with
  | nil => simp at h
  | cons z l ih =>
    by_cases hz : z.number = n
    · simp [hz, hy]
    · have hz' : (z.number == n) = false := by simpa using hz
      rw [List.find?_cons, hz'] at h
      simp only [List.map_cons, hy, hz, if_false, List.find?_cons, hz']
      rw [hy] at ih
      exact ih h

/-- A session that ended is gone (R455). -/
theorem getSession_endSession (s : State) (n : Nat) : getSession (endSession s n) n = none := by
  unfold getSession endSession
  simp [List.find?_eq_none]

/-- Whether a conversion clamps does not depend on its rounding (R83, R120). -/
theorem convert_clamped_mode (f : Fmt) (m m' : RoundMode) (x : Fp) :
    (convert f m x).clamped = (convert f m' x).clamped := by
  cases x <;> simp only [convert]
  split <;> cases f <;> rfl

/-- Whether a conversion zeroes a NaN does not depend on its rounding (R120). -/
theorem convert_nanZeroed_mode (f : Fmt) (m m' : RoundMode) (x : Fp) :
    (convert f m x).nanZeroed = (convert f m' x).nanZeroed := by
  cases x <;> simp only [convert]
  split <;> cases f <;> rfl

end Sys2Proof.Machine
end

