-- ==== Sys2Proof/WellFormed.lean ====
section
/-! DEFINITION. WellFormed.lean: what the operands of a command can be: lengths and runs that a frame, a message or a line
can carry. The meanings are total: they take every command, and drop, refuse or reject what breaks a rule of the spec. -/

namespace Sys2Proof

/-- A received LFT packet carries 0 to 4,096 bytes (R366). -/
def LftPacket.wellFormed (h : LftPacket) : Bool := decide (h.payload.length ≤ 4096)

/-- A received LFT packet of a type without a payload (R367). -/
def LftPacket.bare (h : LftPacket) : Bool := h.payload.isEmpty

/-- A request to a line stays within it (R49, R251): an operation's operand bytes stand for the bytes that it acts on. -/
def MemReq.wellFormed : MemReq → Bool
  | .read => true
  | .write off data => decide (off.val + data.length ≤ 64)
  | .modify op off data =>
    decide (off.val + (match op.val with
      | 3 => 2 * data.length | 6 => data.length / 2 | 7 => 64 | _ => data.length) ≤ 64)

/-- A value of a write carries at most 65,535 bytes (R457). -/
def WriteItem.wellFormed (i : WriteItem) : Bool := decide (i.data.length ≤ 65535)

/-- A write of a value with no row of its own (R457). -/
def RegWrite.wellFormed : RegWrite → Bool
  | .object _ _ _ data => decide (data.length ≤ 65535)
  | .entry _ _ _ => true
  | .firstStep _ _ _ => true
  | .faultValid _ _ => true

/-- The operands of a command have the lengths that the spec gives them; an operand of a fixed width is well-formed by its
type. -/
def Instr.wellFormed : Instr → Bool
  | .uncorrectableError _ req => req.wellFormed
  | .lftWriteReceived h => h.wellFormed
  | .lftReadReceived h => h.bare
  | .lftReadDataReceived h => h.wellFormed
  | .lftSignalReceived h => h.bare
  | .lftReduceReceived h _ => h.wellFormed
  | .lftAckReceived h => h.bare
  | .lftNakReceived h => h.bare
  | .opticInserted _ _ _ _ v p s => decide (v.length ≤ 16) && decide (p.length ≤ 16) && decide (s.length ≤ 16)
  | .opticMonitorRead _ _ _ lanes r => decide (lanes.length = 96) && decide (r.state ≠ 0)
  | .dapHello _ _ _ _ _ key => decide (key.length = 2592)
  | .dapKey _ ct sig => decide (ct.length = 1568) && decide (sig.length = 4627)
  | .dapFrameReceived _ payload tag =>
    decide (payload.length ≤ 1400) && (tag.isEmpty || decide (tag.length = 16))
  | .read _ _ items => !items.isEmpty && decide (items.length ≤ 64)
  | .write _ _ items => !items.isEmpty && decide (items.length ≤ 64) && items.all WriteItem.wellFormed
  | .registerWrite w => w.wellFormed
  | .fwUpdateBlock _ _ _ _ data => decide (data.length = 32768)
  | .fwUpdateManifest _ m => decide (m.length ≤ 65535)
  | _ => true

end Sys2Proof
end

