-- ==== Sys2Proof/Tests/Slice0.lean ====
section
/-! SUPPORT. Tests/Slice0.lean: the author's own tests. Refused terms of WellFormed, small results taken from the spec, and
for every statement with hypotheses concrete states and operands that meet them. -/

namespace Sys2Proof.Tests

open Sys2Proof Sys2Proof.Machine

set_option Elab.async false

/-! ## WellFormed refuses an ill-formed term of each check -/

/-- A received packet with a payload. -/
def packet (n : Nat) : LftPacket :=
  { crcOk := true, version := 1, typ := 1, retx := false, srcPeer := 1, srcPart := 0, dstPart := 0, seq := 1, aux := 0, addr := 0, operand := 0
    payload := List.replicate n 0 }

theorem test_wf_packet : (Instr.lftWriteReceived (packet 4097)).wellFormed = false := by decide +kernel
theorem test_wf_bare : (Instr.lftSignalReceived (packet 1)).wellFormed = false := by decide +kernel
theorem test_wf_line : (Instr.uncorrectableError (.line 0) (.write 63 [1, 2])).wellFormed = false ∧
    (Instr.uncorrectableError (.line 0) (.modify 3 32 (List.replicate 17 0))).wellFormed = false := by decide +kernel
/-- A DAP frame's source over Ethernet II, at the MAC address 2, untagged. -/
def wire : DapSource := { ip := 0, service := 0x88B6, mac := 2, addr := 0, port := 0, vlan := none }

/-- A frame from there on the management port, with a header. -/
def framed (h : BitVec 128) : DapArrival := { via := 128, src := wire, header := h }

theorem test_wf_optic : (Instr.opticInserted 0 false 0 0 (List.replicate 17 0) [] []).wellFormed = false := by
  decide +kernel
theorem test_wf_lanes : (Instr.opticMonitorRead 0 0 0 [1] ⟨0, 3⟩).wellFormed = false := by decide +kernel
theorem test_wf_hello : (Instr.dapHello 128 wire 0 2 1 [1]).wellFormed = false := by decide +kernel
theorem test_wf_key : (Instr.dapKey (framed 0) [1] [1]).wellFormed = false := by decide +kernel
theorem test_wf_frame : (Instr.dapFrameReceived (framed 0) [] [1]).wellFormed = false := by decide +kernel
theorem test_wf_read : (Instr.read 1 1 []).wellFormed = false := by decide +kernel
theorem test_wf_write : (Instr.write 1 1 []).wellFormed = false := by decide +kernel
theorem test_wf_item : (WriteItem.mk 0 0 (List.replicate 65536 0)).wellFormed = false := by
  simp only [WriteItem.wellFormed, List.length_replicate]; decide
theorem test_wf_object : (Instr.registerWrite (.object 1 0 0 (List.replicate 65536 0))).wellFormed = false := by
  simp only [Instr.wellFormed, RegWrite.wellFormed, List.length_replicate]; decide
theorem test_wf_block : (Instr.fwUpdateBlock 1 0 0 0 [1]).wellFormed = false := by decide +kernel
theorem test_wf_manifest : (Instr.fwUpdateManifest 1 (List.replicate 65536 0)).wellFormed = false := by
  simp only [Instr.wellFormed, List.length_replicate]; decide
theorem test_wf_ok : (Instr.lftWriteReceived (packet 64)).wellFormed = true := by decide +kernel

/-! ## A running partition -/

/-- An OWNED counter of partition 0. -/
def owned : Counter := { Counter.reset with state := 1 }

/-- A running stream at address 0x1000. -/
def going : StreamCtl := { StreamCtl.reset with state := .running, pc := 0x1000, entry := 0x1000 }

/-- The tile that runs its three streams. -/
def tile0 : Tile := { Tile.reset with sf := going, sb := going, su := going }

/-- Partition 0: RUNNING, with tile group 0, interface group 0, counters 0 to 15 and work core 0. -/
def part0 : Part :=
  { Part.reset with
    state := .running, groups := 1, memGroups := 1, landCount := 16, ctrCount := 16, cores := [0] }

/-- Partition 0 runs on tile 0. -/
def run0 : State :=
  putPart (putTile { State.reset with
    power := { State.reset.power with dom := [] }
    sync := { Sync.reset with counters := (upFrom 0 16).map (fun n => (n, owned)) } } 0 tile0) 0 part0

/-- The low 122 bits of an instruction word: stream, form, eot and operands, version 1. -/
def word (x form eot args : Nat) : BitVec 122 :=
  BitVec.ofNat 122 (x * 2 ^ 120 + 2 ^ 116 + eot * 2 ^ 107 + form * 2 ^ 104 + args)

/-- Dispatchable as a check. -/
def dispatchableB (s : State) (p t : Nat) (x : Stream) (w : BitVec 128) : Bool :=
  mayDispatch s t x && partOfTile s t == some p && fetchDetail s p t (getCtl (getTile s t) x).pc == none &&
    decodeFault t x (getCtl (getTile s t) x).marked w == none

theorem dispatchable_of {s : State} {p t : Nat} {x : Stream} {w : BitVec 128} (h : dispatchableB s p t x w = true) :
    Dispatchable s p t x w := by
  simp only [dispatchableB, Bool.and_eq_true, beq_iff_eq] at h
  exact ⟨h.1.1.1, h.1.1.2, h.1.2, h.2⟩

/-- Startable as a check. -/
def startableB (s : State) (p t : Nat) (x : Stream) (w : BitVec 128) : Bool :=
  dispatchableB s p t x w && (enginesOf w).isSome && (getTile s t).waiting == [] && (getTile s t).inflight == [] &&
    tokensReady (getTile s t) x (wWait w) (firstEng w) && !matrixTaken (getTile s t) (nextInstr s p t x w) &&
    decide (x ∈ streamOrder s t) &&
    decide (mget 0 (getTile s t).starve (starveKey (firstEng w) x) < settingAt s (1 + t) 0x3110 2) &&
    (startMeets (wakeStart (dispatch s t x w) p t (nextInstr s p t x w)) p t (nextInstr s p t x w)).isNone

theorem startable_of {s : State} {p t : Nat} {x : Stream} {w : BitVec 128} (h : startableB s p t x w = true) :
    Startable s p t x w := by
  simp only [startableB, Bool.and_eq_true, beq_iff_eq, decide_eq_true_eq, Bool.not_eq_true', Option.isNone_iff_eq_none] at h
  exact ⟨dispatchable_of h.1.1.1.1.1.1.1.1, h.1.1.1.1.1.1.1.2, h.1.1.1.1.1.1.2, h.1.1.1.1.1.2, h.1.1.1.1.2, h.1.1.1.2,
    h.1.1.2, h.1.2, h.2⟩

/-- The state with bytes of tile 0's store written from an offset. -/
def stored (s : State) (off n v : Nat) : State := writeNat s (tileAddr 0 off) n v

/-! ## The tile sequencer and Matrix -/

theorem witness_control : dispatchableB run0 0 0 .f (classWord 0x00 (word 0 0 0 0)) = true ∧
    dispatchableB run0 0 0 .f (classWord 0x01 (word 0 0 0 0)) = true ∧
    stopsAtStep (getPart run0 0) (getCtl (getTile run0 0) .f) = false ∧
    dispatchableB run0 0 0 .f (classWord 0x02 (word 0 0 0 (0x2000 * 2 ^ 47))) = true ∧
    dispatchableB run0 0 0 .f (classWord 0x03 (word 0 0 0 0)) = true := by decide +kernel

/-- R309: the first STEP numbers first_step, and its address is mark 1. -/
theorem test_step : (match exec (.step 0 .f (word 0 0 0 0)) run0 with
    | .next u => ((getTile u 0).sf.step, (getTile u 0).sf.mark1, (getTile u 0).sf.marked)
    | _ => (1, 0, false)) = (0, 0x1000, true) := by decide +kernel

/-- R309: JUMP goes on at its target. -/
theorem test_jump : (match exec (.jump 0 .f (word 0 0 0 (0x2000 * 2 ^ 47))) run0 with
    | .next u => (getTile u 0).sf.pc | _ => 0) = 0x2000 := by decide +kernel

/-- A product descriptor: BF16 by BF16, 1 by 1 by 16, A at 0x1000, B at 0x2000. -/
def product : Nat :=
  1 + 1 * 2 ^ 4 + 1 * 2 ^ 8 + 1 * 2 ^ 20 + 1 * 2 ^ 28 + 16 * 2 ^ 64 + 0x1000 * 2 ^ 96 + 64 * 2 ^ 128 +
    0x2000 * 2 ^ 192 + 64 * 2 ^ 224

/-- A row of 16 BF16 elements that are all 1. -/
def ones16 : Nat := (upFrom 0 16).foldl (fun a i => a + 0x3F80 * 2 ^ (16 * i)) 0

/-- A column of 16 BF16 elements that are all 1, one line each. -/
def onesCol : Nat := (upFrom 0 16).foldl (fun a i => a + 0x3F80 * 2 ^ (512 * i)) 0

/-- A row of 16 ones against a column of 16 ones, for MMA: row k of B holds its K index k (R63). -/
def mma0 : State := stored (stored (stored run0 0 64 product) 0x1000 32 ones16) 0x2000 1024 onesCol

theorem witness_dense :
    (∀ eot ∈ [0, 1], startableB mma0 0 0 .f (classWord 0x08 (word 0 0 eot 0)) = true) ∧
    startableB mma0 0 0 .f (classWord 0x09 (word 0 0 0 0)) = true ∧
    (let w := classWord 0x08 (word 0 0 0 0)
     let s1 := startState mma0 0 0 .f w
     let d := ownDesc s1 0 (wDesc w)
     wForm w = 0 ∧ fmtA d = .bf16 ∧ fmtB d = .bf16 ∧
     denseFault s1 0 d (nextInstr mma0 0 0 .f w) = none ∧
     beginTile (getTile s1 0) .f 1 1 0 =
       .set { AccSet.reset with state := .accumulating, m := 1, n := 1, owner := .f }) := by decide +kernel

/-- R57, R78: sixteen products of 1 by 1 sum to 16.0 in the pair of PE (0, 0). -/
theorem test_mma : (match exec (.mma 0 .f (word 0 0 0 0)) mma0 with
    | .next u => mget (0, 0) (getTile u 0).active.pairs 0
    | _ => (0, 0)) = (0x41800000, 0) := by decide +kernel

/-! ## Backward products, drains, loads and stores -/

/-- A full gradient panel of 16 by 16 BF16 elements that are 0. -/
def panel16 : Panel := { Panel.reset with full := true, rows := 16, cols := 16, fmt := .bf16 }

/-- A full panel in buffer 0, and the descriptor of a product of it at 0. -/
def bwd0 : State :=
  putTile (stored run0 0 64 (1 + 1 * 2 ^ 4 + 1 * 2 ^ 8 + 1 * 2 ^ 20 + 1 * 2 ^ 28 + 0x1000 * 2 ^ 96 + 64 * 2 ^ 128 +
    0x2000 * 2 ^ 192 + 64 * 2 ^ 224)) 0 { tile0 with panels := [(0, panel16)] }

/-- A panel load under way. -/
def loading0 : State :=
  putTile run0 0 { tile0 with inflight := [⟨⟨0x1000, 3, .b, classWord 0x0A (word 1 0 0 (2 ^ 82)), 0, 0, true, false⟩, .fetch,
    .panel, [], 0⟩] }

/-- What a BWD2 product on that panel asks for. -/
def bwdReady (dw eot : Nat) : Bool :=
  let w := classWord 0x0A (word 1 0 eot (dw * 2 ^ 84))
  let s1 := startState bwd0 0 0 .b w
  let d := ownDesc s1 0 (wDesc w)
  let b := panelOf (getTile s1 0) w (panelNo w)
  decide (startableB bwd0 0 0 .b w = true ∧ wForm w = 0 ∧ loadsPanel w = false ∧
    (nextInstr bwd0 0 0 .b w).skip = false ∧ b.full = true ∧ b.loading = false ∧ bwd2Fmt d w = some .bf16 ∧
    bwd2Fault s1 0 d (nextInstr bwd0 0 0 .b w) b = none ∧
    beginTile (getTile s1 0) .b 1 1 (if isDw w then 2 else 1) =
      .set { AccSet.reset with state := .accumulating, m := 1, n := 1, owner := .b, product := dw + 1 })

theorem witness_bwd2 : bwdReady 0 0 = true ∧ bwdReady 1 1 = true ∧
    ((getTile loading0 0).inflight.find? (fun i => i.q.x == .b && i.q.seq == 3 && i.why == .panel)).isSome = true ∧
    calm loading0 = true := by decide +kernel

/-- An ended tile of 1 by 1 in the shadow set. -/
def shadow0 : AccSet := { AccSet.reset with state := .ended, m := 1, n := 1, owner := .f, pairs := [(0, (0x3F800000, 0))] }

/-- A DRAIN's descriptor at 0: FP32 output at 0x1000 with no records; `side` in bits 25 and 24. -/
def drainDesc (side : Nat) : Nat :=
  1 + side * 2 ^ 24 + 0x1000 * 2 ^ 64 + 64 * 2 ^ 96 + 64 * 2 ^ 112 + 0x2000 * 2 ^ 128 + 0xFFFFFFFF * 2 ^ 192 +
    0xFFFFFFFF * 2 ^ 288

/-- The ended tile and the descriptor of its drain. -/
def drain0 (side : Nat) : State := putTile (stored run0 0 64 (drainDesc side)) 0 { tile0 with shadow := shadow0 }

/-- The side operand of a DRAIN is under way. -/
def side0 : Inflight :=
  ⟨⟨0x1000, 3, .f, classWord 0x0B (word 0 0 0 0), 0, 0, true, false⟩, .matrix, .side, [], drainDesc 1⟩

/-- A hand-over is awaited. -/
def hand0 : Inflight := ⟨⟨0x1000, 3, .f, classWord 0x08 (word 0 0 1 0), 0, 0, true, false⟩, .matrix, .handOver 16, [], 0⟩

/-- What a DRAIN of that tile asks for. -/
def drainReady (side : Nat) : Bool :=
  let w := classWord 0x0B (word 0 0 0 0)
  let s1 := startState (drain0 side) 0 0 .f w
  let a := (getTile s1 0).shadow
  let d := ownDesc s1 0 (wDesc w)
  decide (startableB (drain0 side) 0 0 .f w = true ∧ (nextInstr (drain0 side) 0 0 .f w).skip = false ∧
    a.state = .ended ∧ a.owner = .f ∧ (getTile s1 0).active.state = .empty ∧ drainOk (drainPlan s1 0 d a.n) a (drainElems a) = true ∧ bits d 25 24 = side)

theorem witness_drain : drainReady 0 = true ∧ drainReady 1 = true ∧
    (let s := putTile run0 0 { tile0 with active := { shadow0 with state := .accumulating }, inflight := [hand0] }
     tileGoes s 0 = true ∧ (getTile s 0).shadow.state = .empty ∧
     (getTile s 0).inflight.find? isHandOver = some hand0) ∧
    (let s := putTile (drain0 1) 0 { tile0 with shadow := shadow0, inflight := [side0] }
     partOfTile s 0 = some 0 ∧ tileGoes s 0 = true ∧ (getTile s 0).inflight = [side0] ∧ side0.why = .side ∧
     side0.q.seq = 3 ∧ wClass side0.q.w = 0x0B ∧ (getTile s 0).shadow.state = .ended ∧
     (getTile s 0).shadow.owner = side0.q.x ∧ (getTile s 0).waiting = [] ∧ (getTile s 0).active.state = .empty ∧
     calm s = true ∧ Stream.f ∈ streamOrder s 0 ∧
     mget 0 (getTile s 0).starve (starveKey .matrix .f) < settingAt s 1 0x3110 2) := by decide +kernel

/-- R79: the drain writes s + c of the pair, 1.0, as FP32; the set is EMPTY again (R81). -/
theorem test_drain : (match exec (.drain 0 .f (word 0 0 0 0)) (drain0 0) with
    | .next u => (readNat u (tileAddr 0 0x1000) 4, (getTile u 0).shadow == AccSet.reset)
    | _ => (0, false)) = (0x3F800000, true) := by decide +kernel

/-- A copy descriptor at 0: one row between offset 0x1000 and the landing store of die 0. -/
def copy0 (cls : Nat) : State :=
  stored run0 0 64 (1 + (if cls = 0x11 then 2 ^ 12 + 32 * 2 ^ 288 else 64 * 2 ^ 288) + 0xFFFF * 2 ^ 272 + 2 ^ 320 +
    64 * 2 ^ 352 + 0x1000 * 2 ^ 384 + landAddr 0 0 * 2 ^ 448)

/-- What a copy of a form asks for. -/
def copyReady (cls form args : Nat) : Bool :=
  let w := classWord cls (word 0 form 0 args)
  let s1 := startState (copy0 cls) 0 0 .f w
  let d := if hasCopyDesc w then ownDesc s1 0 (wDesc w) else 0
  startableB (copy0 cls) 0 0 .f w && copyFault s1 0 0 w d (cls == 0x12) true == none &&
    (cls != 0x12 || (portStore w (copyOf w d) == none && (copyOf w d).peer == 0xFFFF))

/-- A LOAD of a line under way, its line there. -/
def landed0 : Inflight :=
  ⟨⟨0x1000, 3, .f, classWord 0x10 (word 0 0 0 (landAddr 0 0 * 2 ^ 47 + 0x1000 / 64 * 2 ^ 28 + 2 ^ 9)), 0, 0, true, false⟩, .fetch,
    .load, [], 0⟩

theorem witness_moves : copyReady 0x10 0 (landAddr 0 0 * 2 ^ 47 + 0x1000 / 64 * 2 ^ 28 + 2 ^ 9) = true ∧
    copyReady 0x10 1 0 = true ∧ copyReady 0x11 1 0 = true ∧ copyReady 0x12 0 (landAddr 0 0 * 2 ^ 28 + 2 * 2 ^ 9) = true ∧
    copyReady 0x12 1 0 = true ∧
    (let s := putTile run0 0 { tile0 with inflight := [landed0] }
     (getTile s 0).inflight.find? (fun i => i.q.x == .f && i.q.seq == 3 && i.why == .load) = some landed0 ∧
     farReady s (loadOwner 0 .f 3) 0 = true ∧ calm s = true) := by decide +kernel

/-- R318, R40: a landed LOAD has copied its line. -/
theorem test_load : (match exec (.loadComplete 0 .f 3)
      (writeNat (putTile run0 0 { tile0 with inflight := [landed0] }) (landAddr 0 0) 64 0x1234) with
    | .next u => readNat u (tileAddr 0 0x1000) 64
    | _ => 0) = 0x1234 := by decide +kernel
/-! ## Requests, reductions, signals and vector programs -/

/-- A request descriptor at 0: one node's row of 64 bytes to the landing store. -/
def request0 (op : Nat) : State :=
  stored run0 0 128 (1 + op * 2 ^ 8 + 64 * 2 ^ 544 + 64 * 2 ^ 576 + 2 ^ 640 + landAddr 0 0 * 2 ^ 832 +
    landAddr 0 0x1000 * 2 ^ 896 + landAddr 0 0x2000 * 2 ^ 960)

/-- What GATHER and SCATTER.ADD ask for. -/
def requestReady (cls op : Nat) : Bool :=
  let w := classWord cls (word 0 0 0 0)
  let s1 := startState (request0 op) 0 0 .f w
  let d := BitVec.ofNat 1024 (readNat s1 (tileAddr 0 (wDesc w)) 128)
  decide (startableB (request0 op) 0 0 .f w = true ∧ (s1.retr.reqs.filter (fun r => r.part == 0)).length < 512 ∧
    requestFault s1 0 0 (nextInstr (request0 op) 0 0 .f w) d = none)

/-- A group of one dense unit on die 0 in interface group 0: descriptor, coefficients and entry. -/
def group0 : State :=
  let s := writeNat run0 0 128 (1 + 2 ^ 16 + 0x400 * 2 ^ 128 + 0x800 * 2 ^ 192)
  let s := writeNat s 0x400 64 (1 + 2 ^ 12)
  let s := writeNat s 0x800 64 (1 + 2 ^ 10 + 64 * 2 ^ 32 + 0x1000 * 2 ^ 128 + 0x2000 * 2 ^ 192 + 0x3000 * 2 ^ 256 +
    0x4000 * 2 ^ 384)
  putUpd s { s.upd with tables := [{ part := 0, header := 0x1000000, groups := [0] }] }

/-- What UPD.P1 and UPD.P2 ask for. -/
def updateReady (cls pass : Nat) : Bool :=
  let w := classWord cls (word 2 0 0 0)
  let s1 := startState group0 0 0 .u w
  decide (startableB group0 0 0 .u w = true ∧ groupOk s1 0 0 = true ∧ (updTable s1 0).isSome = true ∧
    groupDies s1 (groupDesc s1 0) = [0] ∧
    (∀ d ∈ groupDies s1 (groupDesc s1 0), (s1.upd.cmds.filter (fun c => c.die == d && c.pass == pass)).length < 256))

theorem witness_requests : requestReady 0x13 0 = true ∧ requestReady 0x14 1 = true ∧ updateReady 0x15 1 = true ∧
    updateReady 0x16 2 = true := by decide +kernel

/-- A running partition whose stream has had its STEP. -/
def marked0 : State := putTile run0 0 { tile0 with sb := { going with marked := true } }

/-- A slot-sum descriptor at 0: one slot of 16 FP32 at 0x1000, BF16 out; `tie` is its tie counter. -/
def slotSum0 (tie : Nat) : State :=
  stored marked0 0 64 (1 + 2 ^ 8 + 2 ^ 12 + tie * 2 ^ 128 + 16 * 2 ^ 160 + 0x1000 * 2 ^ 192 + landAddr 0 0 * 2 ^ 448)

/-- A selection descriptor at 0: 64 scores at 0x1000, room for 4, one row. -/
def select0 : State :=
  stored run0 0 64 (1 + 64 * 2 ^ 160 + 4 * 2 ^ 192 + 2 ^ 256 + 0x1000 * 2 ^ 320 + 0x2000 * 2 ^ 352 + 0x3000 * 2 ^ 384 +
    0x4000 * 2 ^ 416 + 0x5000 * 2 ^ 448 + 0x6000 * 2 ^ 480)

/-- What a REDUCE of a form asks for. -/
def reduceReady (s : State) (form : Nat) : Bool :=
  let w := classWord 0x19 (withForm form (word 1 0 0 0))
  let s1 := startState s 0 0 .b w
  let d := ownDesc s1 0 (wDesc w)
  startableB s 0 0 .b w && wForm w == form &&
    (match form with
     | 0 => slotSumFault s1 0 0 (nextInstr s 0 0 .b w) d == none
     | 1 => selectFault s1 0 0 d == none
     | _ => auditFault s1 0 d == none)

/-- A recompute descriptor at 0: one row of 16, no optional areas. -/
def rowwise0 (kind : Nat) : State :=
  stored run0 0 64 (1 + kind * 2 ^ 4 + 16 * 2 ^ 64 + 2 ^ 96 + 0x1000 * 2 ^ 160 + 0x2000 * 2 ^ 192 + 0x3000 * 2 ^ 224 +
    64 * 2 ^ 256 + 64 * 2 ^ 288 + 64 * 2 ^ 320 + 64 * 2 ^ 352 + (if kind = 2 then 0xFFFFFFFF * 2 ^ 384 else 0) +
    0x4000 * 2 ^ 416 + 0xFFFFFFFF * 2 ^ 448 + 0xFFFFFFFF * 2 ^ 480)

/-- What NORMRC and SMAXRC ask for. -/
def rowwiseReady (cls kind : Nat) : Bool :=
  let w := classWord cls (word 1 0 0 0)
  let s1 := startState (rowwise0 kind) 0 0 .b w
  startableB (rowwise0 kind) 0 0 .b w && rcFault (kind != 2) (ownDesc s1 0 (wDesc w)) == none

theorem witness_reductions : reduceReady (slotSum0 0xFFFFFFFF) 0 = true ∧ reduceReady (slotSum0 3) 0 = true ∧
    slotWaits (ownDesc (slotSum0 0xFFFFFFFF) 0 0) = false ∧ slotWaits (ownDesc (slotSum0 3) 0 0) = true ∧
    reduceReady select0 1 = true ∧ reduceReady select0 2 = true ∧ rowwiseReady 0x1A 0 = true ∧
    rowwiseReady 0x1B 2 = true := by decide +kernel

/-- R223: of 64 zero scores and a threshold of 0 none is active: counts 0, 0, 64 and no audited row. -/
theorem test_select : (match exec (.reduceSelect 0 .f (word 0 0 0 0)) select0 with
    | .next u => ownU32s u 0 0x3000 4
    | _ => []) = [0, 0, 64, 0] := by decide +kernel

/-- A watch register that fired. -/
def fired0 : State :=
  putTile run0 0 { putWatch tile0 .f .fetch 2 { WatchReg.reset with armed := true, fired := true, status := 0 } with waiting := [] }

theorem witness_signal :
    (let w := classWord 0x20 (word 0 0 0 (5 * 2 ^ 76 + 7))
     startableB run0 0 0 .f w = true ∧ fld w 100 100 = 0 ∧
     ownsCounter (startState run0 0 0 .f w) 0 (fld w 89 76) = true) ∧
    (let w := classWord 0x21 (word 0 0 0 (5 * 2 ^ 84 + 3))
     let s1 := startState run0 0 0 .f w
     startableB run0 0 0 .f w = true ∧ watchFault s1 0 0 (nextInstr run0 0 0 .f w) = none ∧
     slotLikely s1 (hubOf (fld w 97 84)) 0 = true) ∧
    (let w := classWord 0x22 (word 0 1 0 (5 * 2 ^ 84 + 3))
     startableB run0 0 0 .f w = true ∧ wForm w = 1 ∧
     watchFault (startState run0 0 0 .f w) 0 0 (nextInstr run0 0 0 .f w) = none) ∧
    (let w := classWord 0x22 (word 0 0 0 (2 * 2 ^ 100))
     let r := getWatch (getTile (startState fired0 0 0 .f w) 0) .f (lastEng w) (fld w 101 100)
     startableB fired0 0 0 .f w = true ∧ wForm w = 0 ∧ r.armed = true ∧ r.fired = true ∧ r.status = 0) ∧
    startableB run0 0 0 .f (classWord 0x18 (word 0 0 0 (7 * 2 ^ 53))) = true := by decide +kernel

/-- R261: the counter's ADD of 7 is on its way with its unit and step. -/
theorem test_signal : (match exec (.signal 0 .f (word 0 0 0 (5 * 2 ^ 76 + 7))) run0 with
    | .next u => u.sync.signals.map (fun g => (g.ctr, g.operand, g.isMax, g.part))
    | _ => []) = [(5, 7, false, 0)] := by decide +kernel

/-- A VEXEC under way on tile 0. -/
def vexec0 : Inflight := ⟨⟨0x1000, 3, .f, classWord 0x18 (word 0 0 0 0x4000), 0, 0, true, false⟩, .vector, .vexec, [], 0⟩

/-- A running vector program: v1 and v2 hold small numbers, x1 is 0x1000 and x2 is 2. -/
def vec0 : State :=
  putTile run0 0 { tile0 with inflight := [vexec0], vec := { VecState.reset with
    running := true, x := .f, pc := 0x4000, vregs := [(1, 0x3F80), (2, 0x4000)], xregs := [(1, 0x1000), (2, 2)] } }

/-- VectorReady as a check. -/
def vectorReadyB (vop w : Nat) : Bool :=
  vecOwner (getTile vec0 0) == some vexec0 && partOfTile vec0 0 == some 0 && tileGoes vec0 0 &&
    decide ((getTile vec0 0).vec.pc + 8 ≤ storeBytes) && vFault (getTile vec0 0) 0 (getTile vec0 0).vec.count vop w == none

theorem vectorReady_of {vop w : Nat} (h : vectorReadyB vop w = true) : VectorReady vec0 0 0 vop w vexec0 := by
  simp only [vectorReadyB, Bool.and_eq_true, beq_iff_eq, decide_eq_true_eq] at h
  exact ⟨h.1.1.1.1, h.1.1.1.2, h.1.1.2, h.1.2, h.2⟩

/-- The low 58 bits of a vector word: type, vd, va, vb, xs, imm. -/
def vword (typ vd va vb xs imm : Nat) : BitVec 58 :=
  BitVec.ofNat 58 (typ * 2 ^ 55 + vd * 2 ^ 49 + va * 2 ^ 43 + vb * 2 ^ 37 + xs * 2 ^ 33 + imm)

/-- Every vector operation may run: the types 1, 0 and 3 where each applies. -/
theorem witness_vector :
    ([0x00, 0x01, 0x02, 0x03, 0x04, 0x05, 0x06, 0x07, 0x08, 0x09, 0x0A, 0x10, 0x11, 0x12, 0x14, 0x15, 0x16, 0x17,
      0x18, 0x19, 0x1A, 0x1B].all (fun c => vectorReadyB c (vWord c (vword 1 3 1 2 1 0)))) = true ∧
    [0x0B, 0x0C, 0x0D, 0x0E].all (fun c => vectorReadyB c (vWord c (vword 0 3 1 2 1 0))) = true ∧
    vectorReadyB 0x13 (vWord 0x13 (vword 3 3 1 2 1 4)) = true ∧
    vectorReadyB 0x0F (vWord 0x0F (vword 0 3 1 2 0 (0x100))) = true ∧
    outFmt (bits (vImm (vWord 0x0F (vword 0 3 1 2 0 0x100))) 11 8) = some .bf16 ∧
    outFmt (bits (vImm (vWord 0x0F (vword 0 3 1 2 0 0x100))) 3 0) = some .fp32 ∧ calm vec0 = true := by decide +kernel

/-- Both ends of SLOOP: x2 counts down to 1 and branches; a register at 1 falls through. -/
theorem witness_sloop : xreg (putXreg (getTile vec0 0) 2 (BitVec.ofNat 64 (xreg (getTile vec0 0) 2) - 1).toNat) 2 ≠ 0 ∧
    (0 : Int) ≤ (0x4000 : Int) + 8 * (BitVec.ofNat 32 0xFFFFFFFE).toInt ∧
    xreg (putXreg (putXreg (getTile vec0 0) 1 1) 1 (BitVec.ofNat 64 1 - 1).toNat) 1 = 0 := by decide +kernel

/-- R325: VADD of BF16 1.0 and 2.0 is 3.0. -/
theorem test_vadd : (match exec (.vadd 0 (vword 1 3 1 2 0 0)) vec0 with
    | .next u => vreg (getTile u 0) 3
    | _ => 0) = 0x4040 := by decide +kernel

/-- R325: a bitwise OR writes vd alone. -/
theorem test_vor : (match exec (.vor 0 (vword 0 3 1 2 0 0)) vec0 with
    | .next u => vreg (getTile u 0) 3
    | _ => 0) = 0x7F80 := by decide +kernel
/-! ## Streams, hubs and the scheduler -/

/-- The job of partition 0 is stopped, its stream HALTED. -/
def halted0 : State := putTile (putPart run0 0 { part0 with state := .stopped }) 0 Tile.reset

/-- An instruction held on its post tokens. -/
def post0 : Inflight := ⟨⟨0x1000, 3, .f, classWord 0x10 (word 0 1 0 0), 0, 0, true, false⟩, .fetch, .post 1, [], 0⟩

theorem witness_streams :
    tilePresent halted0 0 = true ∧ jobStopped halted0 0 = true ∧ (getCtl (getTile halted0 0) .f).state ≠ .running ∧
    jobStopped run0 0 = false ∧ (getCtl (getTile run0 0) .f).state = .running ∧ partOfTile run0 0 = some 0 ∧
    tileGoes run0 0 = true ∧
    heldOnToken (putTile run0 0 { tile0 with inflight := [post0] }) 0 .f .fetch = true ∧
    (bankRequest .addF32 (toBytes 128 0x3F800000)).isSome = true ∧ lineHeld run0 (tileAddr 0 0) true = false ∧
    lineBad run0 (tileAddr 0 0) = false := by decide +kernel

/-- R49: an add of 1.0 to a zero line writes 1.0. -/
theorem test_bank : (match exec (.bankSideOp 0 0 .addF32 0x3F800000 (.tile 0 .f .store)) run0 with
    | .next u => readNat u (tileAddr 0 0) 64
    | _ => 0) = 0x3F800000 := by decide +kernel

/-- Work core 0 is busy. -/
def core0 : State := putSched run0 { run0.sched with cores := [(0, { Core.reset with busy := true, tag := tagOf run0 (unitNo 1 0) })] }

/-- A busy core of a stopped partition. -/
def core1 : State := putPart core0 0 { part0 with state := .stopped }

theorem witness_stores : coreGoes core0 0 = true ∧ partOfCore core0 0 = some 0 ∧
    isStale core0 (coreUnit core0 0) = false ∧ ownsCounter core0 0 3 = true ∧ coreGoes core1 0 = true ∧
    partOfCore core1 0 = some 0 ∧ (getPart core1 0).state = .stopped ∧ ownsCounter core1 0 3 = true ∧
    (1 : BitVec 64).toNat = 1 ∧ (65535 : BitVec 64).toNat = 65535 := by decide +kernel

/-- R261: an ADD near the top saturates. -/
theorem test_counterAdd : (match exec (.counterAdd 0 3 65535)
      (putSync core0 { core0.sync with counters := [(3, { owned with value := 0xFFFFFFFFFFFFFFF0 })] }) with
    | .next u => (getCounter u 3).value
    | _ => 0) = 0xFFFFFFFFFFFFFFFF := by decide +kernel

/-- A local signal of tile 0's Store engine, and a remote one. -/
def signal0 : Signal := ⟨3, false, 7, tileUnit run0 0 .store, 0, 0, none⟩
def remote0 : HeldSignal := ⟨1, 0, 3, true, 9, 0xFFFFFFFF, 0⟩

theorem witness_signals :
    (let s := putSync run0 { run0.sync with signals := [signal0], held := [remote0] }
     s.sync.signals[0]? = some signal0 ∧ earlierSignal s.sync.signals 0 signal0 = false ∧ isStale s signal0.unit = false ∧
     ownsCounter s signal0.part signal0.ctr = true ∧ settled s 0 = true ∧ domAwake s 20 = true ∧ s.sync.held[0]? = some remote0 ∧
     (s.sync.held.take 0).any (fun g => g.peer == 1 && g.part == 0) = false ∧ markLanded s remote0 = true ∧
     ownsCounter s remote0.part remote0.ctr = true) := by decide +kernel

/-- A watch of register 0, and one of a work item. -/
def watch0 (target : Nat) : Watch := ⟨3, target, .reg 0 .f .fetch 0, 0, 1, 50, 0⟩
def watch1 : Watch := ⟨3, 1, .item 0 7, 0, 1, 0, 0⟩

theorem witness_watches :
    (let s := putSync run0 { run0.sync with
       registering := [watch0 0, watch0 5], slotWaits := [watch0 5], armed := [watch0 5]
       whistles := [⟨watch0 0, 0, 0, true⟩, ⟨watch1, 0, 0, true⟩] }
     s.sync.registering[0]? = some (watch0 0) ∧ s.sync.registering[1]? = some (watch0 5) ∧
     (getCounter s 3).state = 1 ∧ slotFree s (hubOf 3) 0 = true ∧ domAwake s 20 = true ∧
     (biased s (watch0 0)).target ≤ (getCounter s 3).value ∧ (getCounter s 3).value < (biased s (watch0 5)).target ∧
     s.sync.slotWaits[0]? = some (watch0 5) ∧ s.sync.armed[0]? = some (watch0 5) ∧ (watch0 5).timeout ≠ 0 ∧
     s.sync.whistles[0]? = some ⟨watch0 0, 0, 0, true⟩ ∧ (getPart s 0).state ≠ .preempted ∧
     asleepDom s (watch0 0) = none ∧ asleepDom s watch1 = none ∧
     asleepDom (putPower s { s.power with dom := [(0, 1)] }) (watch0 0) = some 0 ∧ waiterUnit (watch0 0) = some (tileUnit s 0 .fetch) ∧
     isStale s (tileUnit s 0 .fetch) = false ∧ s.sync.whistles[1]? = some ⟨watch1, 0, 0, true⟩ ∧
     watch1.waiter = .item 0 7) := by decide +kernel

/-- R272: a watch whose target holds fires at once and is not armed. -/
theorem test_watchRegister : (match exec (.watchRegister 0) (putSync run0 { run0.sync with registering := [watch0 0] }) with
    | .next u => (u.sync.whistles.length, u.sync.armed.length, u.sync.registering.length)
    | _ => (0, 0, 0)) = (1, 0, 0) := by decide +kernel

/-- A work item of the lowest level on any core, without counters. -/
def desc0 : BitVec 512 := 1 + 0xFFFFFFFF * 2 ^ 128 + 0xFFFFFFFF * 2 ^ 160

/-- READY and running items. -/
def ready0 : Item := ⟨0, 0, 0, desc0, 2, 0, false, 0, 0, 0, 0, 0⟩
def items0 (i : Item) : State := putSched run0 { run0.sched with items := [i] }

theorem witness_items :
    coreGoes core0 0 = true ∧ partOfCore core0 0 = some 0 ∧ isStale core0 (coreUnit core0 0) = false ∧ refusalOf core0 0 0 false desc0 = none ∧
    slotOpen core0 0 0 = true ∧
    (let s := putSched run0 { run0.sched with held := [⟨0, 0, .core 0, desc0⟩] }
     s.sched.held[0]? = some ⟨0, 0, .core 0, desc0⟩ ∧ staleWriter s ⟨0, 0, .core 0, desc0⟩ = none ∧ slotOpen s 0 0 = true) ∧
    (let s := items0 ready0
     coreFree s 0 = true ∧ partOfCore s 0 = some 0 ∧ chooseItem (runnable s 0 0) = some ready0 ∧
     yieldsTo s 0 = false) ∧
    (let i := { ready0 with state := 3 }
     let s := { putSched core0 { core0.sched with items := [i] } with time := { State.reset.time with ns := 1 } }
     runningItem s 0 = some i ∧ coreStalled s 0 = false ∧ isStale s (coreUnit s 0) = false ∧ i.desc ≠ plannerItem ∧ (1 : BitVec 64) ≠ 0 ∧ setting s 0x3600 1 ≠ 0) := by decide +kernel

/-- R296: core 0 takes the READY item. -/
theorem test_itemDispatch : (match exec (.itemDispatch 0) (items0 ready0) with
    | .next u => (coreActive u 0, u.sched.items.map (fun i => (i.state, i.core)))
    | _ => (false, [])) = (true, [(3, 0)]) := by decide +kernel
/-! ## Hound, the planner, Retriever, Update, placement and memory errors -/

/-- A sample descriptor: one hop of fanout 1 from one seed, trail at 0x10000, area of 1 MiB at share offset 0. -/
def sample0 : BitVec 1024 :=
  1 + 1 * 2 ^ 8 + 2 ^ 135 + 0x100000 * 2 ^ 480 + 3 * 2 ^ 544 + 4 * 2 ^ 576 + 2 ^ 608 + 4 * 2 ^ 640 + 0x1000 * 2 ^ 704 +
    0x10000 * 2 ^ 768 + 0x20000 * 2 ^ 832 + 0x30000 * 2 ^ 896

/-- A trail of it at a hop. -/
def trail0 (hop : Nat) : Trail := ⟨0, sample0, hop, true, [], [], [], [], [], [], [], 0, 0, false, false⟩

/-- A mask descriptor of 8 block-rows of 16 by 1, one block, FP32 values. -/
def mask0 : BitVec 512 :=
  1 + 2 ^ 12 + 4 * 2 ^ 120 + 8 * 2 ^ 128 + 2 ^ 144 + 2 ^ 160 + 0x10000 * 2 ^ 224 + 0x100000 * 2 ^ 256 + 0x80000 * 2 ^ 320 +
    0x40000 * 2 ^ 384 + 0x50000 * 2 ^ 448

/-- The planner of partition 0 runs on core 0. -/
def planner0 : Item := { ready0 with desc := plannerItem, state := 3, system := true }

/-- Rings as a check. -/
def ringsB (s : State) (kind : Nat) (c : Fin 96) (p : Fin 16) : Bool :=
  coreGoes s c && partOfCore s c == some p.val && !isStale s (coreUnit s c) &&
    !s.sched.doorbells.any (fun x => x.1 == kind && x.2.1 == p.val) && calm s

theorem rings_of {s : State} {kind : Nat} {c : Fin 96} {p : Fin 16} (h : ringsB s kind c p = true) : Rings s kind c p := by
  simp only [ringsB, Bool.and_eq_true, beq_iff_eq, Bool.not_eq_true'] at h
  exact ⟨h.1.1.1.1, h.1.1.1.2, h.1.1.2, h.1.2, h.2⟩

theorem witness_trails :
    ringsB (writeNat core0 0x4000 128 sample0.toNat) 0 0 0 = true ∧ ringsB (writeNat core0 0x4000 64 mask0.toNat) 1 0 0 = true ∧
    settled run0 0 = true ∧
    sampleRefusal (writeNat core0 0x4000 128 sample0.toNat) 0 0x4000 sample0 = none ∧
    BitVec.ofNat 1024 (readNat (writeNat run0 0x4000 128 sample0.toNat) 0x4000 128) = sample0 ∧
    (trail0 0).hop ≤ sHops (trail0 0).desc ∧ (trail0 1).hop ≤ sHops (trail0 1).desc ∧
    sHops (trail0 2).desc < (trail0 2).hop ∧
    (putTrails run0 [trail0 0]).trails.find? (fun t => t.part == 0 && t.running) = some (trail0 0) ∧
    maskRefusal (writeNat core0 0x4000 64 mask0.toNat) 0 0x4000 mask0 = none ∧
    BitVec.ofNat 512 (readNat (writeNat run0 0x4000 64 mask0.toNat) 0x4000 64) = mask0 ∧
    (putMasks run0 [⟨0, mask0⟩]).masks.find? (fun m => m.part == 0) = some ⟨0, mask0⟩ ∧
    runningPlanner (items0 planner0) 0 = some planner0 ∧ calm run0 = true := by decide +kernel

/-- A request whose rows are all written. -/
def done0 : RetrReq := ⟨1, 0, 0, .f, 0, 0, 0, 1 + 2 ^ 640, 1, 0, [], false, false, false⟩

/-- A direct table of 16 BF16 columns with its one slice on die 0, pinned for step 0. -/
def pin0 : TablePin := ⟨0, 5, 0, 0, 1 + 2 ^ 8 + 2 ^ 26 + 64 * 2 ^ 352 + 4 * 2 ^ 568 + 0x10000 * 2 ^ 768⟩

/-- A merge-add for row 2, and the set that holds the row. -/
def add0 : MergeAdd := ⟨1, 0, 5, 2, 0, List.replicate 16 0⟩
def merge0 : State :=
  putRetr run0 { run0.retr with
    pins := [pin0], adds := [add0], sets := [⟨0, 5, 0, 0, false, false, [⟨2, 0, 1, false, false⟩]⟩], reqs := [done0] }

/-- A lookup of table 5 through its list of keys, deferred. -/
def look0 : RetrReq := { done0 with desc := 1 + 2 * 2 ^ 4 + 2 ^ 21 + 5 * 2 ^ 24 + 2 ^ 640 + 0x30000 * 2 ^ 896, next := 0 }
def deferred0 : State :=
  putRetr run0 { run0.retr with pins := [pin0], deferred := [⟨1, 0, 0⟩], reqs := [look0] }

/-- A row on its way to its hot slot. -/
def hot0 : HotEntry := ⟨0, 5, 0, 2, 0, 0, 0, 1, none⟩

theorem witness_requests_end :
    (let s := putRetr run0 { run0.retr with reqs := [done0] }
     s.retr.reqs[0]? = some done0 ∧ getReq (runReq s 1) 1 = some done0 ∧ reqFinished (runReq s 1) done0 = true ∧
     done0.far = [] ∧ settled (runReq s 1) 0 = true) := by decide +kernel

theorem witness_mergeAdd :
    merge0.retr.adds[0]? = some add0 ∧ add0.step ≤ (getPart merge0 0).step ∧
    (let s1 := putRetr merge0 { merge0.retr with adds := dropAt merge0.retr.adds 0 }
     sliceOf (batchDesc s1 0 5 0) 2 = some (0, 0x10000 + 128) ∧
     findTouch s1 0 5 0 0 2 = some ⟨2, 0, 1, false, false⟩) := by decide +kernel

/-- The one row of the deferred lookup: row 0 of table 5. -/
def rows0 : List (Nat × Nat × Nat) := [(5, batchDesc deferred0 0 5 0, 0)]

theorem witness_deferred :
    deferred0.retr.deferred[0]? = some ⟨1, 0, 0⟩ ∧ getReq deferred0 1 = some look0 ∧
    rowKey deferred0 (retrOwner 1) look0.desc 0 = some (0, true) ∧ calm deferred0 = true ∧
    indexRows deferred0 0 (rTable look0.desc) (rStep look0.desc) 0 = some rows0 ∧
    (blockedOn deferred0 0 (rStep look0.desc - 1) rows0).isSome = false := by decide +kernel

theorem witness_tables : ringsB core0 3 0 0 = true ∧ partOfCore core0 0 ≠ some 1 ∧
    ([hot0].filter (fun h => h.st != 2))[0]? = some hot0 ∧ regEntry run0 0 5 = 0 ∧
    (trainedTables run0 0).contains 5 = false ∧
    (let s := putRetr run0 { run0.retr with old := [(0, 5, 0x1000)] }
     s.retr.old[0]? = some (0, 5, 0x1000) ∧ s.retr.pins.any (fun x => x.part == 0 && x.table == 5 && x.addr == 0x1000) = false) := by
  decide +kernel

/-- A command of the group in a pass queue of die 0. -/
def cmd0 (pass : Nat) : UpdCmd := ⟨1, 0, 0, pass, 0, 0, 0, pass == 2, false, 0, false⟩
def queued0 (c : UpdCmd) : State := putUpd group0 { group0.upd with cmds := [c] }

theorem witness_pass1 :
    (let s := queued0 (cmd0 1)
     let g := groupDesc s 0
     queueHead s 0 1 = some (cmd0 1) ∧ updGoes s 0 = true ∧ (cmd0 1).step ≤ (getPart s 0).step ∧
     pass2Ahead s (cmd0 1) = false ∧ bits g 8 8 = 0 ∧ (dieEntries s g 0).map Prod.fst = [0] ∧
     (dieEntries s g 0).map (fun e => bits (readNat s (recordAddr e.2 0) 64) 127 64) = [expectedStep s 0 g 0]) ∧
    (let s := putUpd group0 { group0.upd with p1done := [(0, 0, 0, 0)] }
     (updTable s 0).isSome = true ∧ groupDies s (groupDesc s 0) = [0] ∧ s.upd.p1sent.contains (0, 0, 0) = false ∧
     [0].all (fun ga => s.upd.p1done.contains (0, 0, (getPart s 0).step, ga)) = true ∧
     (unitSlices s (groupDesc s 0) 0).map (fun e => ueDie e.2) = [0] ∧
     readNat s (landAddr 0 0 + 24) 8 = (getPart s 0).step ∧ calm s = true ∧ settled s 0 = true) ∧
    calm (queued0 (cmd0 1)) = true := by decide +kernel

theorem witness_pass2 :
    (let s := putSync (queued0 (cmd0 2)) { group0.sync with fired := [(.pass2 0 1, 0)] }
     queueHead s 0 2 = some (cmd0 2) ∧ s.sync.fired.find? (fun x => x.1 == .pass2 0 1) = some (.pass2 0 1, 0) ∧
     (cmd0 2).going = false ∧ (cmd0 2).armed = true ∧ calm s = true) ∧
    (let c := { cmd0 2 with going := true }
     let s := queued0 c
     let g := groupDesc s 0
     queueHead s 0 2 = some c ∧ updGoes s 0 = true ∧ (dieEntries s g 0).length = 1 ∧ c.skip = 0 ∧ bits g 8 8 = 0 ∧
     (rhoOf s c (groupCoef s g) g 0 (unitEntry s g 0)).isSome = true ∧
     calm s = true ∧ ueEmb (unitEntry s g 0) = false ∧
     settled (putCmd (pass2Dense s c 0 (unitEntry s g 0) 0x3F800000) { c with rows := true }) 0 = true) ∧
    (let s := putUpd group0 { group0.upd with p2done := [(0, 0, 0, 0)] }
     s.upd.p2done.find? (fun x => x.1 == 0 && x.2.2.1 == 0) = some (0, 0, 0, 0) ∧
     groupDies s (groupDesc s 0) = [0] ∧ (getPart s 0).replay = false ∧ settled s 0 = true) := by decide +kernel

/-- A placement with one entry, one object with a replica, and an issue. -/
def place0 (landed : Bool) : State :=
  putPlace run0 0 { Placement.reset with
    valid := true, entries := [64 * 2 ^ 352 + 5 * 2 ^ 256 + 6 * 2 ^ 288 + 0x100000 * 2 ^ 448]
    objects := [1 + 2 ^ 4 + 0x10000 * 2 ^ 64 + 0x1000 * 2 ^ 128 + 0x20000 * 2 ^ 192 + 0x8000 * 2 ^ 320 + 0x8040 * 2 ^ 384]
    issues := [⟨0, 0, 0, 1, landed, false⟩] }

/-- PLACEMENT_RELOAD of every value, and PROGRESS_CHANGE with and without a valid table of a running partition. -/
theorem witness_placement : (0 : BitVec 8) ≠ 1 ∧
    (getPlace (place0 true) 0).valid = true ∧ (getPart (place0 true) 0).state = .running ∧
    (getPlace run0 0).valid = false ∧ (getPart State.reset 0).state ≠ .running := by decide +kernel

/-- PREFETCH_LANDED with and without an issue that has not landed; PREFETCH_CREDITS_RETURNED with and without an issue that
the release counter has reached. -/
theorem witness_prefetch :
    (getPlace (place0 false) 0).issues.find? (fun x => x.entry == 0 && !x.landed) = some ⟨0, 0, 0, 1, false, false⟩ ∧
    (getPlace (place0 true) 0).issues.find? (fun x => x.entry == 0 && !x.landed) = none ∧
    farReady (place0 false) (pfOwner 0 0 0) 0 = true ∧ calm (place0 false) = true ∧
    (let back := fun (s : State) (x : PfIssue) =>
       let rel := getCounter s (bits ((getPlace s 0).entries.getD 0 0) 287 256)
       x.entry == 0 && x.landed && !x.released && decide ((x.nth + (if rel.owner = 0 then rel.bias else 0)) % 2 ^ 64 ≤ rel.value)
     (getPlace (place0 true) 0).issues.any (back (place0 true)) = true ∧
     (getPlace (place0 false) 0).issues.any (back (place0 false)) = false) := by decide +kernel

/-- R234: a write of 1 to place.reload asks for the table at the boundary; a write of 2 does not. -/
theorem test_placementReload : (match exec (.placementReload 0 1) run0, exec (.placementReload 0 2) run0 with
    | .next u, .next v => ((getPart u 0).reload, (getPart v 0).reload)
    | _, _ => (false, true)) = (true, false) := by decide +kernel

/-- R242: a landed prefetch has its bytes in the landing store and its signal on the way to counter 6. -/
theorem test_prefetchLanded : (match exec (.prefetchLanded 0 0) (writeNat (place0 false) 0x100000 64 0x77) with
    | .next u => (readNat u (landAddr 0 0) 64, u.sync.signals.map Signal.ctr, (getPlace u 0).issues.map PfIssue.landed)
    | _ => (0, [], [])) = (0x77, [6], [true]) := by decide +kernel

/-- R245: the credits of the entry's issue return. -/
theorem test_prefetchCreditsReturned : (match exec (.prefetchCreditsReturned 0 0) (place0 true) with
    | .next u => ((getPlace u 0).issues.take 1).map PfIssue.released
    | _ => []) = [true] := by decide +kernel

/-- A refill of the object's line is under way; a page is being copied; interface 7 retrains; a window read is out. -/
def errors0 : State :=
  let s := putMemErr (place0 true) { run0.memErr with refilling := [(0x10040, 0x20040)], copying := [9], retrain := [7] }
  putLft s { s.lft with reads := [⟨1, none, false, 0, 1, 0, 0x080000000000, 64, 0, 0⟩] }

theorem witness_memory_errors :
    (let s := place0 true
     s.memErr.refilling.any (fun r => r.1 == 0x10040) = false ∧ s.memErr.waiting.contains 0x10040 = false ∧
     s.memErr.poison.contains 0x10040 = false ∧ s.memErr.poison.length < 256 ∧ lineOwner s 0x10040 = some 0 ∧
     s.memErr.seeking.any (fun r => r.1 == 0x10040) = false ∧ usesWindow s 0 0x10040 = false ∧
     refillSource s 0 0x10040 = some 0x20040) ∧
    isWindow 0x10040 = false ∧ isWindow 0x20040 = false ∧ refillWaits errors0 0x10040 = false ∧
    lineHeld errors0 0x20040 false = false ∧ lineBad errors0 0x20040 = false ∧ getDom run0 24 ≤ 1 ∧
    tileGoes run0 0 = true ∧ errors0.memErr.refilling[0]? = some (0x10040, 0x20040) ∧ placeOf 0x10040 = .t1 0 ∧
    errors0.memErr.copying[0]? = some 9 ∧ errors0.memErr.retrain.contains 7 = true ∧
    (errors0.lft.reads.filter (fun r => !r.failed))[0]?.isSome = true := by decide +kernel
/-! ## The fabric, the ports, the optics and time -/

/-- An enabled peer 1 that is UP on sub-port 0 and binds partition 0 to its own partition 0. -/
def peer0 : Peer :=
  { Peer.reset with entry := 2 ^ 26 + 2 * 2 ^ 32 + 16 * 2 ^ 112 + 2 ^ 192, paths := [(0, 0)], known := true, incarnation := 7 }
def peered0 : State := putPeer run0 1 peer0

/-- The same peer without a binding or a path. -/
def lone0 : State := putPeer run0 1 { peer0 with entry := 2 ^ 26 + 2 * 2 ^ 32 + 2 ^ 192, paths := [] }

/-- A CLOSED window is written; an OPEN one of partition 0 closes. -/
def window0 : State := putLft run0 { run0.lft with windows := [(3, 1 + 2 ^ 4)] }

/-- A window read of 64 bytes outstanding at peer 1. -/
def read0 : FarRead := ⟨1, some 9, false, 3, 1, 0, 0x080000000000, 64, 0, 0⟩
def reading0 : State := putLft peered0 { peered0.lft with reads := [read0] }

/-- The state in which a received packet is counted. -/
def counted0 (s : State) : State := lftCtr (wakeDomain (wakeDomain s 44) 45) 2 1

theorem witness_fabric :
    bits (windowOf run0 3) 5 4 = 0 ∧ bits (windowOf window0 3) 5 4 = 1 ∧ peerOn run0 1 = false ∧
    (let s1 := putPeer run0 1 { Peer.reset with entry := peerEntry (2 ^ 26) }
     peerOn s1 1 = true ∧ peerSelf s1 1 = false) ∧
    peerOn (counted0 reading0) 1 = true ∧ peerOn (counted0 run0) 1 = false ∧
    reading0.lft.reads.find? (fun r => r.peer == 1 && r.part == 0 && !r.failed && r.seq == some 9) = some read0 ∧
    peerUp peered0 1 = true ∧ peerSelf peered0 1 = false ∧ peerUp lone0 1 = true ∧ (getPeer lone0 1).paths = [] ∧
    peerSelf lone0 1 = false ∧
    (peerFld lone0 1 511 448 = 0 ∧ pathOf lone0 1 0 = true ∧ (getPeer lone0 1).incarnation = 7 ∧
      (2 : BitVec 16).getLsbD 1 = true ∧ boundParts lone0 1 = [] ∧ lone0.dev.phase ≠ .recovery) ∧
    read0.bytes = (packet 64).payload.length := by decide +kernel

/-- A reduction descriptor of two members with op 1, results to the landing store; a contribution to it. -/
def red0 : State := writeNat core0 0x1000 128 (1 + 2 * 2 ^ 240 + 2 ^ 256 + 4 * 2 ^ 320 + landAddr 0 0 * 2 ^ 384)
def round0 : LftPacket := { packet 64 with aux := 1, addr := 4, seq := 5 }
def reduction0 : Reduction := ⟨0, 4, 0x11111111, 0, [0], landAddr 0 0, 0xFFFFFFFF, 0, [1, 2, 3, 4, 5, 6, 7, 8], []⟩

/-- Received as a check. -/
def receivedB (s : State) (h : LftPacket) : Bool :=
  decide (s.dev.phase ≠ .recovery) && h.crcOk && decide (h.version = 1) && decide (h.typ.toNat < 8)

theorem received_of {s : State} {h : LftPacket} (r : receivedB s h = true) : Received s h := by
  simp only [receivedB, Bool.and_eq_true, decide_eq_true_eq] at r
  exact ⟨r.1.1.1, r.1.1.2, r.1.2, r.2⟩

/-- Packets that are received, and packets that are dropped: a failed CRC-32C, version 2, type 8. -/
theorem witness_received : receivedB reading0 (packet 64) = true ∧ receivedB peered0 round0 = true ∧
    (packet 64).aux.toNat = 0 ∧ ({ packet 64 with crcOk := false } : LftPacket).crcOk = false ∧
    ({ packet 64 with version := 2 } : LftPacket).version ≠ 1 ∧ 8 ≤ ({ packet 64 with typ := 8 } : LftPacket).typ.toNat := by
  decide +kernel

/-- A packet unacknowledged in the flow to peer 1, and one landed since the last ACK. -/
def flow0 : Flow :=
  { Flow.reset with next := 6, sinceAck := 1, unacked := [⟨1, 1, 0, none, 0, packetOf 4 (packet 0)⟩] }

theorem witness_acks :
    (let s := putFlow peered0 1 0 flow0
     peerOn (counted0 s) 1 = true ∧
     (getFlow (counted0 s) 1 0).unacked.find? (fun o => o.p.seq == 1) = some ⟨1, 1, 0, none, 0, packetOf 4 (packet 0)⟩ ∧
     (getFlow s 1 0).sinceAck ≠ 0 ∧ peerOn s 1 = true ∧ peerUp s 1 = true ∧ peerSelf s 1 = false) := by decide +kernel

theorem witness_reducing :
    ringsB red0 2 0 0 = true ∧ redOk red0 0 0x1000 (readNat red0 0x1000 128) = true ∧
    red0.lft.reductions.any (fun x => x.part == 0 && x.tag == bits (readNat red0 0x1000 128) 383 320) = false ∧
    red0.lft.early = [] ∧
    (let s1 := counted0 peered0
     let k := packetOf 5 round0
     peerOn s1 1 = true ∧ isOld (getFlow s1 1 0) k.seq = false ∧ isHeldSeq s1 1 k = false ∧ refusalCode s1 1 k = 0) ∧
    (let s := putLft run0 { run0.lft with reductions := [reduction0] }
     s.lft.reductions[0]? = some reduction0 ∧ (redMoves reduction0.members.length reduction0.rank).length ≤ reduction0.round) := by
  decide +kernel

/-- R376: a reduction of one member writes its own values. -/
theorem test_reductionDone : (match exec (.reductionDone 0) (putLft run0 { run0.lft with reductions := [reduction0] }) with
    | .next u => readNat u (landAddr 0 0) 8
    | _ => 0) = 1 := by decide +kernel

/-- A setting of the dictionary. -/
def withSet (s : State) (idx sub v : Nat) : State :=
  putSettings s { s.settings with committed := mput s.settings.committed (objKey idx sub) (.num v) }

/-- Port 4 with its sub-ports enabled; sub-port 32 not yet up, sub-port 33 up with priority 3 paused. -/
def ports0 : State :=
  let s := withSet (withSet run0 0x5040 1 3) 0x5040 2 0xFF
  putPorts s { s.ports with links := [33], paused := [prioKey 33 3] }

theorem witness_ports :
    ports0.ports.links.contains 32 = false ∧ subOn ports0 32 = true ∧ ports0.ports.holding.contains 32 = false ∧
    mediumReady ports0 32 = true ∧ getDom ports0 32 < 4 ∧ ports0.ports.links.contains 33 = true ∧
    prioKey 33 3 ∈ ports0.ports.paused ∧ prioKey 33 2 ∉ ports0.ports.ignored ∧ (4 : BitVec 8).getLsbD 2 = true ∧
    (4 : BitVec 8).getLsbD 3 = false := by decide +kernel

/-- An untagged frame whose FCS is right. -/
def whole : FrameCheck := { fcsOk := true, pcp := none, corrected := 0, uncorrectable := 0, full := false }

/-- R359: a frame of 9,217 bytes is oversize, one of 9,216 is counted. -/
theorem test_frame : (match exec (.frameReceived 33 9217 whole) ports0, exec (.frameReceived 33 9216 whole) ports0 with
    | .next u, .next v => (getCtr u 0x5041 0x0C, getCtr v 0x5041 1, getCtr v 0x5041 3)
    | _, _ => (0, 0, 0)) = (1, 1, 9216) := by decide +kernel

/-- A powered optic in cage 0. -/
def optic0 : State := putOptic run0 0 { Optic.reset with medium := 2, state := 3 }


theorem witness_optics : (mget Optic.reset run0.ports.optics 0).medium = 0 ∧
    (1000 : BitVec 32).toNat ≤ 1000 * portSet run0 0 9 ∧ bitSet (15 : BitVec 4).toNat (portMode run0 0) = true ∧
    (mget Optic.reset optic0.ports.optics 0).medium ≠ 0 ∧ getDom run0 28 < 3 ∧ getDom optic0 28 < 3 := by decide +kernel

/-- A PTP message's header in domain 0 over Layer 2, and a grandmaster. -/
def head0 : PtpHead := { transport := 0, domain := 0, source := 5, seq := 9, corr := 0 }
def clock0 : PtpClock :=
  { priority1 := 128, cls := 6, accuracy := 0x20, variance := 0, priority2 := 128, gm := 0x99, steps := 0 }

/-- Sub-port 32 takes part in PTP; the module follows the sender of `head0`, has its Sync and waits for its Delay_Resp. -/
def timed0 : State := withSet run0 0x5040 6 1
def asking0 : State :=
  { timed0 with time := { timed0.time with
      parent := some ⟨32, 5, clock0⟩, ptp := { timed0.time.ptp with asked := some (9, 100), sync := some (10, 20) } } }

/-- Heard as a check. -/
def heardB (s : State) (port : Nat) (h : PtpHead) : Bool :=
  (if port < 128 then bitSet (portSet s (port / 8) 6) (port % 8) else setting s 0x1200 9 == 1) &&
    decide (s.dev.phase ≠ .recovery) && decide (h.domain.toNat = setting s 0x1200 6) &&
    decide (h.transport.val = setting s 0x1200 8)

theorem heard_of {s : State} {port : Nat} {h : PtpHead} (r : heardB s port h = true) : Heard s port h := by
  simp only [heardB, Bool.and_eq_true, decide_eq_true_eq] at r
  exact ⟨r.1.1.1, r.1.1.2, r.1.2, r.2⟩

theorem witness_heard : heardB timed0 32 head0 = true ∧ heardB asking0 32 head0 = true ∧
    heardB (withSet run0 0x1200 9 1) 128 head0 = true ∧ timed0.time.parent = none ∧ setting asking0 0x1200 7 = 0 ∧
    asking0.time.parent = some ⟨32, head0.source.toNat, clock0⟩ ∧
    asking0.time.ptp.asked = some (head0.seq.toNat, 100) ∧ asking0.time.ptp.sync = some (10, 20) := by decide +kernel

theorem macBase_lt : macBase < 281474976710656 := by
  have h := Nat.mod_lt (Config.madeNum (objKey 0x1000 8)) (y := 1099511627776) (by decide)
  unfold macBase
  generalize Config.madeNum (objKey 0x1000 8) = x at h
  omega

theorem identity_fits (m : Nat) (h : m < 281474976710656) : identityOf m < 18446744073709551616 := by
  unfold identityOf; omega

theorem port_fits (c k : Nat) (hc : c < 18446744073709551616) (hk : k < 256) :
    c * 2 ^ 16 + (k + 1) < 1208925819614629174706176 := by omega

theorem ptpPort_eq (k : Nat) : ptpPort k = clockIdentity * 2 ^ 16 + (k + 1) := rfl

/-- A Delay_Resp can name the module's port 32: its port identity fits 80 bits. -/
theorem witness_asker : ptpPort 32 < 1208925819614629174706176 :=
  (ptpPort_eq 32).trans_lt (port_fits clockIdentity 32 (identity_fits macBase macBase_lt) (by decide))

theorem witness_clock : ({ run0 with time := { run0.time with state := 2 } } : State).time.state = 2 ∧
    ({ run0 with time := { run0.time with state := 3 } } : State).time.state = 3 := by decide +kernel

/-- R380: the first Announce that is heard selects its sender. -/
theorem test_announce : (match exec (.ptpMessage 32 (.announce head0 clock0)) timed0 with
    | .next u => (u.time.gm, u.time.state)
    | _ => (0, 0)) = (0x99, 1) := by decide +kernel
/-! ## Partitions, units, power, start-up and the dictionary -/

/-- Partition 0 with a state, in the reset module otherwise. -/
def inState (x : PartState) : State := putPart run0 0 { part0 with state := x }

/-- Committed resources for partition 1: tile group 1, interface group 1, counters 16 to 31, work core 2. -/
def toForm0 : State :=
  let s := withSet (withSet run0 0x3000 2 2) 0x3001 2 2
  withSet (withSet (withSet s 0x3002 2 (16 + 2 ^ 20)) 0x3500 2 (16 + 2 ^ 20)) 0x3603 2 4

/-- A STOPPED partition 0 with a placement table of no entries at 0x1000 and an update table of one group at 0x2000. -/
def toStart0 : State :=
  let s := withSet (withSet (inState .stopped) 0x3200 1 0x1000) 0x3701 1 0x2000
  writeNat (writeNat s 0x1000 64 (1 + 2 ^ 256 + 2 ^ 352)) 0x2000 64 (1 + 2 ^ 16 + 3 * 2 ^ 64 + 2 * 2 ^ 96 + 2 ^ 160)

theorem witness_commands : cmdReady run0 = true ∧ cmdReady toStart0 = true ∧
    (getPart run0 1).state = .unformed ∧ mayForm toForm0 1 (committedPart toForm0 1) = true ∧ (getPart (inState .stopped) 0).state = .stopped ∧
    (getPart toStart0 0).state = .stopped ∧ toStart0.panel.removal = 0 ∧ (readUpdTable toStart0 0).2 = true ∧
    (loadTable (readUpdTable toStart0 0).1 0).2 = true ∧ agreedFirst toStart0 (getPart toStart0 0) = some 0 ∧ calm toStart0 = true ∧
    toStart0.sched.doorbells.any (fun x => x.1 == 4 && x.2.1 == 0) = false ∧ (getPart run0 0).state = .running ∧
    (getPart (inState .preempted) 0).state = .preempted ∧ (getPart (inState .held) 0).state = .held := by decide +kernel

/-- A RUNNING partition with a cause, and with a cause that holds and its attempts used up. -/
def caused0 (n : Nat) : State := putPart run0 0 { part0 with causes := [0x0401], attempts := n }

theorem witness_restarts : (getPart (caused0 0) 0).causes = [0x0401] ∧ (0x0401 : Nat) < 65536 ∧
    (getPart (caused0 0) 0).attempts + 1 ≤ settingAt (caused0 0) 1 0x3007 1 ∧
    settingAt (caused0 99) 1 0x3007 1 < (getPart (caused0 99) 0).attempts + 1 ∧
    (let s := putPart run0 0 { part0 with causes := [0x0401, 0x10A09] }
     (getPart s 0).state = .running ∧ (getPart s 0).causes.find? (fun c => decide (65536 ≤ c)) = some 0x10A09) ∧
    (let s := inState .restarting
     (getPart s 0).state = .restarting ∧ (getPart s 0).causes = [] ∧ (getPart s 0).awaiting = [] ∧ flowsUp s 0 = true ∧
     settled s 0 = true ∧ (getPart s 0).rolling = false ∧ calm s = true ∧ setting s 0x3006 1 = 0) ∧
    (getPart (putPart run0 0 { part0 with state := .restarting, rolling := true }) 0).rolling = true ∧ calm run0 = true ∧
    boundaryReached run0 0 = true ∧ (getPart (inState .held) 0).state ≠ .running ∧
    (let s := putRetr run0 { run0.retr with hot := [{ hot0 with held := some [] }] }
     boundaryReached s 0 = false) := by decide +kernel

/-- R21: the boundary passes; R395: a restart without anything left to await lets the partition run again, in a replay. -/
theorem test_boundary : (match exec (.stepBoundary 0) run0, exec (.partitionRestart 0) (inState .restarting) with
    | .next u, .next v => ((getPart u 0).step, (getPart v 0).state, (getPart v 0).replay)
    | _, _ => (0, .held, false)) = (1, .running, true) := by decide +kernel

/-- Tile 3 of partition 0 awaits a replacement. -/
def awaiting0 : State := putPart run0 0 { part0 with awaiting := [3] }

/-- Physical tile 16 of die 0 is under test, in no logical place. -/
def testing0 : State := putUnits run0 { run0.units with testing := [16] }

theorem witness_units : (servedBy run0 0).any (jobRuns run0) = true ∧ getDom run0 (unitDom run0 0) < 2 ∧
    run0.units.out.contains 0 = false ∧ tilePresent run0 0 = true ∧
    mget 0 run0.units.misses 0 + 1 < setting run0 0x300A 2 ∧
    (let s := putUnits run0 { run0.units with misses := [(0, 99)] }
     setting s 0x300A 2 ≤ mget 0 s.units.misses 0 + 1) ∧
    (upFrom 0 16).find? (fun p => (getPart awaiting0 p).awaiting.contains 3) = some 0 ∧ (getPart awaiting0 0).causes = [] ∧ (getPart awaiting0 0).rolling = false ∧
    (takeReplacement (putPart awaiting0 0 part0) 3 0).2 = true ∧ partOfTile run0 3 = some 0 ∧ tilePresent run0 3 = true ∧
    bitSet (poolOf run0 0) 16 = true ∧ run0.units.testing.contains 16 = false ∧ mfind run0.power.entering 16 = none ∧
    testing0.units.owed = [] ∧ 16 ∈ testing0.units.testing ∧
    logicalOf testing0 16 = none := by decide +kernel

/-- R402: a replaced tile takes the die's spare. -/
theorem test_replacement : (match exec (.replacementReady 3) awaiting0 with
    | .next u => (physOf u 3, (getPart u 0).awaiting, poolOf u 0)
    | _ => (0, [0], 0)) = (16, [], 0) := by decide +kernel

/-- The module draws 2,200 W, above a cap of 1,000 W, in the tenth evaluation; and it draws nothing. -/
def hungry0 : State :=
  let s := withSet run0 0x2200 1 1000
  putPower s { s.power with samples := [(44000, 50000)], overCap := 9, sinceStep := 9 }

theorem witness_power : poweredOn run0 = true ∧
    (let s := putPower run0 { run0.power with faultCause := 1 }
     s.power.faultCause ≠ 0 ∧ poweredOn s = true) ∧
    (let s := putDev run0 { run0.dev with phase := .saving, pwrEn := false }
     s.dev.phase = .saving ∧ (s.dev.pwrEn && s.dev.inputOk) = false) ∧
    (let s1 := putPower hungry0 { hungry0.power with arrayMw := 0 }
     capMw s1 < inputMw s1 ∧ 9 ≤ hungry0.power.overCap ∧ 9 ≤ hungry0.power.sinceStep ∧ hungry0.power.stage < 3) ∧
    (let s1 := putPower run0 { run0.power with arrayMw := 0, stage := 0 }
     inputMw s1 ≤ capMw s1) ∧
    (let s1 := putPower hungry0 { hungry0.power with samples := [(44000, 22000)], stage := 3 }
     inputMw s1 ≤ capMw s1 ∧ mayStepUp s1 = false) := by decide +kernel

/-- Domain 5, a tile group of no partition, in power states; domain 0 on its way into one. -/
def dom5 (st : Nat) : State := putPower run0 { run0.power with dom := [(5, st)] }
def entering0 (st : Nat) (raced : Bool) : State :=
  putPower run0 { run0.power with entering := [(0, st)], woken := if raced then [0] else [] }

/-- The idle timer of a state acts on a domain. -/
def due0 (s : State) (i : Fin 48) (k : Fin 4) : Bool :=
  let s0 := takeTimers s i
  hasState (domClass i) k && decide (settingAt s0 (i + 1) (0x2100 + domClass i) k ≠ 0) &&
    domIdle s0 i (decide (2 ≤ k.val)) && !s.power.exiting.contains i.val && decide (getDom s i < k.val) &&
    decide (mget 0 s.power.entering i < k.val)

theorem witness_domains :
    (due0 run0 5 1 = true ∧ 1 ≤ domFloor (takeTimers run0 5) 5 ∧ mfind run0.power.entering 5 = none) ∧
    (let s := withSet (putTile run0 0 Tile.reset) 0x2100 3 1
     due0 s 0 3 = true ∧ domFloor (takeTimers s 0) 0 < 3) ∧ due0 run0 46 2 = false ∧
    hasState (domClass 46) 2 = false ∧
    (0 < getDom (dom5 2) 5 ∧ getDom (dom5 2) 5 ≠ 4 ∧ mfind (dom5 2).power.entering 5 = none ∧
      (dom5 2).power.exiting.contains 5 = false) ∧ getDom (dom5 0) 5 = 0 ∧ getDom (dom5 4) 5 = 4 ∧
    (let s := putPower run0 { run0.power with exiting := [5], dom := [(5, 3)] }
     mfind s.power.entering 5 = none ∧ s.power.exiting.contains 5 = true) ∧
    ([1, 2, 3].all (fun st => mfind (entering0 st false).power.entering 0 == some st &&
      !(entering0 st false).power.woken.contains 0 && (entering0 st true).power.woken.contains 0 &&
      !(entering0 st true).power.exiting.contains 0)) = true ∧ domClass 0 = 0 ∧ 0 ∈ domTiles (entering0 2 false) 0 ∧
    0 < storeBytes := by decide +kernel

/-- R421, R423: a NAP that a wake raced empties the panels of the group's tiles and leaves again at once. -/
theorem test_nap : (match exec (.stateEntryDone 0)
      (putTile (entering0 2 true) 0 { tile0 with panels := [(0, { Panel.reset with full := true })] }) with
    | .next u => (getDom u 0, u.power.exiting, (getTile u 0).panels == [])
    | _ => (0, [], false)) = (2, [0], true) := by decide +kernel

theorem witness_heat : (levelAt 0)[mget 0 run0.power.level 0]? = some 90000 ∧ (levelAt 4)[0]? = some 90000 ∧
    (levelAt 10)[0]? = some 90000 ∧ (levelAt 0)[3]? = some 103000 ∧ run0.dev.phase ≠ .critical ∧
    isCritical (putPower run0 { run0.power with dieC := [(0, 110000)] }) 0 0 = true ∧
    isCritical (putPower run0 { run0.power with gddrC := [(39, 100000)] }) 1 39 = true ∧
    isCritical (putPower run0 { run0.power with flow := 1499 }) 2 0 = true := by decide +kernel

/-- The module in a phase. -/
def atPhase (x : Phase) : State := putDev State.reset { State.reset.dev with phase := x }

theorem witness_pins :
    (let s := putDev (atPhase .off) { (atPhase .off).dev with pwrEn := false }
     s.dev.pwrEn = false ∧ s.dev.phase = .off ∧ s.dev.inputOk = true ∧ s.power.faulted = false ∧
     (10001 : Nat) ≤ (putPower s { s.power with faulted := true, okRun := 10001 }).power.okRun) ∧
    poweredOn State.reset = true ∧ State.reset.dev.phase = .ready ∧ (atPhase .heldReset).dev.phase = .heldReset ∧
    (let s := putDev State.reset { State.reset.dev with resetDue := 3 }
     s.dev.resetDue ≠ 0 ∧ s.dev.rstN = true) := by decide +kernel

theorem witness_start :
    (atPhase .powered).dev.phase = .powered ∧ (atPhase .powered).dev.rstN = true ∧
    (let s1 := step2 (atPhase .powered) 5
     let s2 := stampStep (putDev s1 { s1.dev with svc := false }) 3
     s2.fw.active = 0 ∧ isDelivered s2 0 = true ∧ setting s2 0x1302 1 = 0) ∧
    (atPhase .heldSvc).dev.phase = .heldSvc ∧
    (let s := putDev (atPhase .bringup) { (atPhase .bringup).dev with steps := 0 }
     bitSet s.dev.steps 0 = false ∧ s.dev.groups = 0xFFFFF ∧ bitSet s.dev.steps 3 = false) ∧
    (putDev (atPhase .bringup) { (atPhase .bringup).dev with steps := 15 }).dev.steps = 15 := by decide +kernel

/-- The delivered image passes the ROM's check whatever its manifest says (R439). -/
theorem witness_romCheck (s : State) (h : isDelivered s 0 = true) (v : setting s 0x1302 1 = 0) : romCheck s 0 = 0 := by
  simp [romCheck, h, v]

/-- A READY module with an OWNER session 9, ready, and a handshake 10. -/
def session9 : Session := { newSession 9 128 wire 3 [] [] 1 with ready := true, role := 3, next := 4, out := 2 }
def session10 : Session := newSession 10 128 wire 3 [] [] 2
def dap0 : State :=
  let s := putDev State.reset { State.reset.dev with mgmtLink := true }
  putDap s { s.dap with sessions := [session9, session10] }

theorem witness_sessions : dapServed dap0 = true ∧ viaServed dap0 128 wire = true ∧ (List.replicate 2592 (0 : Byte)).length = 2592 ∧
    (2 : BitVec 16).toNat &&& setting dap0 0x1100 1 ≠ 0 ∧ openCount dap0 < setting dap0 0x1100 0x0C ∧
    (dap0.dap.sessions.filter (fun x => !x.ready)).length < 16 ∧ getSession dap0 10 = some session10 ∧
    handshakeOf dap0 (framed (BitVec.ofNat 128 (2 ^ 124 + 10 * 2 ^ 64))) = some session10 ∧ session10.ready = false ∧ (List.replicate 1568 (0 : Byte)).length = 1568 ∧ getSession dap0 9 = some session9 ∧
    session9.ready = true ∧ session9.role = 3 ∧ (4 : BitVec 32).toNat = session9.next ∧
    (let x := { session9 with sub := some ⟨1, 0, 0, [3], false⟩ }
     getSession (putSession dap0 x) 9 = some x) := by decide +kernel

theorem witness_inTurn : InTurn dap0 9 4 session9 :=
  ⟨by decide +kernel, by decide +kernel, by decide +kernel, by decide +kernel⟩

/-- A frame's header: version 1, session 9, one segment of 8 bytes. -/
def header0 : Nat := 2 ^ 124 + 8 * 2 ^ 96 + 9 * 2 ^ 64 + 2 ^ 16

theorem witness_frames : (BitVec.ofNat 128 header0).toNat = header0 ∧ headOk header0 (List.replicate 8 (0 : Byte)).length = true ∧
    getSession dap0 (bits header0 95 64) = some session9 ∧ session9.ready = true ∧ dapServed dap0 = true ∧
    bits header0 127 124 = session9.version ∧ bits header0 16 16 = 1 ∧
    bits (header0 - 2 ^ 16) 16 16 = 0 ∧ headOk (header0 - 2 ^ 16) 8 = true := by decide +kernel

/-- A PING in its turn is answered and the next is expected. -/
theorem test_ping : (match exec (.ping 9 4) dap0 with
    | .next u => ((getSession u 9).map Session.next, u.dap.out.length)
    | _ => (none, 0)) = (some 5, 1) := by decide +kernel

/-- A write of data to an object by session 9 breaks no rule and the object's access is `acc`. -/
def writable (idx sub acc : Nat) (data : List Byte) : Bool :=
  match objFor dap0 idx sub true with
  | some r => roleMay session9.role idx && lengthFits r.typ data && rangeOk r idx sub (decodeVal r.typ data) && r.acc == acc
  | none => false

theorem witness_registers : writable 0x6000 2 3 [7] = true ∧ writable 0x3800 4 1 [1, 0] = true ∧
    tilePresent halted0 0 = true ∧ jobStopped halted0 0 = true := by decide +kernel

theorem witness_flash :
    (let s := putSettings State.reset { State.reset.settings with flashWaiting := [objKey 0x1200 6] }
     s.settings.flashWaiting ≠ [] ∧ 85 ≤ s.power.holdup) ∧
    (let s := putDap State.reset { State.reset.dap with remapDue := [3] }
     s.dap.remapDue.find? (fun x => x / 32 == 0) = some 3 ∧ fuseLeft s 0x1303 1 ≠ 0 ∧ bitSet (setting s 0x1303 1) 3 = false ∧
     85 ≤ s.power.holdup ∧ 40500 ≤ s.power.mv) := by decide +kernel

/-- An update of session 9 into slot B in a state of its course. -/
def updating0 (n : Nat) : State := putFw dap0 { dap0.fw with update := n, target := 1, length := 65536, owner := 9 }

theorem witness_firmware : updateRefusal dap0 = 0 ∧ isOwner dap0 9 = true ∧ dap0.fw.update = 0 ∧ dap0.fw.active ≠ 1 ∧
    (65536 : BitVec 32).toNat % 65536 = 0 ∧ (31457280 : BitVec 32).toNat % 65536 = 0 ∧ updateRefusal (updating0 1) = 0 ∧
    isOwner (updating0 1) 9 = true ∧ (updating0 1).fw.owner = 9 ∧ (updating0 1).fw.queue.length < 8 ∧
    mfind (updating0 1).fw.halves 0 = none ∧ updateRefusal (updating0 4) = 0 ∧ (updating0 4).dev.phase ≠ .recovery := by
  decide +kernel

/-- The second half of a block: the first half is there with the CRC-32C of both. -/
theorem witness_block (data first : List Byte) : (BitVec.ofNat 32 (crc32c (first ++ data))).toNat = crc32c (first ++ data) := by
  simp [crc32c]

theorem witness_panel : firmwareRuns State.reset = true ∧ bitSet (setting (withSet State.reset 0x6000 2 7) 0x6000 2) 0 = true ∧
    bitSet (setting (withSet State.reset 0x6000 2 7) 0x6000 2) 1 = true ∧
    bitSet (setting (withSet State.reset 0x6000 2 7) 0x6000 2) 2 = true ∧
    setting State.reset 0x6000 0x0A < (65535 : BitVec 16).toNat ∧ (1 : BitVec 16).toNat = 1 ∧ (3600 : BitVec 16).toNat = 3600 ∧
    debugOff State.reset = false ∧ ringOk (withSet State.reset 0x8000 4 65536) = true ∧ State.reset.panel.quiesce = 0 ∧
    State.reset.panel.removal = 0 ∧ allRest State.reset = true ∧ removalOk State.reset = true ∧
    State.reset.panel.lever = false := by decide +kernel

/-- The hot module of R446, and a module whose debug is disabled. -/
def hot1 : State := putPower (atPhase .critical) { State.reset.power with dieC := [(0, 85000)] }
def noDebug : State := withSet State.reset 0x1304 1 1

theorem witness_rules : hot1.dev.phase = .critical ∧ allCool hot1 = false ∧ debugOff noDebug = true ∧
    noDebug.dev.phase ≠ .recovery := by decide +kernel

/-- R446: a module that is cool enough takes the reset pin's request. -/
theorem test_coolReset : (match exec .rstNLow (atPhase .critical) with
    | .next u => u.dev.resetDue
    | _ => 0) = 4 := by decide +kernel

/-! ## The queue and the frames -/

/-- The queue: the front command runs first and the rest waits. -/
theorem test_queue : (match step (State.reset.withPending [.identifyWrite 0, .ledTest 1]) with
    | .next u => (u.pending.length, u.panel.ledTest)
    | _ => (0, true)) = (1, false) := by decide +kernel

theorem witness_queue : (State.reset.withPending [.ledTest 1]).pending = .ledTest 1 :: [] ∧ State.reset.pending = [] ∧
    (0x10, Instr.vand 0 (vword 0 3 1 2 0 0)) ∈ vectorRegisterForms 0 (vword 0 3 1 2 0 0) ∧
    isHousekeeping (.ledTest 1) = true := by decide +kernel

theorem witness_inv : Inv State.reset :=
  ⟨⟨List.Pairwise.nil, fun _ h => (List.not_mem_nil h).elim⟩, ⟨by decide, by decide, rfl⟩,
    ⟨List.Pairwise.nil, fun _ h => (List.not_mem_nil h).elim⟩, fun _ h => (List.not_mem_nil h).elim⟩
end Sys2Proof.Tests
end

