-- ==== Sys2Proof/Proofs/Scope.lean ====
section
/-! Proofs/Scope.lean: the invariant of memory, counter objects and event log along every step. The functions behind each
command and behind the tick keep it (Laws/Keeps*.lean); here these laws meet over all commands and both kinds of step. -/

namespace Sys2Proof.Machine

/-- Every command keeps the invariant and the queue: one law for each arm of `exec`. -/
theorem keeps_exec (c : Instr) (s : State) : Kept s (exec c s) :=
  match c with
  | .nop t x w => keeps_execNop (.refl s) t x w
  | .step t x w => keeps_execStep (.refl s) t x w
  | .jump t x w => keeps_execJump (.refl s) t x w
  | .endStream t x w => keeps_execEndStream (.refl s) t x w
  | .mma t x w => keeps_execMma (.refl s) t x w
  | .mmaT t x w => keeps_execMmaT (.refl s) t x w
  | .bwd2 t x w => keeps_execBwd2 (.refl s) t x w
  | .drain t x w => keeps_execDrain (.refl s) t x w
  | .load t x w => keeps_execLoad (.refl s) t x w
  | .loadt t x w => keeps_execLoadt (.refl s) t x w
  | .store t x w => keeps_execStore (.refl s) t x w
  | .gather t x w => keeps_execGather (.refl s) t x w
  | .scatterAdd t x w => keeps_execScatterAdd (.refl s) t x w
  | .updP1 t x w => keeps_execUpdP1 (.refl s) t x w
  | .updP2 t x w => keeps_execUpdP2 (.refl s) t x w
  | .vexec t x w => keeps_execVexec (.refl s) t x w
  | .reduceSlotSum t x w => keeps_execReduceSlotSum (.refl s) t x w
  | .reduceSelect t x w => keeps_execReduceSelect (.refl s) t x w
  | .reduceAudit t x w => keeps_execReduceAudit (.refl s) t x w
  | .normrc t x w => keeps_execNormrc (.refl s) t x w
  | .smaxrc t x w => keeps_execSmaxrc (.refl s) t x w
  | .signal t x w => keeps_execSignal (.refl s) t x w
  | .watch t x w => keeps_execWatch (.refl s) t x w
  | .wait t x w => keeps_execWait (.refl s) t x w
  | .vend t w => keeps_execVend (.refl s) t w
  | .vld t w => keeps_execVld (.refl s) t w
  | .vst t w => keeps_execVst (.refl s) t w
  | .vadd t w => keeps_execVadd (.refl s) t w
  | .vsub t w => keeps_execVsub (.refl s) t w
  | .vmul t w => keeps_execVmul (.refl s) t w
  | .vfma t w => keeps_execVfma (.refl s) t w
  | .vmax t w => keeps_execVmax (.refl s) t w
  | .vmin t w => keeps_execVmin (.refl s) t w
  | .vcgt t w => keeps_execVcgt (.refl s) t w
  | .vsel t w => keeps_execVsel (.refl s) t w
  | .vexp t w => keeps_execVexp (.refl s) t w
  | .vlog t w => keeps_execVlog (.refl s) t w
  | .vrcp t w => keeps_execVrcp (.refl s) t w
  | .vrsq t w => keeps_execVrsq (.refl s) t w
  | .vcvt t w => keeps_execVcvt (.refl s) t w
  | .vand t w => keeps_execVand (.refl s) t w
  | .vor t w => keeps_execVor (.refl s) t w
  | .vxor t w => keeps_execVxor (.refl s) t w
  | .vshl t w => keeps_execVshl (.refl s) t w
  | .vbc t w => keeps_execVbc (.refl s) t w
  | .vrsum t w => keeps_execVrsum (.refl s) t w
  | .vrmax t w => keeps_execVrmax (.refl s) t w
  | .sadd t w => keeps_execSadd (.refl s) t w
  | .sloop t w => keeps_execSloop (.refl s) t w
  | .sld t w => keeps_execSld (.refl s) t w
  | .sst t w => keeps_execSst (.refl s) t w
  | .swread t w => keeps_execSwread (.refl s) t w
  | .handOver t => keeps_execHandOver (.refl s) t
  | .loadComplete t x seq => keeps_execLoadComplete (.refl s) t x seq
  | .panelLoadComplete t x seq => keeps_execPanelLoadComplete (.refl s) t x seq
  | .sideOperandLoaded t x seq => keeps_execSideOperandLoaded (.refl s) t x seq
  | .tokenTimeout t x e => keeps_execTokenTimeout (.refl s) t x e
  | .bankSideOp t line op operand req => keeps_execBankSideOp (.refl s) t line op operand req
  | .streamRun t x => keeps_execStreamRun (.refl s) t x
  | .hubSignalApply k => keeps_execHubSignalApply (.refl s) k
  | .heldSignalApply k => keeps_execHeldSignalApply (.refl s) k
  | .counterAdd c n v => keeps_execCounterAdd (.refl s) c n v
  | .counterMax c n v => keeps_execCounterMax (.refl s) c n v
  | .counterInit c n v => keeps_execCounterInit (.refl s) c n v
  | .watchRegister k => keeps_execWatchRegister (.refl s) k
  | .watchSlotFreed k => keeps_execWatchSlotFreed (.refl s) k
  | .watchTimeout list k => keeps_execWatchTimeout (.refl s) list k
  | .whistleArrival k => keeps_execWhistleArrival (.refl s) k
  | .syncSelect n => keeps_execSyncSelect (.refl s) n
  | .enqueue d c whole desc => keeps_execEnqueue (.refl s) d c whole desc
  | .enqueueSlotFreed k => keeps_execEnqueueSlotFreed (.refl s) k
  | .itemDispatch c => keeps_execItemDispatch (.refl s) c
  | .itemReturn c status => keeps_execItemReturn (.refl s) c status
  | .itemFault c cause pc => keeps_execItemFault (.refl s) c cause pc
  | .itemOverrun c => keeps_execItemOverrun (.refl s) c
  | .agingEvaluation d => keeps_execAgingEvaluation (.refl s) d
  | .houndDoorbell door addr => keeps_execHoundDoorbell (.refl s) door addr
  | .hopClose p => keeps_execHopClose (.refl s) p
  | .trailComplete p => keeps_execTrailComplete (.refl s) p
  | .retrieverRequestComplete k => keeps_execRetrieverRequestComplete (.refl s) k
  | .mergeAdd k => keeps_execMergeAdd (.refl s) k
  | .deferredRowDelivered k => keeps_execDeferredRowDelivered (.refl s) k
  | .migrationSwitch k => keeps_execMigrationSwitch (.refl s) k
  | .publishDoorbell door t => keeps_execPublishDoorbell (.refl s) door t
  | .versionFreed k => keeps_execVersionFreed (.refl s) k
  | .maskLoadDoorbell door addr => keeps_execMaskLoadDoorbell (.refl s) door addr
  | .planBuilt p => keeps_execPlanBuilt (.refl s) p
  | .pass1Slice d => keeps_execPass1Slice (.refl s) d
  | .diePass1Complete p d => keeps_execDiePass1Complete (.refl s) p d
  | .normCombine p gi k => keeps_execNormCombine (.refl s) p gi k
  | .pass2Start d => keeps_execPass2Start (.refl s) d
  | .pass2SliceDone d => keeps_execPass2SliceDone (.refl s) d
  | .groupUpdateDone p gi => keeps_execGroupUpdateDone (.refl s) p gi
  | .stepBoundary p => keeps_execStepBoundary (.refl s) p
  | .placementReload p v => keeps_execPlacementReload (.refl s) p v
  | .uncorrectableError e req => keeps_execUncorrectableError (.refl s) e req
  | .refillArrived k good corrected => keeps_execRefillArrived (.refl s) k good corrected
  | .pageCopyDone k => keeps_execPageCopyDone (.refl s) k
  | .linkCrcFailure burst => keeps_execLinkCrcFailure (.refl s) burst
  | .retrainDone idx ok => keeps_execRetrainDone (.refl s) idx ok
  | .patrolScrub line found reads => keeps_execPatrolScrub (.refl s) line found reads
  | .farReadTimeout k => keeps_execFarReadTimeout (.refl s) k
  | .windowOpen w entry => keeps_execWindowOpen (.refl s) w entry
  | .windowClose w => keeps_execWindowClose (.refl s) w
  | .progressChange p => keeps_execProgressChange (.refl s) p
  | .prefetchLanded p idx => keeps_execPrefetchLanded (.refl s) p idx
  | .prefetchCreditsReturned p idx => keeps_execPrefetchCreditsReturned (.refl s) p idx
  | .peerTableWrite peer entry => keeps_execPeerTableWrite (.refl s) peer entry
  | .lftHelloReceived sub peer mid inc versions youAre =>
      keeps_execLftHelloReceived (.refl s) sub peer mid inc versions youAre
  | .lftWriteReceived h => keeps_execLftWriteReceived (.refl s) h
  | .lftReadReceived h => keeps_execLftReadReceived (.refl s) h
  | .lftReadDataReceived h => keeps_execLftReadDataReceived (.refl s) h
  | .lftSignalReceived h => keeps_execLftSignalReceived (.refl s) h
  | .lftReduceReceived h ops => keeps_execLftReduceReceived (.refl s) h ops
  | .lftAckReceived h => keeps_execLftAckReceived (.refl s) h
  | .lftNakReceived h => keeps_execLftNakReceived (.refl s) h
  | .lftRetransmitTimeout peer part seq => keeps_execLftRetransmitTimeout (.refl s) peer part seq
  | .ackTimer peer part => keeps_execAckTimer (.refl s) peer part
  | .helloInterval peer => keeps_execHelloInterval (.refl s) peer
  | .peerTimeout peer => keeps_execPeerTimeout (.refl s) peer
  | .reduceDoorbell door addr => keeps_execReduceDoorbell (.refl s) door addr
  | .reductionDone k => keeps_execReductionDone (.refl s) k
  | .linkUp l => keeps_execLinkUp (.refl s) l
  | .linkDown l => keeps_execLinkDown (.refl s) l
  | .linkHoldExpiry l => keeps_execLinkHoldExpiry (.refl s) l
  | .frameReceived l len check => keeps_execFrameReceived (.refl s) l len check
  | .pfcFrameReceived l enable times => keeps_execPfcFrameReceived (.refl s) l enable times
  | .pfcWatchdog l k => keeps_execPfcWatchdog (.refl s) l k
  | .opticInserted p copper powerMw apps vendor part serial =>
      keeps_execOpticInserted (.refl s) p copper powerMw apps vendor part serial
  | .opticRemoved p => keeps_execOpticRemoved (.refl s) p
  | .ptpMessage port m => keeps_execPtpMessage (.refl s) port m
  | .announceTimeout => keeps_execAnnounceTimeout (.refl s)
  | .holdoverLimit => keeps_execHoldoverLimit (.refl s)
  | .form p => keeps_execForm (.refl s) p
  | .start p => keeps_execStart (.refl s) p
  | .stop p => keeps_execStop (.refl s) p
  | .preempt p => keeps_execPreempt (.refl s) p
  | .resume p => keeps_execResume (.refl s) p
  | .restart p => keeps_execRestart (.refl s) p
  | .dissolve p => keeps_execDissolve (.refl s) p
  | .partitionRestart p => keeps_execPartitionRestart (.refl s) p
  | .healthProbe u answered => keeps_execHealthProbe (.refl s) u answered
  | .replacementReady t => keeps_execReplacementReady (.refl s) t
  | .retireRequest t => keeps_execRetireRequest (.refl s) t
  | .testRequest ph => keeps_execTestRequest (.refl s) ph
  | .poolTestTimer d => keeps_execPoolTestTimer (.refl s) d
  | .selfTestDone u pass => keeps_execSelfTestDone (.refl s) u pass
  | .inputSample mv ma => keeps_execInputSample (.refl s) mv ma
  | .inputFault => keeps_execInputFault (.refl s)
  | .kennelSaveDone => keeps_execKennelSaveDone (.refl s)
  | .idleTimerExpiry idx st => keeps_execIdleTimerExpiry (.refl s) idx st
  | .domainWake idx => keeps_execDomainWake (.refl s) idx
  | .stateEntryDone idx => keeps_execStateEntryDone (.refl s) idx
  | .stateExitDone idx => keeps_execStateExitDone (.refl s) idx
  | .powerEvaluation array => keeps_execPowerEvaluation (.refl s) array
  | .thermalReport sensor milliC => keeps_execThermalReport (.refl s) sensor milliC
  | .coolantSample flow inlet => keeps_execCoolantSample (.refl s) flow inlet
  | .thermalCritical kind unit => keeps_execThermalCritical (.refl s) kind unit
  | .pwrEnHigh => keeps_execPwrEnHigh (.refl s)
  | .pwrEnLow => keeps_execPwrEnLow (.refl s)
  | .rstNLow => keeps_execRstNLow (.refl s)
  | .rstNHigh => keeps_execRstNHigh (.refl s)
  | .coldStart slot svc fail detail => keeps_execColdStart (.refl s) slot svc fail detail
  | .gddr7TrainingDone failed => keeps_execGddr7TrainingDone (.refl s) failed
  | .ptpWaitExpiry => keeps_execPtpWaitExpiry (.refl s)
  | .bootReady => keeps_execBootReady (.refl s)
  | .holdupCharged => keeps_execHoldupCharged (.refl s)
  | .warmReset slot svc fail detail => keeps_execWarmReset (.refl s) slot svc fail detail
  | .devReset v => keeps_execDevReset (.refl s) v
  | .dapHello via src nonce versions role key => keeps_execDapHello (.refl s) via src nonce versions role key
  | .dapKey came ct sig => keeps_execDapKey (.refl s) came ct sig
  | .handshakeTimeout sess => keeps_execHandshakeTimeout (.refl s) sess
  | .dapFrameReceived came payload tag => keeps_execDapFrameReceived (.refl s) came payload tag
  | .reassemblyTimeout sess seq => keeps_execReassemblyTimeout (.refl s) sess seq
  | .read sess seq items => keeps_execRead (.refl s) sess seq items
  | .write sess seq items => keeps_execWrite (.refl s) sess seq items
  | .commit sess seq => keeps_execCommit (.refl s) sess seq
  | .discard sess seq => keeps_execDiscard (.refl s) sess seq
  | .confirm sess seq token => keeps_execConfirm (.refl s) sess seq token
  | .subscribe sess seq mask minSev fromSeq => keeps_execSubscribe (.refl s) sess seq mask minSev fromSeq
  | .eventAck sess seq acked => keeps_execEventAck (.refl s) sess seq acked
  | .ping sess seq => keeps_execPing (.refl s) sess seq
  | .close sess seq => keeps_execClose (.refl s) sess seq
  | .idleTimeout sess => keeps_execIdleTimeout (.refl s) sess
  | .eventResendTimer sess => keeps_execEventResendTimer (.refl s) sess
  | .alertClear v => keeps_execAlertClear (.refl s) v
  | .registerWrite w => keeps_execRegisterWrite (.refl s) w
  | .attNonce sess nonce => keeps_execAttNonce (.refl s) sess nonce
  | .attReportBuilt sess signed => keeps_execAttReportBuilt (.refl s) sess signed
  | .fwUpdateBegin sess slot len => keeps_execFwUpdateBegin (.refl s) sess slot len
  | .fwUpdateBlock sess block half crc data => keeps_execFwUpdateBlock (.refl s) sess block half crc data
  | .fwBlockProgrammed => keeps_execFwBlockProgrammed (.refl s)
  | .fwUpdateManifest sess m => keeps_execFwUpdateManifest (.refl s) sess m
  | .fwUpdateActivate sess v => keeps_execFwUpdateActivate (.refl s) sess v
  | .fwVerifyDone => keeps_execFwVerifyDone (.refl s)
  | .fwActivation => keeps_execFwActivation (.refl s)
  | .fwUpdateAbort sess v => keeps_execFwUpdateAbort (.refl s) sess v
  | .romRecovery => keeps_execRomRecovery (.refl s)
  | .moduleRemapWrite d => keeps_execModuleRemapWrite (.refl s) d
  | .identifyWrite v => keeps_execIdentifyWrite (.refl s) v
  | .identifyExpiry => keeps_execIdentifyExpiry (.refl s)
  | .removalRequest => keeps_execRemovalRequest (.refl s)
  | .removalCancel => keeps_execRemovalCancel (.refl s)
  | .removalSafe => keeps_execRemovalSafe (.refl s)
  | .quiesceRequest => keeps_execQuiesceRequest (.refl s)
  | .quiesced => keeps_execQuiesced (.refl s)
  | .ledTest v => keeps_execLedTest (.refl s) v
  | .alarmClear p v => keeps_execAlarmClear (.refl s) p v
  | .traceArm v => keeps_execTraceArm (.refl s) v
  | .svcShortPress => keeps_execSvcShortPress (.refl s)
  | .svcHold => keeps_execSvcHold (.refl s)
  | .handlePadTouch began => keeps_execHandlePadTouch (.refl s) began
  | .leverOpen => keeps_execLeverOpen (.refl s)
  | .leverClosed => keeps_execLeverClosed (.refl s)
  | .handlingSample mg => keeps_execHandlingSample (.refl s) mg
  | .liveInsertion => keeps_execLiveInsertion (.refl s)
  | .flashSettingsProgram => keeps_execFlashSettingsProgram (.refl s)
  | .opticMonitorRead p temp supply lanes reading => keeps_execOpticMonitorRead (.refl s) p temp supply lanes reading
  | .pauseIgnoreExpiry l k => keeps_execPauseIgnoreExpiry (.refl s) l k
  | .ledTestExpiry => keeps_execLedTestExpiry (.refl s)
  | .mergeDirectoryCleared p t die => keeps_execMergeDirectoryCleared (.refl s) p t die
  | .svcPowerUpRelease => keeps_execSvcPowerUpRelease (.refl s)
  | .managementPortLinkUp => keeps_execManagementPortLinkUp (.refl s)
  | .managementPortLinkDown => keeps_execManagementPortLinkDown (.refl s)

/-- The invariant does not speak of the queue. -/
theorem inv_withPending {s : State} (h : Inv s) (l : List Instr) : Inv (s.withPending l) :=
  ⟨h.mem, h.log, h.ctr⟩

/-- A step is a tick when nothing waits, and else the front command on the state with the queue's rest. -/
theorem step_cases {s u : State} (h : step s = .next u) :
    (s.pending = [] ∧ u = tick s) ∨ ∃ c rest, s.pending = c :: rest ∧ exec c (s.withPending rest) = .next u := by
  cases hq : s.pending with
  | nil =>
    simp only [step, hq, Host.Outcome.next.injEq] at h
    exact .inl ⟨rfl, h.symm⟩
  | cons c rest =>
    simp only [step, hq] at h
    exact .inr ⟨c, rest, rfl, h⟩

/-- Settles O57: a tick and every command keep the invariant, and taking a command off the queue leaves it alone. -/
theorem everyStepKeepsTheInvariant : Obligations.EveryStepKeepsTheInvariant := by
  intro s u hs h
  obtain ⟨-, rfl⟩ | ⟨c, rest, -, hc⟩ := step_cases h
  · exact (keeps_tick (.refl s)).inv hs
  · exact ((keeps_exec c (s.withPending rest)).next u hc).inv (inv_withPending hs rest)

end Sys2Proof.Machine
end

/-! Dense products on the matrix arrays (03 R57 to R72). An MMA or MMA.T that starts on an idle tile runs its
Matrix part at once; a dense product without a fault is the end of an accumulation, and its feeders expose no fill. -/

namespace Sys2Proof.Machine

/-- The words of a dense product: class MMA or MMA.T, form 0 (R57, R63, R311). -/
structure DenseWord (w : BitVec 128) : Prop where
  cls : wClass w = 0x08 ∨ wClass w = 0x09
  form : wForm w = 0

namespace DenseWord

variable {w : BitVec 128} (h : DenseWord w)
include h

theorem isAccum : isAccum w = true := by
  obtain ⟨hc | hc, -⟩ := h <;> simp [Machine.isAccum, hc]

theorem isSparse : isSparse w = false := by simp [Machine.isSparse, h.form]

theorem class_ne_bwd2 : (wClass w == 0x0A) = false := by
  obtain ⟨hc | hc, -⟩ := h <;> simp [hc]

/-- Only BWD2 and sparse products load a panel or half (R94, R316). -/
theorem loadsPanel : loadsPanel w = false := by simp [Machine.loadsPanel, h.class_ne_bwd2, h.isSparse]

/-- A frozen group skips DW and the DRAIN after it alone (R109). -/
theorem isSkipped (q : Part) (c : StreamCtl) : isSkipped q c w = false := by
  obtain ⟨hc | hc, -⟩ := h <;> simp [Machine.isSkipped, hc]

end DenseWord

/-- The feeders' use by a product other than BWD2's counts no exposed fill (R98, R111). -/
theorem useFeeders_dense (s : State) (t : Nat) (q : QInstr) :
    useFeeders s t q (denseFeeders q) = putTile s t { getTile s t with lastAcc := some (denseFeeders q) } := rfl

/-- A dense product that breaks no rule and finds its tile at Matrix makes its accumulation (R57, R76). -/
theorem runDense_set {s so : State} {p t d : Nat} {q : QInstr} {acc : AccSet} (hf : denseFault s p d q = none)
    (hb : denseBegun s t d q = .set acc) :
    runDense s so p t d q = finishAccum s t q (denseFeeders q)
      { acc with stepped := acc.stepped || isSteppedDown s p q (fmtA d) (fmtB d)
                 pairs := densePairs so p t d q (fmtA d) (fmtB d) acc.pairs }
      (bits d 27 20 * bits d 35 28 * bits d 95 64) (ceilDiv (bits d 95 64) (pairKpc (fmtA d) (fmtB d))) := by
  unfold runDense
  rw [hf, hb]
  rfl

/-- The Matrix part of a dense product's instruction. -/
theorem runAccum_dense {q : QInstr} (hw : DenseWord q.w) (s so : State) (p t d : Nat) :
    runAccum s so p t d q = runDense s so p t d q := by
  simp [runAccum, hw.isSparse, hw.class_ne_bwd2]

/-- A dense product's word on an idle tile: its pairs are folded as it starts; then it waits for the hand-over or is
complete (R57, R59, R61, R76). -/
theorem tileInstr_dense {s : State} {p t : Nat} {x : Stream} {w : BitVec 128} {acc : AccSet} (hS : Startable s p t x w)
    (hw : DenseWord w) :
    let s1 := startState s p t x w
    let q := nextInstr s p t x w
    let d := ownDesc s1 t (wDesc w)
    let macs := bits d 27 20 * bits d 35 28 * bits d 95 64
    denseFault s1 p d q = none → denseBegun s1 t d q = .set acc →
    let a := { acc with stepped := acc.stepped || isSteppedDown s1 p q (fmtA d) (fmtB d)
                        pairs := densePairs s1 p t d q (fmtA d) (fmtB d) acc.pairs }
    let s2 := useFeeders s1 t q (denseFeeders q)
    let s3 := tileCtr (putTile s2 t { getTile s2 t with active := a }) t 0x09
      (ceilDiv (bits d 95 64) (pairKpc (fmtA d) (fmtB d)))
    tileInstr s t x w = if wEot w then underWay s3 s p t x w (.handOver macs) 0
      else completed (tileCtr s3 t 0x21 macs) s p t x w := by
  intro s1 q d macs hf hb
  have hrun := (runAccum_dense (q := q) hw s1 s1 p t d).trans (runDense_set hf hb)
  exact finish_exec hS (startAccum_clear hS hw.isAccum (hw.isSkipped _ _) hw.loadsPanel hrun)

/-- MMA and MMA.T run their word. -/
theorem exec_dense {cls : Nat} (hc : cls = 0x08 ∨ cls = 0x09) (t : Fin 64) (x : Stream) (w : BitVec 122) (s : State) :
    exec (if cls = 0x08 then .mma t x w else .mmaT t x w) s = .next (tileInstr s t x (classWord cls w)) := by
  obtain rfl | rfl := hc <;> rfl

/-- Settles O2: the start of the word is the Matrix part of a dense product, whose feeders count no fill. -/
theorem denseProductsAccumulate : Obligations.DenseProductsAccumulate := by
  intro s p t x w cls acc hc wd s1 q d m n k fa fb hS hform hf hb a' s2 s3
  have hw : DenseWord wd := ⟨by rwa [wClass_classWord cls w (by omega)], hform⟩
  rw [exec_dense hc, tileInstr_dense hS hw hf hb, useFeeders_dense]

end Sys2Proof.Machine

/-! The shadow set: the hand-over that fills it and the DRAIN that empties it (04 R75 to R82). A DRAIN that starts on an
idle tile runs its drain at once or waits for its side operand; once that is loaded, it is the only instruction that
Matrix can go on with. -/

namespace Sys2Proof.Machine

/-! ## A completing instruction leaves the accumulator sets alone (R39, R309) -/

@[simp] theorem putCtl_shadow (v : Tile) (x : Stream) (c : StreamCtl) : (putCtl v x c).shadow = v.shadow := by
  cases x <;> rfl

theorem placeTokens_sets (v : Tile) (x : Stream) (mask : Nat) (e : Engine) :
    (placeTokens v x mask e).1.active = v.active ∧ (placeTokens v x mask e).1.shadow = v.shadow := by
  unfold placeTokens
  refine List.foldlRecOn (motive := fun r : Tile × Nat => r.1.active = v.active ∧ r.1.shadow = v.shadow)
    _ _ ⟨rfl, rfl⟩ ?_
  intro r hr b _
  split
  · dsimp only
    split <;> exact hr
  · exact hr

theorem settleHalt_sets (v : Tile) : (settleHalt v).active = v.active ∧ (settleHalt v).shadow = v.shadow := by
  unfold settleHalt
  refine List.foldlRecOn (motive := fun u : Tile => u.active = v.active ∧ u.shadow = v.shadow) _ _ ⟨rfl, rfl⟩ ?_
  intro u hu x _
  dsimp only
  split
  · simpa using hu
  · exact hu

theorem completeInstr_sets (v : Tile) (q : QInstr) :
    (completeInstr v q).active = v.active ∧ (completeInstr v q).shadow = v.shadow := by
  have hp := placeTokens_sets v q.x (wPost q.w) (lastEng q.w)
  have hs := settleHalt_sets (placeTokens v q.x (wPost q.w) (lastEng q.w)).1
  unfold completeInstr
  dsimp only
  split
  · exact ⟨hs.1.trans hp.1, hs.2.trans hp.2⟩
  · exact hp

/-! ## The hand-over (R76, R61) -/

/-- The counters as the hand-over leaves them: a stepped-down tile (R131) and the ending instruction's products (R61). -/
def handOverCounted (s : State) (t : Nat) (i : Inflight) : State :=
  let s := if (getTile s t).active.stepped then tileCtr s t 0x2A 1 else s
  match i.why with | .handOver macs => tileCtr s t 0x21 macs | _ => s

/-- The tile as the hand-over leaves it, before the ending instruction completes. -/
def handedOver (v : Tile) : Tile :=
  { v with shadow := { v.active with state := .ended }, active := AccSet.reset
           inflight := v.inflight.filter (fun j => !isHandOver j) }

/-- With an EMPTY shadow set on a tile that is not stopped, the hand-over takes place. -/
theorem handOver_eq {s : State} {t : Nat} {i : Inflight} (hi : (getTile s t).inflight.find? isHandOver = some i)
    (he : (getTile s t).shadow.state = .empty) (hg : (getTile s t).stopped = false) :
    handOver s t = takeSettings
      (putTile (handOverCounted s t i) t (completeInstr (handedOver (getTile s t)) i.q)) (1 + t) [0x3110] := by
  unfold handOver
  dsimp only
  rw [hi]
  dsimp only
  rw [if_pos (by simp [he, hg])]
  rfl

theorem not_stopped_of_tileGoes {s : State} {t : Nat} (h : tileGoes s t = true) : (getTile s t).stopped = false := by
  unfold tileGoes at h
  split at h <;> simp_all

theorem getTile_takeSettings (s : State) (k : Nat) (l : List Nat) (t : Nat) :
    getTile (takeSettings s k l) t = getTile s t := rfl

theorem getCtr_handOverCounted {s : State} {t macs : Nat} {i : Inflight} (hw : i.why = .handOver macs) :
    getCtr (handOverCounted s t i) (0x4100 + t) 0x21 = min (getCtr s (0x4100 + t) 0x21 + macs) (2 ^ 64 - 1) := by
  unfold handOverCounted
  rw [hw]
  dsimp only [tileCtr]
  rw [getCtr_addCtr]
  split
  · rw [addCtr, getCtr_setCtr_ne _ _ (by simp [objKey])]
  · rfl

/-- R76, R61: what the hand-over leaves in the tile's sets and in matrix.macs. -/
theorem exec_handOver {s : State} {t : Fin 64} {i : Inflight} (hg : tileGoes s t = true)
    (hi : (getTile s t).inflight.find? isHandOver = some i) (he : (getTile s t).shadow.state = .empty) :
    ∃ u, exec (.handOver t) s = .next u ∧
      (getTile u t).shadow = { (getTile s t).active with state := .ended } ∧ (getTile u t).active = AccSet.reset ∧
      ∀ macs, i.why = .handOver macs →
        getCtr u (0x4100 + t) 0x21 = min (getCtr s (0x4100 + t) 0x21 + macs) (2 ^ 64 - 1) := by
  obtain ⟨ha, hs⟩ := completeInstr_sets (handedOver (getTile s t)) i.q
  have hx : exec (.handOver t) s = .next (handOver s t) := by
    show execHandOver t s = _
    rw [execHandOver, if_pos hg]
  refine ⟨handOver s t, hx, ?_⟩
  rw [handOver_eq hi he (not_stopped_of_tileGoes hg), getTile_takeSettings, getTile_putTile]
  exact ⟨hs, ha, fun macs hw => getCtr_handOverCounted hw⟩

/-! ## The start of a DRAIN (R77, R79, R82) -/

/-- The shadow set holds an ENDED tile of the stream, and Matrix no other stream's output tile: a DRAIN of the stream may
drain (R35, R77). -/
structure DrainReady (v : Tile) (x : Stream) : Prop where
  ended : v.shadow.state = .ended
  owner : v.shadow.owner = x
  free : v.active.state = .accumulating → v.active.owner = x

/-- A DRAIN's drain on a tile whose queues are empty runs to its end (R79, R81). -/
theorem runDrain_done {s : State} {p t d : Nat} {q : QInstr} {side : Map (BitVec 32)}
    (hw : (getTile s t).waiting = []) (hi : (getTile s t).inflight = []) (hr : DrainReady (getTile s t) q.x) :
    runDrain s p t q d side =
      .done (drainTile s p t (drainPlan s p d (getTile s t).shadow.n) (drainElems (getTile s t).shadow) side) := by
  have hstore : partClear (getTile s t) q .store = true := by simp [partClear, hw, hi]
  have hfree : ¬ ((getTile s t).active.state = .accumulating && (getTile s t).active.owner ≠ q.x) = true := by
    simpa using hr.free
  unfold runDrain
  dsimp only
  rw [if_neg hfree, if_pos (by simp [hr.ended, hr.owner]), if_pos hstore]

theorem drainSet_ready {v : Tile} {x : Stream} (h : DrainReady v x) : drainSet v x = some v.shadow := by
  simp [drainSet, h.ended, h.owner]

/-- The start of a DRAIN that breaks no rule on a tile whose queues are empty: the whole drain, or the load of its side
operand (R79, R82). -/
theorem startDrain_ready {s : State} {p t : Nat} {q : QInstr} (hk : q.skip = false)
    (hw : (getTile s t).waiting = []) (hi : (getTile s t).inflight = []) (hr : DrainReady (getTile s t) q.x) :
    let a := (getTile s t).shadow
    let d := ownDesc s t (wDesc q.w)
    drainOk (drainPlan s p d a.n) a (drainElems a) = true →
    startDrain s p t q = if bits d 25 24 = 0 then .done (drainTile s p t (drainPlan s p d a.n) (drainElems a) [])
      else .going s .side d := by
  intro a d hok
  have hstart : startDrain s p t q =
      ownStarted t q.w (if bits d 25 24 = 0 then runDrain s p t q d [] else .going s .side d) := by
    simp [startDrain, hk, drainSet_ready hr, hok, hi, a, d]
  rw [hstart, runDrain_done hw hi hr]
  split <;> rfl

theorem startClass_drain (s : State) (p t : Nat) {q : QInstr} (h : wClass q.w = 0x0B) :
    startClass s p t q = startDrain s p t q := by
  simp only [startClass, h]

theorem drainTile_shadow (s : State) (p t : Nat) (pl : DrainPlan) (els : List DrainEl) (side : Map (BitVec 32)) :
    (getTile (drainTile s p t pl els side) t).shadow = AccSet.reset := by
  simp [drainTile]

/-! ## An engine with one ready stream (R34) -/

/-- The ready streams where one alone can start; it may stand in the stream order more than once. -/
theorem readyStarts_sole {s u : State} {p t : Nat} {e : Engine} {x : Stream} (ho : x ∈ streamOrder s t)
    (hx : startOf s p t e x = some u) (hn : ∀ y, y ≠ x → startOf s p t e y = none) :
    ∃ n, readyStarts s p t e = List.replicate (n + 1) (x, u) := by
  have hall : ∀ r ∈ readyStarts s p t e, r = (x, u) := by
    intro r hr
    obtain ⟨y, -, hy⟩ := List.mem_filterMap.mp hr
    by_cases hyx : y = x
    · subst hyx
      simpa [hx, eq_comm] using hy
    · simp [hn y hyx] at hy
  have hin : (x, u) ∈ readyStarts s p t e := List.mem_filterMap.mpr ⟨x, ho, by simp [hx]⟩
  obtain ⟨n, hlen⟩ := Nat.exists_eq_succ_of_ne_zero (List.length_pos_of_mem hin).ne'
  exact ⟨n, List.eq_replicate_iff.mpr ⟨hlen, hall⟩⟩

/-- An engine whose only ready stream was not passed over too often starts it, and counts no starvation. -/
theorem arbitrate_sole {s u : State} {p t : Nat} {e : Engine} {x : Stream} (hg : tileGoes s t = true)
    (hp : partOfTile s t = some p) (ho : x ∈ streamOrder s t)
    (hs : mget 0 (getTile s t).starve (starveKey e x) < settingAt s (1 + t) 0x3110 2)
    (hx : startOf s p t e x = some u) (hn : ∀ y, y ≠ x → startOf s p t e y = none) :
    arbitrate s t e = putTile u t (starveAfter (getTile u t) e [x] x) := by
  obtain ⟨n, hr⟩ := readyStarts_sole ho hx hn
  have hfind : (List.replicate (n + 1) (x, u)).find? (fun r =>
      decide (settingAt s (1 + t) 0x3110 2 ≤ mget 0 (getTile s t).starve (starveKey e r.1))) = none := by
    rw [List.find?_eq_none]
    intro r hm
    rw [List.eq_of_mem_replicate hm]
    simpa using hs
  have hc : ∀ y, ((List.replicate (n + 1) (x, u)).map Prod.fst).contains y = [x].contains y := by
    intro y
    simp
  unfold arbitrate
  simp only [hg, hp, Bool.not_true, Bool.false_eq_true, if_false, Option.getD_some, hr, hfind]
  simp only [starveAfter, hc]
  rfl

/-! ## The side operand is loaded (R82) -/

/-- A tile written with its stop as before goes on as before. -/
theorem tileGoes_putTile {s : State} {t : Nat} {v : Tile} (h : v.stopped = (getTile s t).stopped) :
    tileGoes (putTile s t v) t = tileGoes s t := by
  show (tileUp s t && _) = (tileUp s t && _)
  rw [getTile_putTile, h]
  rfl

/-- Where no line waits or is bad and every domain is up, work that reads runs of bytes is done at once. -/
theorem onceRead_calm {s : State} (h : calm s = true) (l : List (Nat × Nat)) (f : State → State) :
    onceRead s l f = f s := by
  obtain ⟨hm, hd⟩ : memClean s = true ∧ domsUp s = true := by simpa [calm] using h
  simp [onceRead, wakeRuns, meetRuns, hm, hd]

/-- A started DRAIN of the shadow set with its side operand in the side buffer. -/
def withSide (s : State) (t : Nat) (i : Inflight) : Inflight :=
  { i with why := .matrix, side := readSide s t i.desc (drainElems (getTile s t).shadow) }

/-- A DRAIN alone on its tile has its side operand: no earlier DRAIN has lines of it to write. -/
theorem sideLoaded_sole {s : State} {t : Nat} {i : Inflight} (hi : (getTile s t).inflight = [i]) (hw : i.why = .side)
    (hr : DrainReady (getTile s t) i.q.x) :
    sideLoaded s t i.q.x i.q.seq = putTile s t { getTile s t with inflight := [withSide s t i] } := by
  have hb : sideBlocked (getTile s t) i (drainElems (getTile s t).shadow) = false := by
    simp [sideBlocked, hi]
  simp [sideLoaded, hi, hw, drainSet_ready hr, hb, withSide]

section SoleDrain

variable {s : State} {p t : Nat} {j : Inflight} (hi : (getTile s t).inflight = [j])
  (hwait : (getTile s t).waiting = []) (hw : j.why = .matrix) (hc : wClass j.q.w = 0x0B)
include hi hwait

/-- A stream without an instruction on the tile starts nothing. -/
theorem startOf_other (e : Engine) {y : Stream} (hy : y ≠ j.q.x) : startOf s p t e y = none := by
  simp [startOf, headAt, hi, hwait, Ne.symm hy]

include hw hc

/-- Matrix can go on with a DRAIN that is alone on its tile and whose side operand is loaded. -/
theorem secondReady_drain : secondReady (getTile s t) j .matrix = true := by
  have hu : usesEng j.q.w .matrix = true := by simp [usesEng, enginesOf, hc]
  have hp : partClear (getTile s t) j.q .matrix = true := by
    simp [partClear, hi, hwait, seqBefore, holdsAll, hw]
  simp [secondReady, hw, hu, hp, isAccum, hc]

/-- The DRAIN goes on with its drain, and completes. -/
theorem startOf_drain (hr : DrainReady (getTile s t) j.q.x) :
    let s1 := putTile s t { getTile s t with inflight := [] }
    let u := drainTile s1 p t (drainPlan s1 p j.desc (getTile s t).shadow.n) (drainElems (getTile s t).shadow) j.side
    startOf s p t .matrix j.q.x = some (finishInstr u t (getTile u t) j.q) := by
  intro s1 u
  have ht : getTile s1 t = { getTile s t with inflight := [] } := getTile_putTile _ _ _
  have hrun := runDrain_done (s := s1) (p := p) (t := t) (d := j.desc) (q := j.q) (side := j.side)
  rw [ht] at hrun
  have hres : resumeClass s1 p t j = .done u := by
    simp [resumeClass, hw, hc, hrun hwait rfl ⟨hr.ended, hr.owner, hr.free⟩, ownStarted, u]
  have hgo : goOn s p t j = afterStart s1 t j.q (resumeClass s1 p t j) := by
    simp [goOn, hi, s1]
  have hf : (getTile s t).inflight.find? (fun i => i.q.x == j.q.x && secondReady (getTile s t) i .matrix) = some j := by
    simp [hi, secondReady_drain hi hwait hw hc]
  simp only [startOf, hf, hgo, hres]
  rfl

/-- Matrix's one choice is the DRAIN. -/
theorem arbitrate_drain (hp : partOfTile s t = some p) (hg : tileGoes s t = true) (hord : j.q.x ∈ streamOrder s t)
    (hs : mget 0 (getTile s t).starve (starveKey .matrix j.q.x) < settingAt s (1 + t) 0x3110 2)
    (hr : DrainReady (getTile s t) j.q.x) :
    let s1 := putTile s t { getTile s t with inflight := [] }
    let u := drainTile s1 p t (drainPlan s1 p j.desc (getTile s t).shadow.n) (drainElems (getTile s t).shadow) j.side
    arbitrate s t .matrix = chosen (finishInstr u t (getTile u t) j.q) t j.q.x j.q.w := by
  intro s1 u
  have hm : firstEng j.q.w = .matrix := by simp [firstEng, enginesOf, hc]
  rw [chosen, hm]
  exact arbitrate_sole hg hp hord hs (startOf_drain hi hwait hw hc hr) (fun y hy => startOf_other hi hwait .matrix hy)

end SoleDrain

/-! ## The commands of the shadow set (R76, R79, R82) -/

/-- A DRAIN's word on an idle tile with an ENDED set of its stream: with no side operand the DRAIN runs to its end, else
it waits for the side buffer. -/
theorem tileInstr_drain {s : State} {p t : Nat} {x : Stream} {w : BitVec 128} (hS : Startable s p t x w)
    (hc : wClass w = 0x0B) (hk : (nextInstr s p t x w).skip = false) :
    let s1 := startState s p t x w
    let a := (getTile s1 t).shadow
    let d := ownDesc s1 t (wDesc w)
    let u := drainTile s1 p t (drainPlan s1 p d a.n) (drainElems a) []
    DrainReady (getTile s1 t) x → drainOk (drainPlan s1 p d a.n) a (drainElems a) = true →
    tileInstr s t x w = if bits d 25 24 = 0 then completed u s p t x w else underWay s1 s p t x w .side d := by
  intro s1 a d u hr hok
  obtain ⟨hw, hi, -⟩ := startState_tile hS
  have hstart : startClass s1 p t (nextInstr s p t x w) = if bits d 25 24 = 0 then .done u else .going s1 .side d :=
    (startClass_drain s1 p t (q := nextInstr s p t x w) hc).trans (startDrain_ready hk hw hi hr hok)
  split
  · next hs => exact tileInstr_done hS (hstart.trans (if_pos hs))
  · next hs => exact tileInstr_going hS (hstart.trans (if_neg hs))

/-- Where no line waits, SIDE_OPERAND_LOADED is the load and then Matrix's choice. -/
theorem exec_sideOperandLoaded {s : State} (h : calm s = true) (t : Fin 64) (x : Stream) (seq : BitVec 32) :
    exec (.sideOperandLoaded t x seq) s = .next (arbitrate (sideLoaded s t x seq.toNat) t .matrix) := by
  show execSideOperandLoaded t x seq s = _
  rw [execSideOperandLoaded, onceRead_calm h]

/-- Settles O4: a DRAIN's start, the hand-over and the end of a side operand's load. -/
theorem handOverAndDrainMoveTheShadowSet : Obligations.HandOverAndDrainMoveTheShadowSet := by
  refine ⟨?drain, ?handOver, ?sideLoaded⟩
  case drain =>
    intro s p t x w wd s1 a d u hS hk he ho ha hok
    have hc : wClass wd = 0x0B := wClass_classWord 0x0B w (by omega)
    have hx : exec (.drain t x w) s = .next (tileInstr s t x wd) := rfl
    rw [hx, tileInstr_drain hS hc hk ⟨he, ho, ha⟩ hok]
    exact ⟨fun h => ⟨by rw [if_pos h], drainTile_shadow _ _ _ _ _ _⟩, fun h => by rw [if_neg h]⟩
  case handOver =>
    intro s t i v hg hi he
    exact exec_handOver hg hi he
  case sideLoaded =>
    intro s p t seq i v x hp hg hi hw hq hc he ho hwait ha hcalm hord hs s1 side u
    have hload := sideLoaded_sole hi hw ⟨he, ho, ha⟩
    rw [hq] at hload
    have ht : getTile (sideLoaded s t x seq.toNat) t = { v with inflight := [withSide s t i] } := by
      rw [hload, getTile_putTile]
    have hgo : tileGoes (sideLoaded s t x seq.toNat) t = true := by
      rw [hload, tileGoes_putTile (by rfl), hg]
    have hchoice := arbitrate_drain (s := sideLoaded s t x seq.toNat) (p := p) (t := t) (j := withSide s t i)
    rw [ht] at hchoice
    rw [exec_sideOperandLoaded hcalm, hchoice rfl hwait rfl hc ?_ hgo ?_ ?_ ⟨he, ho, ha⟩]
    · rfl
    all_goals rw [hload]
    · exact hp
    · exact hord
    · exact hs

end Sys2Proof.Machine

/-! Dense BWD2 against its gradient panel, and the end of a panel or half load (05 R92 to R98, 10 R218). A BWD2 that loads
nothing and starts on an idle tile runs its Matrix part at once, as a dense product does; what differs is that its buffer
must not be loading. -/

namespace Sys2Proof.Machine

/-! ## The Matrix part of a dense BWD2 (R92, R94, R96, R98) -/

/-- A word of form 0 names no sparse product (R311, R315). -/
theorem isSparse_of_form {w : BitVec 128} (h : wForm w = 0) : isSparse w = false := by simp [isSparse, h]

/-- A dense BWD2 whose buffer is not loading, that breaks no rule and finds its tile at Matrix, makes its accumulation. -/
theorem runBwd2_set {s so : State} {p t d : Nat} {q : QInstr} {acc : AccSet} :
    let b := panelOf (getTile s t) q.w (panelNo q.w)
    let k := if isDw q.w then b.rows else b.cols
    b.loading = false → bwd2Fault s p d q b = none → bwd2Begun s t d q = .set acc →
    runBwd2 s so p t d q = finishAccum s t q (bwd2Feeders q)
      { acc with pairs := bwd2Pairs so p t d q b ((bwd2Fmt d q.w).getD .bf16) acc.pairs }
      (bits d 27 20 * bits d 35 28 * k) k := by
  intro b k hl hf hb
  unfold runBwd2
  dsimp only
  rw [hl, hf, hb]
  rfl

/-- The Matrix part of a dense BWD2's instruction. -/
theorem runAccum_bwd2 {q : QInstr} (hc : wClass q.w = 0x0A) (hform : wForm q.w = 0) (s so : State) (p t d : Nat) :
    runAccum s so p t d q = runBwd2 s so p t d q := by
  simp [runAccum, isSparse_of_form hform, hc]

/-- A dense BWD2's word on an idle tile, its buffer full: its pairs are folded as it starts; then it waits for the hand-over
or is complete (R59, R61, R76, R92). -/
theorem tileInstr_bwd2 {s : State} {p t : Nat} {x : Stream} {w : BitVec 128} {acc : AccSet} (hS : Startable s p t x w)
    (hc : wClass w = 0x0A) (hform : wForm w = 0) (hload : loadsPanel w = false) (hk : (nextInstr s p t x w).skip = false) :
    let s1 := startState s p t x w
    let q := nextInstr s p t x w
    let d := ownDesc s1 t (wDesc w)
    let b := panelOf (getTile s1 t) w (panelNo w)
    let k := if isDw w then b.rows else b.cols
    let macs := bits d 27 20 * bits d 35 28 * k
    b.loading = false → bwd2Fault s1 p d q b = none → bwd2Begun s1 t d q = .set acc →
    let a := { acc with pairs := bwd2Pairs s1 p t d q b ((bwd2Fmt d w).getD .bf16) acc.pairs }
    let s2 := useFeeders s1 t q (bwd2Feeders q)
    let s3 := tileCtr (putTile s2 t { getTile s2 t with active := a }) t 0x09 k
    tileInstr s t x w = if wEot w then underWay s3 s p t x w (.handOver macs) 0
      else completed (tileCtr s3 t 0x21 macs) s p t x w := by
  intro s1 q d b k macs hl hf hb
  have ha : isAccum w = true := by simp [isAccum, hc]
  have hrun := (runAccum_bwd2 (q := q) hc hform s1 s1 p t d).trans (runBwd2_set hl hf hb)
  exact finish_exec hS (startAccum_clear hS ha hk hload hrun)

/-! ## The end of a panel or half load (R94, R218, R312) -/

/-- A buffer or half reads as it was written. -/
@[simp] theorem panelOf_putPanel (v : Tile) (w : BitVec 128) (n : Nat) (b : Panel) :
    panelOf (putPanel v w n b) w n = b := by
  unfold panelOf putPanel
  split <;> exact mget_mset_same _ _ _ _

/-- The state once the panel that a started instruction loads stands in its buffer: the instruction awaits Matrix, and a
load of the BWD class is counted (R111). -/
def panelEnded (s : State) (t : Nat) (i : Inflight) : State :=
  let v := getTile s t
  let goesOn := { v with inflight := v.inflight.map (fun j => if j == i then { j with why := .matrix } else j) }
  putTile (if wClass i.q.w = 0x0A then tileCtr s t 0x25 1 else s) t
    (putPanel goesOn i.q.w (panelNo i.q.w) (readPanel s t i.desc ((operandFmt (bits i.desc 419 416)).getD .bf16)))

theorem panelOf_panelEnded (s : State) (t : Nat) (i : Inflight) :
    panelOf (getTile (panelEnded s t i) t) i.q.w (panelNo i.q.w) =
      readPanel s t i.desc ((operandFmt (bits i.desc 419 416)).getD .bf16) := by
  simp [panelEnded]

theorem panelEnded_mem (s : State) (t : Nat) (i : Inflight) : (panelEnded s t i).mem = s.mem := by
  unfold panelEnded
  dsimp only
  split <;> rfl

/-- Where no line waits, PANEL_LOAD_COMPLETE fills the buffer of the awaited load, and Matrix makes a choice. -/
theorem exec_panelLoadComplete {s : State} (h : calm s = true) {t : Fin 64} {x : Stream} {seq : BitVec 32} {i : Inflight}
    (hi : (getTile s t).inflight.find? (fun i => i.q.x == x && i.q.seq == seq.toNat && i.why == .panel) = some i) :
    exec (.panelLoadComplete t x seq) s = .next (arbitrate (panelEnded s t i) t .matrix) := by
  show execPanelLoadComplete t x seq s = _
  unfold execPanelLoadComplete panelLoaded
  dsimp only
  rw [hi]
  dsimp only
  rw [onceRead_calm h]
  rfl

/-- Settles O3: the start of the word is the Matrix part of a dense BWD2; the end of a load writes the named buffer. -/
theorem bwd2AccumulatesAgainstItsPanel : Obligations.Bwd2AccumulatesAgainstItsPanel := by
  refine ⟨?product, ?load⟩
  case product =>
    intro s p t x w acc wd s1 q d m n b hS hform hload hk _ hl hf hb k a' s2 s3
    have hc : wClass wd = 0x0A := wClass_classWord 0x0A w (by omega)
    have hx : exec (.bwd2 t x w) s = .next (tileInstr s t x wd) := rfl
    rw [hx, tileInstr_bwd2 hS hc hform hload hk hl hf hb]
  case load =>
    intro s t x seq i v hi hcalm
    exact ⟨panelEnded s t i, exec_panelLoadComplete hcalm hi, panelOf_panelEnded s t i, panelEnded_mem s t i⟩

end Sys2Proof.Machine

/-! The two passes of the parameter update (07 R142 to R156). Where no line waits or is bad and every domain is up, what an
Update engine does once its structures are read it does at once, and what it writes is visible at once. -/

namespace Sys2Proof.Machine

/-! ## Reads and writes of a calm memory (R249, R251, R253) -/

/-- Where no line waits or is bad and every domain is up, work that reads levels of runs of bytes is done at once. -/
theorem onceLevels_calm {s : State} (h : calm s = true) (l : List (List (Nat × Nat))) (f : State → State) :
    onceLevels s l f = f s := by
  obtain ⟨hm, hd⟩ : memClean s = true ∧ domsUp s = true := by simpa [calm] using h
  simp [onceLevels, wakeRuns, hm, hd]

/-- What waits for a partition's writes goes on where they are visible. -/
theorem onceSettled_settled {s : State} {p : Nat} (h : settled s p = true) (f : State → State) :
    onceSettled s p f = f s := if_pos h

/-- A write to calm memory reaches its bytes at once. -/
theorem writeNat_calm {s : State} (h : calm s = true) (a n v : Nat) : writeNat s a n v = pokeMemory s a (toBytes n v) := by
  obtain ⟨⟨⟨hq, -⟩, -⟩, hd⟩ : ((memQuiet s = true ∧ _) ∧ _) ∧ domsUp s = true := by
    simpa only [calm, memClean, Bool.and_eq_true] using h
  simp only [writeNat, writeBytes, wakeRun, hd, hq, if_true]

/-- A write to calm memory parks nothing: a partition's writes are as visible after it as before. -/
theorem settled_writeNat {s : State} (h : calm s = true) (p a n v : Nat) :
    settled (writeNat s a n v) p = settled s p := by
  rw [writeNat_calm h]
  rfl

/-! ## Pass 1 of a slice (R147, R148, R149) -/

/-- A head whose step records agree runs pass 1 on its next slice, unless its group is of vector code (R158). -/
theorem pass1Head_slice {s : State} {d g : Nat} {c : UpdCmd} {es : List (Nat × Nat)} {e : Nat × Nat}
    (hg : groupDesc s c.group = g) (hes : dieEntries s g d = es)
    (agree : c.next = 0 →
      ∀ e ∈ es, bits (readNat s (recordAddr e.2 c.step) 64) 127 64 = expectedStep s c.part g c.step)
    (path0 : bits g 8 8 = 0) (he : es[c.next]? = some e) :
    pass1Head s d c = pass1Next s c e.1 e.2 (decide (es.length ≤ c.next + 1)) := by
  have hnone : (if c.next = 0 then es.find? (fun e =>
      bits (readNat s (recordAddr e.2 c.step) 64) 127 64 != expectedStep s c.part g c.step) else none) = none := by
    split
    next h0 => simpa using agree h0
    next => rfl
  unfold pass1Head
  dsimp only
  rw [hg, hes, hnone, he]
  simp [path0]

/-- PASS1_SLICE goes on with the head of the queue whose step has come and that no pass 2 of its group precedes. -/
theorem exec_pass1Slice {s : State} {d : Fin 4} {c : UpdCmd} (hq : queueHead s d 1 = some c) (goes : updGoes s c.part = true)
    (come : c.step ≤ (getPart s c.part).step) (clear : pass2Ahead s c = false) (unskipped : c.skip = 0)
    (hcalm : calm s = true) : exec (.pass1Slice d) s = .next (pass1Head s d c) := by
  show execPass1Slice d s = _
  unfold execPass1Slice
  rw [hq]
  simp [goes, come, clear, unskipped, onceLevels_calm hcalm]

/-! ## The end of pass 1 on a die (R149) -/

/-- The groups of an update table with a slice on a die. -/
def groupsOn (s : State) (t : UpdTable) (d : Nat) : List Nat :=
  t.groups.filter (fun ga => (groupDies s (groupDesc s ga)).contains d)

/-- DIE_PASS1_COMPLETE, once every group with a slice on the die has done pass 1: the partial is stamped, and the stamp is
visible as soon as it is written. -/
theorem exec_diePass1Complete {s : State} {p : Fin 16} {d : Fin 4} {t : UpdTable} {step : Nat}
    (ht : updTable s p = some t) (hstep : (getPart s p).step = step) (here : groupsOn s t d ≠ [])
    (unsent : s.upd.p1sent.contains (p.val, d.val, step) = false)
    (done : (groupsOn s t d).all (fun ga => s.upd.p1done.contains (p.val, d.val, step, ga)) = true)
    (hcalm : calm s = true) (hset : settled s p = true) :
    let s1 := writeNat s (partialAddr s p d + 8) 8 step
    exec (.diePass1Complete p d) s =
      .next (sendSignal (putUpd s1 { s1.upd with p1sent := s1.upd.p1sent ++ [(p.val, d.val, step)] })
        { ctr := bits t.header 191 160, isMax := false, operand := 1, unit := updUnit s1 d, stream := 3, part := p
          counted := some step }) := by
  intro s1
  have hset1 : settled s1 p = true := (settled_writeNat hcalm p _ 8 _).trans hset
  unfold groupsOn at here done
  show execDiePass1Complete p d s = _
  unfold execDiePass1Complete
  dsimp only
  rw [ht, hstep]
  dsimp only
  rw [onceLevels_calm hcalm, onceSettled_settled hset, if_neg, onceSettled_settled hset1]
  rw [List.isEmpty_eq_false_iff.mpr here, unsent, done]
  decide

/-! ## The norms of a unit (R149) -/

/-- NORM_COMBINE, once the slot of every die with a slice of the unit shows the step. -/
theorem exec_normCombine {s : State} {p : Fin 16} {gi : Fin 4096} {k : Fin 65536} {t : UpdTable} {ga : Nat}
    (ht : updTable s p = some t) (hga : t.groups[gi.val]? = some ga) :
    let g := groupDesc s ga
    let dies := (unitSlices s g k).map (fun e => ueDie e.2)
    dies ≠ [] →
    (∀ d ∈ dies, readNat s (landAddr (bits g 7 6) (bits g 127 96 + 128 * k) + 32 * d + 24) 8 = (getPart s p).step) →
    calm s = true →
    exec (.normCombine p gi k) s = .next (putUpd s { s.upd with
      norms := (s.upd.norms.filter (fun x => !(x.part == p.val && x.group == ga && x.unit == k.val))) ++
        [{ part := p, group := ga, unit := k, step := (getPart s p).step, g := combineNorm s g k dies 0
           w := combineNorm s g k dies 1, u := combineNorm s g k dies 2 }] }) := by
  intro g dies occupied shown hcalm
  have hall : dies.all (fun d => readNat s (landAddr (bits g 7 6) (bits g 127 96 + 128 * k) + 32 * d + 24) 8 ==
      (getPart s p).step) = true := by simpa using shown
  show execNormCombine p gi k s = _
  unfold execNormCombine
  dsimp only
  rw [ht, Option.bind_some, hga]
  dsimp only
  rw [onceLevels_calm hcalm, if_neg]
  rw [hall]
  simpa [dies] using occupied

/-- Settles O22: a slice of pass 1, the end of pass 1 on a die, and the norms of a unit. -/
theorem pass1RunsSliceBySlice : Obligations.Pass1RunsSliceBySlice := by
  refine ⟨?slice, ?dieEnd, ?norms⟩
  case slice =>
    intro s d c e hq g es goes come clear unskipped hcalm agree path0 he
    rw [exec_pass1Slice hq goes come clear unskipped hcalm, pass1Head_slice rfl rfl agree path0 he]
  case dieEnd =>
    intro s p d t ht step here hne unsent done hcalm hset
    exact exec_diePass1Complete ht rfl hne unsent done hcalm hset
  case norms =>
    intro s p gi k t ga ht hga step g dies a
    exact exec_normCombine ht hga

/-! ## The start of pass 2 (R152) -/

/-- PASS2_START of an armed head whose watch on the global-norm counter was satisfied. -/
theorem exec_pass2Start {s : State} {d : Fin 4} {c : UpdCmd} {x : Waiter × Nat} (hq : queueHead s d 2 = some c)
    (fired : s.sync.fired.find? (fun x => x.1 == .pass2 d.val c.id) = some x) (fresh : c.going = false)
    (armed : c.armed = true) (satisfied : x.2 = 0) (hcalm : calm s = true) :
    exec (.pass2Start d) s =
      .next (beginPass2 (putSync s { s.sync with fired := s.sync.fired.filter (· != x) }) c) := by
  show execPass2Start d s = _
  unfold execPass2Start
  rw [hq]
  dsimp only
  rw [fired]
  simp [fresh, armed, satisfied, onceRead_calm hcalm]

/-! ## Pass 2 of a slice (R139, R152, R156) -/

/-- The state once the block or the rows of a slice are written, its record not yet. -/
def sliceWritten (s : State) (c : UpdCmd) (i u : Nat) (rho : W32) : State :=
  putCmd (if ueEmb u then pass2Rows s c i u rho else pass2Dense s c i u rho) { c with rows := true }

/-- A slice's record follows its block, or rows of which none is held, once they are visible. -/
theorem recordSlice_visible {s : State} {c : UpdCmd} {u : Nat} (hset : settled s c.part = true)
    (free : ueEmb u = true → rowsHeld s c.part u = false) (rho : W32) (fin : State → State) :
    recordSlice s c u rho fin =
      fin (writeRecord s u c.step (bits (readNat s (recordAddr u c.step) 64) 63 32 + 1) 0 rho) := by
  refine if_pos ?_
  cases he : ueEmb u with
  | false => simp [hset]
  | true => simp [hset, free he]

/-- A slice that has not been begun writes its block or rows and, once they are visible, its record. -/
theorem pass2Slice_visible {s : State} {c : UpdCmd} {i u : Nat} {rho : W32} (hcalm : calm s = true) (fresh : c.rows = false)
    (hset : settled (sliceWritten s c i u rho) c.part = true)
    (free : ueEmb u = true → rowsHeld (sliceWritten s c i u rho) c.part u = false) (co : Nat) (fin : State → State) :
    pass2Slice s c co i u rho fin =
      fin (writeRecord (sliceWritten s c i u rho) u c.step
        (bits (readNat (sliceWritten s c i u rho) (recordAddr u c.step) 64) 63 32 + 1) 0 rho) := by
  unfold pass2Slice
  rw [if_neg (by simp [fresh]), onceRead_calm hcalm]
  exact recordSlice_visible hset free rho fin

/-- What a command does after a slice: it is finished after its last, and else goes on with the next. -/
def afterSlice (c : UpdCmd) (n : Nat) (s : State) : State :=
  if n ≤ c.next + 1 then finishPass2 s { c with next := c.next + 1, rows := false }
  else putCmd s { c with next := c.next + 1, rows := false }

/-- A head that updates its slices, the trust ratio of the next one known, goes on with that slice. -/
theorem pass2Head_slice {s : State} {d g : Nat} {c : UpdCmd} {es : List (Nat × Nat)} {e : Nat × Nat} {rho : W32}
    (hg : groupDesc s c.group = g) (hes : dieEntries s g d = es) (he : es[c.next]? = some e) (unskipped : c.skip = 0)
    (path0 : bits g 8 8 = 0) (hrho : rhoOf s c (groupCoef s g) g e.1 e.2 = some rho) :
    pass2Head s d c = pass2Slice s c (groupCoef s g) e.1 e.2 rho (afterSlice c es.length) := by
  unfold pass2Head
  dsimp only
  rw [hg, hes, he]
  dsimp only
  rw [if_neg (by simp [unskipped]), if_neg (by simp [path0]), hrho]
  rfl

/-- PASS2_SLICE_DONE goes on with a started head. -/
theorem exec_pass2SliceDone {s : State} {d : Fin 4} {c : UpdCmd} (hq : queueHead s d 2 = some c) (going : c.going = true)
    (goes : updGoes s c.part = true) (hcalm : calm s = true) :
    exec (.pass2SliceDone d) s = .next (pass2Head s d c) := by
  show execPass2SliceDone d s = _
  unfold execPass2SliceDone
  rw [hq]
  simp [going, goes, onceLevels_calm hcalm]

/-! ## The end of a group's update (R146) -/

/-- GROUP_UPDATE_DONE outside a replay, once every die with a slice of the group has finished pass 2. -/
theorem exec_groupUpdateDone {s : State} {p : Fin 16} {gi : Fin 4096} {t : UpdTable} {ga step d : Nat}
    (ht : updTable s p = some t) (hga : t.groups[gi.val]? = some ga)
    (found : s.upd.p2done.find? (fun x => x.1 == p.val && x.2.2.1 == ga) = some (p.val, step, ga, d))
    (done : ∀ d ∈ groupDies s (groupDesc s ga), s.upd.p2done.contains (p.val, step, ga, d) = true)
    (live : (getPart s p).replay = false) (hset : settled s p = true) :
    let g := groupDesc s ga
    let s1 := putUpd s { s.upd with
      p2done := s.upd.p2done.filter (fun y => !(y.1 == p.val && y.2.1 == step && y.2.2.1 == ga)) }
    exec (.groupUpdateDone p gi) s =
      .next (signalOne (signalOne s1 p (bits g 543 512) (updUnit s1 (bits g 7 6))) p (updHdr s1 p 127 96)
        (updUnit s1 (bits g 7 6))) := by
  intro g s1
  have hlive : (getPart s1 p).replay = false := live
  show execGroupUpdateDone p gi s = _
  unfold execGroupUpdateDone
  dsimp only
  rw [ht, Option.bind_some, hga]
  dsimp only
  rw [found]
  dsimp only
  rw [if_neg (by rw [List.all_eq_true.mpr done, hset]; decide), if_neg (by rw [hlive]; simp)]

/-- Settles O23: the start of pass 2, one of its slices, and the end of a group's update. -/
theorem pass2UpdatesAndSignals : Obligations.Pass2UpdatesAndSignals := by
  refine ⟨?start, ?slice, ?groupEnd⟩
  case start =>
    intro s d c x hq fired fresh armed satisfied hcalm
    exact exec_pass2Start hq fired fresh armed satisfied hcalm
  case slice =>
    intro s d c e rho hq g es going goes he unskipped path0 hrho hcalm fresh c' fin s1 s2 hset free
    rw [exec_pass2SliceDone hq going goes hcalm, pass2Head_slice rfl rfl he unskipped path0 hrho,
      pass2Slice_visible hcalm fresh hset free]
    rfl
  case groupEnd =>
    intro s p gi t ga step d ht hga found g done live hset
    exact exec_groupUpdateDone ht hga found done live hset

end Sys2Proof.Machine

/-! Hound's trails and the planner's mask loads (08 R165 to R176, 10 R211 to R217). A store that rings a doorbell reaches
its unit at once; a hop, a complete trail or a built plan waits only for lines and writes that are not there. -/

namespace Sys2Proof.Machine

/-! ## A store that rings a doorbell (R288) -/

/-- The store of a core that rings acts: the core runs an item of the partition, with a good tag. -/
theorem byCore_rings {s : State} {kind : Nat} {c : Fin 96} {p : Fin 16} (h : Rings s kind c p) (f : State → State) :
    byCore s c p f = f s := by
  simp [byCore, fromCore, h.goes, h.part, h.tag]

/-- A doorbell that rings is acted on at once: no earlier store waits there, and what it names can be read. -/
theorem atDoorbell_rings {s : State} {kind : Nat} {c : Fin 96} {p : Fin 16} (h : Rings s kind c p) (v : Nat)
    (levels : List (List (Nat × Nat))) (f : State → State) : atDoorbell s kind p v levels f = f s := by
  obtain ⟨hm, hd⟩ : memClean s = true ∧ domsUp s = true := by simpa [calm] using h.calm
  simp [atDoorbell, wakeRuns, h.first, hm, hd]

/-! ## Trails (R165 to R175) -/

/-- The trail that an accepted sample descriptor becomes: queued before hop 0, with nothing sampled (R165). -/
def queuedTrail (p : Nat) (d : BitVec 1024) : Trail :=
  { part := p, desc := d, hop := 0, running := false, nodes := [], ends := [], valid := [], table := [], counts := []
    seedTimes := [], insts := [], bad := 0, spills := 0, badRaised := false, fullRaised := false }

/-- HOUND_DOORBELL with a descriptor that no rule refuses. -/
theorem exec_houndDoorbell {s : State} {c : Fin 96} {p : Fin 16} {addr : BitVec 64} {d : BitVec 1024}
    (h : Rings s 0 c p) (hd : BitVec.ofNat 1024 (readNat s addr.toNat 128) = d)
    (accepted : sampleRefusal s p addr.toNat d = none) :
    exec (.houndDoorbell ⟨c, p⟩ addr) s =
      .next (beginTrail (putTrails (wakeMem s p) (s.trails ++ [queuedTrail p d])) p) := by
  show Host.Outcome.next (byCore s c p (houndStore p addr.toNat)) = _
  rw [byCore_rings h, houndStore, atDoorbell_rings h]
  dsimp only
  rw [hd, accepted]
  rfl

/-- HOP_CLOSE of the running trail with a hop left to close: the seeds first, then hop by hop. -/
theorem exec_hopClose {s : State} {p : Fin 16} {t : Trail}
    (ht : s.trails.find? (fun t => t.part == p.val && t.running) = some t) (left : t.hop ≤ sHops t.desc)
    (hcalm : calm s = true) :
    let s1 := if t.hop = 0 then closeSeeds s t else closeHop s t t.hop
    exec (.hopClose p) s = .next (signalOne s1 p (sFld t.desc 575 544) (houndUnit s1 p)) := by
  intro s1
  show execHopClose p s = _
  unfold execHopClose
  rw [ht]
  dsimp only
  rw [if_neg (Nat.not_lt.mpr left), onceLevels_calm hcalm]

/-- TRAIL_COMPLETE after the last hop, once the trail's lines are visible. -/
theorem exec_trailComplete {s : State} {p : Fin 16} {t : Trail}
    (ht : s.trails.find? (fun t => t.part == p.val && t.running) = some t) (past : sHops t.desc < t.hop)
    (hset : settled s p = true) :
    let s1 := writeNat (houndCtr s p 1 1) (trailAddr t) 128 (trailHeader t 1)
    let s2 := signalOne (fillDedup s1 t t.nodes) p (sFld t.desc 607 576) (houndUnit s1 p)
    exec (.trailComplete p) s =
      .next (beginTrail (putTrails s2 (s2.trails.filter (fun u => !(u.part == p.val && u.running)))) p) := by
  intro s1 s2
  show execTrailComplete p s = _
  unfold execTrailComplete
  rw [ht]
  dsimp only
  rw [if_neg (Nat.not_le.mpr past), onceSettled_settled hset]

/-! ## Mask loads (R211 to R213, R216) -/

/-- MASK_LOAD_DOORBELL with a descriptor that no rule refuses. -/
theorem exec_maskLoadDoorbell {s : State} {c : Fin 96} {p : Fin 16} {addr : BitVec 64} {d : BitVec 512}
    (h : Rings s 1 c p) (hd : BitVec.ofNat 512 (readNat s addr.toNat 64) = d)
    (accepted : maskRefusal s p addr.toNat d = none) :
    let s1 := writeNat (putMasks (wakeMem s p) (s.masks ++ [⟨p, d⟩])) (mFld d 319 256) 64
      (planHeader 0 0 0 0 0 0 0 0 0 0 0xFFFFFFFF)
    exec (.maskLoadDoorbell ⟨c, p⟩ addr) s = .next (enqueue s1 (planDie s1 p) p .module true plannerItem).1 := by
  intro s1
  show Host.Outcome.next (byCore s c p (maskStore p addr.toNat)) = _
  rw [byCore_rings h, maskStore, atDoorbell_rings h]
  dsimp only
  rw [hd, accepted]

/-- PLAN_BUILT of the partition's oldest load, its planner running on a core. -/
theorem exec_planBuilt {s : State} {p : Fin 16} {m : MaskLoad} {i : Item}
    (hm : s.masks.find? (fun m => m.part == p.val) = some m) (hi : runningPlanner s p = some i)
    (hcalm : calm s = true) :
    let s1 := buildPlan (putMasks s (s.masks.filter (· != m))) p m.desc
    exec (.planBuilt p) s =
      .next (signalOne (freeCore s1 i.core i) p (mFld m.desc 223 192) (coreUnit s1 i.core)) := by
  intro s1
  show execPlanBuilt p s = _
  unfold execPlanBuilt
  rw [hm, hi]
  dsimp only
  rw [onceRead_calm hcalm]

/-- Settles O19: a sample descriptor's queueing, the hops and the end of its trail; a mask load's start and its plan. -/
theorem trailsAndMaskLoadsRunToTheirEnd : Obligations.TrailsAndMaskLoadsRunToTheirEnd := by
  refine ⟨⟨?queued, ?running⟩, ?load⟩
  case queued =>
    intro s c p addr d h accepted
    exact ⟨queuedTrail p d, rfl, rfl, rfl, rfl, rfl, exec_houndDoorbell h rfl accepted⟩
  case running =>
    intro s p t ht
    exact ⟨exec_hopClose ht, exec_trailComplete ht⟩
  case load =>
    intro s p
    refine ⟨?started, ?built⟩
    case started =>
      intro c addr d h accepted
      exact exec_maskLoadDoorbell h rfl accepted
    case built =>
      intro m i hm hi hcalm
      exact exec_planBuilt hm hi hcalm

end Sys2Proof.Machine

/-! Requests to Retriever and to the Update engines, and what Retriever and the merge units do with them (07 R148, 09 R182
to R206). What a request names was checked as it was accepted; where every line can be read and every domain is up, its
rows, merge-adds, migrations and versions wait for nothing. -/

namespace Sys2Proof.Machine

/-! ## Lines of a calm memory (R249, R251, R253, R420) -/

/-- A key of a map reads as the default or as the value of one of its entries. -/
theorem mget_default_or_mem {α : Type} (d : α) (m : Map α) (k : Nat) : mget d m k = d ∨ ∃ e ∈ m, mget d m k = e.2 := by
  induction m with
  | nil => exact .inl rfl
  | cons e m ih =>
    by_cases hk : e.1 = k
    · exact .inr ⟨e, List.mem_cons_self, by simp [mget, hk]⟩
    · have hm : mget d (e :: m) k = mget d m k := by simp [mget, hk]
      rw [hm]
      exact ih.imp id fun ⟨x, hx, h⟩ => ⟨x, List.mem_cons_of_mem e hx, h⟩

/-- Where every domain is up, none is in NAP or SLEEP or enters one. -/
theorem domDeep_domsUp {s : State} (h : domsUp s = true) (i : Nat) : domDeep s i = false := by
  obtain ⟨⟨⟨hent, -⟩, -⟩, hdom⟩ : ((s.power.entering = [] ∧ _) ∧ _) ∧ ∀ a b, (a, b) ∈ s.power.dom → b = 4 := by
    simpa [domsUp] using h
  have hget : getDom s i = 0 ∨ getDom s i = 4 :=
    (mget_default_or_mem 0 s.power.dom i).imp id fun ⟨e, he, hv⟩ => hv.trans (hdom e.1 e.2 he)
  obtain hg | hg := hget <;> simp [domDeep, hg, hent, mget]

/-- No request to a line of a calm memory waits. -/
theorem lineHeld_calm {s : State} (h : calm s = true) (l : Nat) (write : Bool) : lineHeld s l write = false := by
  obtain ⟨hm, hd⟩ : memClean s = true ∧ domsUp s = true := by simpa [calm] using h
  obtain ⟨hrefill, hseek, hwait, hretrain, hcopy, -⟩ : s.memErr.refilling = [] ∧ s.memErr.seeking = [] ∧
      s.memErr.waiting = [] ∧ s.memErr.retrain = [] ∧ s.memErr.copying = [] ∧ _ := by
    simpa only [memClean, memQuiet, Bool.and_eq_true, List.isEmpty_iff, and_assoc] using hm
  have hdom : (lineDom s l).any (domDeep s) = false := by
    cases lineDom s l with
    | none => rfl
    | some i => exact domDeep_domsUp hd i
  unfold lineHeld
  rw [hdom, hrefill, hseek, hwait, hretrain, hcopy]
  cases placeOf l <;> simp

/-! ## Acceptance of a request (R182, R188, R205) -/

/-- The batch of a request through a table has pinned its tables (R205). -/
def requestPinned (s : State) (p : Nat) (d : BitVec 1024) : State :=
  if rVia d then (rTable d :: subTables (batchDesc s p (rTable d) (rStep d)) (rTable d)).dedup.foldl (pinTable (rStep d) p) s
  else s

/-- An accepted request goes on the list, its partition's memory awake, and runs as far as it can (R181, R417). -/
def requestTaken (s : State) (p : Nat) (r : RetrReq) : State :=
  let s := wakeMem (takeSetting s (1 + p) 0x3405 (p + 1)) p
  runReq (readIndex (putRetr s { s.retr with nextId := r.id + 1, reqs := s.retr.reqs ++ [r] }) r) r.id

/-- A request that breaks no rule is accepted while its partition's list has room. -/
theorem startRequest_accepted {s : State} {p t : Nat} {q : QInstr} {d : BitVec 1024}
    (hd : BitVec.ofNat 1024 (readNat s (tileAddr t (wDesc q.w)) 128) = d)
    (room : (s.retr.reqs.filter (fun r => r.part == p)).length < 512) (ok : requestFault s p t q d = none) :
    startRequest s p t q = .done (requestTaken (requestPinned s p d) p (newReq (requestPinned s p d).retr.nextId p t q d)) := by
  unfold startRequest
  dsimp only
  rw [hd, if_neg (by omega), ok]
  rfl

theorem startClass_request (s : State) (p t : Nat) {q : QInstr} (h : wClass q.w = 0x13 ∨ wClass q.w = 0x14) :
    startClass s p t q = startRequest s p t q := by
  obtain h | h := h <;> simp only [startClass, h]

/-! ## Acceptance of an update command (R109, R148) -/

/-- The commands that a UPD.P1 or UPD.P2 queues, one on each die that holds a slice of the group. -/
def updCommands (id p pass ga step : Nat) (frozen : Bool) (dies : List Nat) : List UpdCmd :=
  dies.map (fun d => { id := id, part := p, die := d, pass := pass, group := ga, step := step, next := 0, armed := false
                       going := false, skip := if frozen then 1 else 0, rows := false })

/-- A group that keeps its rules has its commands queued while every die's queue has room. -/
theorem startUpdate_accepted {s : State} {p pass ga : Nat} {q : QInstr} {dies : List Nat} {frozen : Bool}
    (hga : fld q.w 103 47 = ga) (hpass : (if wClass q.w = 0x15 then 1 else 2) = pass)
    (hdies : groupDies s (groupDesc s ga) = dies)
    (hfrozen : (getPart s p).frozen.contains (bits (groupDesc s ga) 47 32) = frozen)
    (ok : groupOk s p ga = true) (table : (updTable s p).isSome = true)
    (room : ∀ d ∈ dies, (s.upd.cmds.filter (fun c => c.die == d && c.pass == pass)).length < 256) :
    let s2 := if frozen then updCtr s p 3 1 else s
    let s3 := putUpd s2 { s2.upd with
      nextId := s2.upd.nextId + 1, cmds := s2.upd.cmds ++ updCommands s2.upd.nextId p pass ga q.step frozen dies }
    let s4 := dies.foldl (fun s d => wakeDomain s (24 + d)) s3
    startUpdate s p q = .done (if pass = 2 then dies.foldl armPass2 s4 else s4) := by
  intro s2 s3 s4
  have hroom : dies.any (fun d =>
      decide (256 ≤ (s.upd.cmds.filter (fun c => c.die == d && c.pass == pass)).length)) = false := by
    simpa using room
  have hbad : ¬ (!groupOk s p ga || (updTable s p).isNone) = true := by
    simpa [ok, Option.isNone_iff_eq_none] using Option.isSome_iff_ne_none.mp table
  have hid : s2.upd.nextId = s.upd.nextId := by
    simp only [s2]
    split <;> rfl
  unfold startUpdate
  dsimp only
  rw [hga, hpass, hdies, hfrozen, if_neg hbad, hroom, ← hid]
  rfl

theorem startClass_update (s : State) (p t : Nat) {q : QInstr} (h : wClass q.w = 0x15 ∨ wClass q.w = 0x16) :
    startClass s p t q = startUpdate s p q := by
  obtain h | h := h <;> simp only [startClass, h]

/-- Settles O6: the start of a GATHER, SCATTER.ADD, UPD.P1 or UPD.P2 on an idle tile, its request accepted. -/
theorem requestsReachRetrieverAndUpdate : Obligations.RequestsReachRetrieverAndUpdate := by
  refine ⟨?request, ?update⟩
  case request =>
    intro s p t x w cls hc wd s1 d hS room ok s2 r s3 s4
    have hw : wClass wd = cls := wClass_classWord cls w (by omega)
    have hx : exec (if cls = 0x13 then .gather t x w else .scatterAdd t x w) s = .next (tileInstr s t x wd) := by
      obtain rfl | rfl := hc <;> rfl
    have hstart : startClass s1 p t (nextInstr s p t x wd) = .done (runReq (readIndex s4 r) r.id) :=
      (startClass_request s1 p t (q := nextInstr s p t x wd) (by rwa [← hw] at hc)).trans
        (startRequest_accepted rfl room ok)
    exact ⟨rfl, rfl, by rw [hx, tileInstr_done hS hstart]⟩
  case update =>
    intro s p t x w cls hc wd s1 ga pass dies frozen hS ok table room s2 s3 s4
    have hw : wClass wd = cls := wClass_classWord cls w (by omega)
    have hx : exec (if cls = 0x15 then .updP1 t x w else .updP2 t x w) s = .next (tileInstr s t x wd) := by
      obtain rfl | rfl := hc <;> rfl
    have hpass : (if wClass (nextInstr s p t x wd).w = 0x15 then 1 else 2) = pass := by
      rw [show wClass (nextInstr s p t x wd).w = cls from hw]
    have hstart : startClass s1 p t (nextInstr s p t x wd) = .done (if pass = 2 then dies.foldl armPass2 s4 else s4) :=
      (startClass_update s1 p t (q := nextInstr s p t x wd) (by rwa [← hw] at hc)).trans
        (startUpdate_accepted rfl hpass rfl rfl ok table room)
    rw [hx, tileInstr_done hS hstart]

/-! ## Completion of a request (R186) -/

/-- RETRIEVER_REQUEST_COMPLETE of a request that has all its rows, none of them through a window, and its writes visible. -/
theorem exec_retrieverRequestComplete {s s1 : State} {k : Nat} {r0 r : RetrReq} (hk : s.retr.reqs[k]? = some r0)
    (ran : runReq s r0.id = s1) (hr : getReq s1 r0.id = some r) (fin : reqFinished s1 r = true) (near : r.far = [])
    (hset : settled s1 r.part = true) :
    let s2 := dropFar s1 (retrOwner r.id)
    let s3 := putRetr s2 { s2.retr with reqs := s2.retr.reqs.filter (fun x => x.id != r.id) }
    exec (.retrieverRequestComplete k) s = .next (sendSignal s3
      { ctr := rFld r.desc 543 512, isMax := false, operand := 1, unit := retrUnit s3 r.part, stream := 3
        part := r.part, counted := some r.step }) := by
  intro s2 s3
  have hempty : r.far.isEmpty = true := by rw [near]; rfl
  show execRetrieverRequestComplete k s = _
  unfold execRetrieverRequestComplete
  rw [hk]
  dsimp only
  rw [ran, hr]
  dsimp only
  simp only [hempty, fin, hr, onceSettled_settled hset, Bool.not_true, Bool.and_false, Bool.false_eq_true, if_false]
  rfl

/-! ## Merge-adds and deferred lookups (R195, R196) -/

/-- MERGE_ADD of a row of the set of a step that has come. -/
theorem exec_mergeAdd {s : State} {k : Nat} {a : MergeAdd} {sl : Nat × Nat} {t : TouchEntry}
    (hk : s.retr.adds[k]? = some a) (come : a.step ≤ (getPart s a.part).step) :
    let s1 := putRetr s { s.retr with adds := dropAt s.retr.adds k }
    sliceOf (batchDesc s1 a.part a.table a.step) a.row = some sl →
    findTouch s1 a.part a.table sl.1 a.step a.row = some t →
    exec (.mergeAdd k) s = .next (reqProgress (mergeInto s1 a sl.1 t) a.req) := by
  intro s1 hsl ht
  show execMergeAdd k s = _
  unfold execMergeAdd
  rw [hk]
  dsimp only
  rw [if_neg (Nat.not_lt.mpr come), hsl]
  dsimp only
  rw [ht]

/-- DEFERRED_ROW_DELIVERED of a lookup none of whose rows waits for its update. -/
theorem exec_deferredRowDelivered {s : State} {k key : Nat} {x : Deferred} {r : RetrReq} {rows : List (Nat × Nat × Nat)}
    (hk : s.retr.deferred[k]? = some x) (hr : getReq s x.req = some r)
    (hkey : rowKey s (retrOwner r.id) r.desc x.pos = some (key, true))
    (hrows : indexRows s r.part (rTable r.desc) (rStep r.desc) key = some rows)
    (free : (blockedOn s r.part (rStep r.desc - 1) rows).isSome = false) (hcalm : calm s = true) :
    let s1 := putRetr s { s.retr with deferred := dropAt s.retr.deferred k }
    exec (.deferredRowDelivered k) s =
      .next (runReq (reqProgress (deliverIndex s1 r.part r.desc x.pos rows) x.req) x.req) := by
  intro s1
  show execDeferredRowDelivered k s = _
  unfold execDeferredRowDelivered
  rw [hk]
  dsimp only
  rw [hr]
  dsimp only
  rw [hkey]
  dsimp only
  rw [hrows]
  dsimp only
  rw [free, onceLevels_calm hcalm]
  rfl

/-- Settles O20: the end of a request, a merge-add, and a deferred lookup. -/
theorem retrieverRequestsComplete : Obligations.RetrieverRequestsComplete := by
  refine ⟨?complete, ?merge, ?deferred⟩
  case complete =>
    intro s k r0 r hk s1 hr fin near hset s2 s3
    exact exec_retrieverRequestComplete hk rfl hr fin near hset
  case merge =>
    intro s k a hk come s1 sl t hsl ht
    exact exec_mergeAdd hk come hsl ht
  case deferred =>
    intro s k x r key hk hr hkey rows hrows free hcalm s1
    exact exec_deferredRowDelivered hk hr hkey hrows free hcalm

/-! ## Migrations (R201, R202) -/

/-- MIGRATION_SWITCH of a migrating row. -/
theorem exec_migrationSwitch {s : State} {k : Nat} {h : HotEntry}
    (hk : (s.retr.hot.filter (fun h => h.st != 2))[k]? = some h) (hcalm : calm s = true) :
    exec (.migrationSwitch k) s = .next (switchRow s h) := by
  obtain ⟨-, hup⟩ : memClean s = true ∧ domsUp s = true := by simpa [calm] using hcalm
  have hheld : ¬ ((migrationPlaces s h).toList.any fun x =>
      (linesOf x.2 (migrationBytes s h)).any fun l => lineHeld s l true) = true := by
    simp [lineHeld_calm hcalm]
  show execMigrationSwitch k s = _
  unfold execMigrationSwitch
  rw [hk]
  dsimp only
  rw [onceLevels_calm hcalm, wakeRuns, if_pos hup, if_neg hheld]

/-! ## Doorbells and versions (R203, R206, R288) -/

/-- A core that stores to another partition's doorbell takes an access fault, whatever the store would have done. -/
theorem byCore_foreign {s : State} {c p : Nat} (goes : coreGoes s c = true) (foreign : partOfCore s c ≠ some p)
    (f : State → State) : byCore s c p f = itemFaults s c 7 (mget Core.reset s.sched.cores c).pc := by
  simp [byCore, goes, foreign]

/-- A table without a merge or a hot area that no embedding unit of a running job names is staged. -/
theorem stagePublish_allowed {s : State} {p n : Nat} (small : n < 256) (unmerged : bits (regEntry s p (n % 256)) 255 224 = 0)
    (cold : bits (regEntry s p (n % 256)) 191 160 = 0)
    (untrained : jobRuns s p = true → (trainedTables s p).contains n = false) :
    stagePublish p n s = putRetr s { s.retr with
      publish := (s.retr.publish.filter (fun x => !(x.1 == p && x.2 == n))) ++ [(p, n)] } := by
  have hjob : (jobRuns s p && (trainedTables s p).contains n) = false := by
    cases hr : jobRuns s p with
    | false => rfl
    | true => exact untrained hr
  unfold stagePublish
  dsimp only
  rw [unmerged, cold, hjob, if_neg]
  simpa using small

/-- PUBLISH_DOORBELL that rings stages its table number. -/
theorem exec_publishDoorbell {s : State} {c : Fin 96} {p : Fin 16} (h : Rings s 3 c p) (t : BitVec 32) :
    exec (.publishDoorbell ⟨c, p⟩ t) s = .next (stagePublish p t.toNat s) := by
  show Host.Outcome.next (byCore s c p (publishStore p t.toNat)) = _
  rw [byCore_rings h, publishStore, atDoorbell_rings h]

/-- VERSION_FREED of an old version that no batch pins. -/
theorem exec_versionFreed {s : State} {k p t a : Nat} (hk : s.retr.old[k]? = some (p, t, a))
    (unpinned : s.retr.pins.any (fun x => x.part == p && x.table == t && x.addr == a) = false) :
    let s1 := putReg s p t 383 320 a
    exec (.versionFreed k) s =
      .next (raise (putRetr s1 { s1.retr with old := dropAt s1.retr.old k }) 0x0808 p 0 [t, a]) := by
  intro s1
  show execVersionFreed k s = _
  unfold execVersionFreed
  rw [hk]
  dsimp only
  rw [unpinned]
  rfl

/-- Settles O21: a migrating row's switch, a cleared directory, a foreign doorbell, a staged publish and a freed version. -/
theorem tablesMigrateAndPublish : Obligations.TablesMigrateAndPublish := by
  refine ⟨?switch, ?cleared, ?foreign, ?staged, ?freed⟩
  case switch =>
    intro s k h hk hcalm
    exact exec_migrationSwitch hk hcalm
  case cleared =>
    intro s p t d gone s1
    rfl
  case foreign =>
    intro s c p a t goes hp i hi
    have hfault := byCore_foreign goes hp
    simp only [List.mem_cons, List.not_mem_nil, or_false] at hi
    obtain rfl | rfl | rfl | rfl := hi
    · exact congrArg Host.Outcome.next (hfault (houndStore p a.toNat))
    · exact congrArg Host.Outcome.next (hfault (maskStore p a.toNat))
    · exact congrArg Host.Outcome.next (hfault (reduceStore p a.toNat))
    · exact congrArg Host.Outcome.next (hfault (publishStore p t.toNat))
  case staged =>
    intro s c p t e h small unmerged cold untrained
    rw [exec_publishDoorbell h, stagePublish_allowed small unmerged cold untrained]
  case freed =>
    intro s k p t a hk unpinned s1
    exact exec_versionFreed hk unpinned

end Sys2Proof.Machine

/-! Placement tables and the prefetch schedule (11 R234, R242 to R246). A row whose occasion is absent leaves the state as
it is (log 4, DESIGN CHOICE). -/

namespace Sys2Proof.Machine

/-! ## Reloads and progress (R234, R243, R244) -/

/-- PLACEMENT_RELOAD notes a reload for a written 1, and nothing for another value. -/
theorem exec_placementReload (s : State) (p : Fin 16) (v : BitVec 8) :
    exec (.placementReload p v) s = .next (if v = 1 then putPart s p { getPart s p with reload := true } else s) := by
  have hv : v.toNat = 1 ↔ v = 1 := BitVec.toNat_inj (y := 1)
  show Host.Outcome.next (askReload s p v.toNat) = _
  rw [askReload]
  simp only [hv]

/-- PROGRESS_CHANGE of a running partition with a valid table. -/
theorem exec_progressChange_running {s : State} {p : Fin 16} (valid : (getPlace s p).valid = true)
    (running : (getPart s p).state = .running) :
    let v := getPlace s p
    let bad := decide (v.last + 1 < progress s v) || decide (bits v.header 287 256 < progress s v - v.p0)
    let s1 := if bad && !v.posErr then addCtr s (0x4700 + p) 5 1 else s
    exec (.progressChange p) s = .next (evalEntries
      (takeGates (putPlace s1 p { v with last := progress s v, posErr := v.posErr || bad }) p) p) := by
  intro v bad s1
  show execProgressChange p s = _
  unfold execProgressChange
  dsimp only
  rw [valid, running, if_neg (by decide)]

/-- PROGRESS_CHANGE without a table, or of a partition that does not run. -/
theorem exec_progressChange_idle {s : State} {p : Fin 16}
    (idle : (getPlace s p).valid = false ∨ (getPart s p).state ≠ .running) : exec (.progressChange p) s = .next s :=
  if_pos (by simpa using idle)

/-- Settles O24: a reload is noted for a written 1 alone; a change of progress acts on a running partition with a table. -/
theorem placementFollowsReloadAndProgress : Obligations.PlacementFollowsReloadAndProgress := by
  refine ⟨?reload, ?other, ?running, ?idle⟩
  case reload =>
    intro s p
    rw [exec_placementReload, if_pos rfl]
  case other =>
    intro s p v hv
    rw [exec_placementReload, if_neg hv]
  case running =>
    intro s p valid running
    exact exec_progressChange_running valid running
  case idle =>
    intro s p idle
    exact exec_progressChange_idle idle

/-! ## Landings and credits (R242, R245) -/

/-- Where every domain is up, a request wakes none. -/
theorem wakeRun_calm {s : State} (h : calm s = true) (a n : Nat) : wakeRun s a n = s := by
  obtain ⟨-, hd⟩ : memClean s = true ∧ domsUp s = true := by simpa [calm] using h
  exact if_pos hd

/-- PREFETCH_LANDED of the oldest issue of an entry that has not landed, its source answered and memory calm. -/
theorem exec_prefetchLanded {s : State} {p : Fin 16} {i : Fin 65536} {x : PfIssue}
    (oldest : (getPlace s p).issues.find? (fun x => x.entry == i.val && !x.landed) = some x)
    (ready : farReady s (pfOwner p i x.step) x.step = true) (hcalm : calm s = true) :
    let v := getPlace s p
    let e := v.entries.getD i 0
    let bs := (upFrom (bits e 511 448) (bits e 383 352)).map (farByte s (pfOwner p i x.step))
    let s1 := dropFar (writeBytes s (landAddr (bits e 7 6) (bits e 351 320)) bs) (pfOwner p i x.step)
    let s2 := putPlace s1 p { v with issues := v.issues.map (fun y => if y = x then { y with landed := true } else y) }
    let r := bits e 7 6 * 16
    exec (.prefetchLanded p i) s = .next (sendSignal s2
      { ctr := bits e 319 288, isMax := false, operand := 1, unit := unitId (tagOf s2 (unitNo 3 r)) 3 0 r, stream := 3
        part := p, counted := some x.step }) := by
  intro v e bs s1 s2 r
  show execPrefetchLanded p i s = _
  unfold execPrefetchLanded
  dsimp only
  rw [oldest]
  dsimp only
  rw [if_neg (by simp [ready]), wakeRun_calm hcalm, if_neg (by simp [lineHeld_calm hcalm]), onceRead_calm hcalm]

/-- PREFETCH_LANDED of an entry whose issues have all landed. -/
theorem exec_prefetchLanded_allLanded {s : State} {p : Fin 16} {i : Fin 65536}
    (landed : (getPlace s p).issues.find? (fun x => x.entry == i.val && !x.landed) = none) :
    exec (.prefetchLanded p i) s = .next s := by
  show execPrefetchLanded p i s = _
  unfold execPrefetchLanded
  dsimp only
  rw [landed]

/-- Settles O25: the oldest issue lands and is signalled; issues that the release counter has reached return their credits. -/
theorem prefetchLandsAndReturnsCredits : Obligations.PrefetchLandsAndReturnsCredits := by
  refine ⟨?landed, ?allLanded, ?credits⟩
  case landed =>
    intro s p i x v e oldest ready hcalm
    exact exec_prefetchLanded oldest ready hcalm
  case allLanded =>
    intro s p i landed
    exact exec_prefetchLanded_allLanded landed
  case credits =>
    intro s p i v rel back
    refine ⟨fun reached => ?_, fun unreached => ?_⟩
    · exact if_pos reached
    · exact if_neg (ne_true_of_eq_false unreached)

end Sys2Proof.Machine

/-! Memory errors (11 R241, R248 to R256): what a command does with a request that meets an error, with a refill, a page
copy, a retrain and a scrub. -/

namespace Sys2Proof.Machine

/-! ## A request meets an uncorrectable error (R248, R251, R252) -/

/-- A line takes its entry in the poison table, and counter objects alone change besides. -/
theorem notePoison_eq {s : State} {line : Nat} (clean : s.memErr.poison.contains line = false) :
    ∃ c, notePoison s line = putCtrs (markPoison s line) c := by
  unfold notePoison
  rw [if_neg (ne_true_of_eq_false clean)]
  dsimp only
  split
  next => exact ⟨_, rfl⟩
  next =>
    split
    next => exact ⟨_, rfl⟩
    next => exact ⟨_, rfl⟩

/-- A line that nothing has begun to refill, with room in its die's poison table, is poisoned behind the parked request. -/
theorem meetError_room {s : State} {line : Nat} (unrefilled : s.memErr.refilling.any (fun r => r.1 == line) = false)
    (unsought : s.memErr.seeking.any (fun r => r.1 == line) = false) (unwaiting : s.memErr.waiting.contains line = false)
    (room : (s.memErr.poison.filter (fun l => poisonDie l == poisonDie line)).length < 256) (req : MemReq) :
    meetError s line req = poisonLine (parkReq s line req) line := by
  unfold meetError
  dsimp only
  rw [if_neg, if_neg]
  · rfl
  · exact fun full => absurd room (Nat.not_lt.mpr (of_decide_eq_true (Bool.and_eq_true_iff.mp full).2))
  · rw [putMemErr_memErr, unrefilled, unsought, unwaiting]
    decide

/-- The refill of a line with an owner and a source outside the windows begins at once. -/
theorem seekRefill_source {s : State} {line p src : Nat} (owner : lineOwner s line = some p)
    (near : usesWindow s p line = false) (source : refillSource s p line = some src) :
    seekRefill s line = putMemErr s { s.memErr with refilling := s.memErr.refilling ++ [(line, src)] } := by
  unfold seekRefill
  rw [owner]
  dsimp only
  rw [near, source]
  rfl

/-- UNCORRECTABLE_ERROR of a line with room in its poison table and a refill source. -/
theorem exec_uncorrectableError_line {s : State} {n : BitVec 51} {p src : Nat} (req : MemReq)
    (unrefilled : s.memErr.refilling.any (fun r => r.1 == 64 * n.toNat) = false)
    (unsought : s.memErr.seeking.any (fun r => r.1 == 64 * n.toNat) = false)
    (unwaiting : s.memErr.waiting.contains (64 * n.toNat) = false)
    (clean : s.memErr.poison.contains (64 * n.toNat) = false)
    (room : (s.memErr.poison.filter (fun l => poisonDie l == poisonDie (64 * n.toNat))).length < 256)
    (owner : lineOwner s (64 * n.toNat) = some p) (near : usesWindow s p (64 * n.toNat) = false)
    (source : refillSource s p (64 * n.toNat) = some src) :
    ∃ c, exec (.uncorrectableError (.line n) req) s = .next (putMemErr (putCtrs s c) { s.memErr with
      poison := insertNew s.memErr.poison (64 * n.toNat), parked := s.memErr.parked ++ [⟨64 * n.toNat, req⟩]
      refilling := s.memErr.refilling ++ [(64 * n.toNat, src)] }) := by
  obtain ⟨c, noted⟩ := notePoison_eq (s := parkReq s (64 * n.toNat) req) clean
  refine ⟨c, ?_⟩
  show Host.Outcome.next (meetError s (64 * n.toNat) req) = _
  rw [meetError_room unrefilled unsought unwaiting room, poisonLine, noted]
  exact congrArg Host.Outcome.next (seekRefill_source owner near source)

/-- UNCORRECTABLE_ERROR by a parity error of a tile that goes on. -/
theorem exec_uncorrectableError_parity {s : State} {t : Fin 64} (goes : tileGoes s t = true) (x : Stream) (e : Engine)
    (req : MemReq) :
    let r := requesterOf (getTile s t) x e
    exec (.uncorrectableError (.parity t x e) req) s = .next (tileFault s t x (engNo e) r.1 r.2 ⟨9, 0, 0⟩) :=
  if_pos goes

/-! ## Refills and page copies (R253) -/

/-- An address from the end of T1 on lies elsewhere. -/
theorem placeOf_ne_t1 {a : Nat} (h : ¬ a < 0x028000000000) (g : Nat) : placeOf a ≠ .t1 g := by
  unfold placeOf
  rw [if_neg h]
  repeat refine iteInduction (motive := (· ≠ Place.t1 g)) (fun _ => nofun) fun _ => ?_
  nofun

/-- A line of T1 or of SRAM is refilled: the parked requests are served, its page or line is retired. -/
theorem refillWith_near {s : State} {line : Nat} (near : isWindow line = false) (bs : List Byte) :
    let t := takeParked (pokeMemory s line bs) line
    let u := retireLine (t.1.foldl (serveOne line) t.2) line
    refillWith s line bs = if line < 0x028000000000 then healLine u line else u := by
  intro t u
  unfold refillWith
  rw [if_neg (ne_true_of_eq_false near)]
  dsimp only
  by_cases low : line < 0x028000000000
  · rw [show placeOf line = .t1 (line / 2 ^ 37) from if_pos low, if_pos low]
  · rw [if_neg low]
    split
    next g hg => exact absurd hg (placeOf_ne_t1 low g)
    next => rfl

/-- REFILL_ARRIVED with a good source line of T1 or SRAM. -/
theorem exec_refillArrived {s : State} {k line src : Nat} (arrived : s.memErr.refilling[k]? = some (line, src))
    (far : isWindow src = false) (answered : refillWaits s line = false) (free : lineHeld s src false = false)
    (good : lineBad s src = false) (corrected : Bool) :
    let s1 := putMemErr s { s.memErr with refilling := dropAt s.memErr.refilling k }
    let s2 := if corrected then countCorrected s1 src else s1
    let s3 := if poisonDie line < 4 then addCtr s2 (0x4200 + poisonDie line) 5 1 else s2
    exec (.refillArrived k true corrected) s = .next (admitPoison (refillWith s3 line (readBytes s src 64))) := by
  intro s1 s2 s3
  show execRefillArrived k true corrected s = _
  unfold execRefillArrived
  rw [arrived]
  dsimp only
  rw [if_neg (by simp [answered, free]), if_neg (ne_true_of_eq_false far), if_neg (by simp [good])]

/-- PAGE_COPY_DONE of a page that is being copied. -/
theorem exec_pageCopyDone {s : State} {k page : Nat} (copied : s.memErr.copying[k]? = some page) :
    let g := page / 2 ^ 37
    let s1 := putMemErr s { s.memErr with
      copying := dropAt s.memErr.copying k, retiredPages := s.memErr.retiredPages ++ [page] }
    exec (.pageCopyDone k) s = .next (serveParked
      (raise (addCtr s1 (0x4200 + g / 5) 7 1) 0x0304 ((partOfMemGroup s g).getD 0xFF) 0 [page, g])) := by
  intro g s1
  show execPageCopyDone k s = _
  unfold execPageCopyDone
  rw [copied]
  rfl

/-! ## Interfaces, the scrub and unanswered reads (R241, R249, R250, R422) -/

/-- RETRAIN_DONE of an interface that retrains. -/
theorem exec_retrainDone {s : State} {i : Fin 160} (retrains : s.memErr.retrain.contains i.val = true) (ok : Bool) :
    let s1 := putMemErr s { s.memErr with
      retrain := s.memErr.retrain.filter (· != i.val)
      failedIf := if ok then s.memErr.failedIf else insertNew s.memErr.failedIf i.val }
    exec (.retrainDone i ok) s = .next (serveParked (raise s1 0x0306 0xFF 0 [i.val, if ok then 0 else 1])) :=
  if_neg (by simpa using retrains)

/-- PATROL_SCRUB of a T1 line whose die is ACTIVE or in DOZE. -/
theorem exec_patrolScrub_t1 {s : State} {n : BitVec 51} {g : Nat} (place : placeOf (64 * n.toNat) = .t1 g)
    (up : getDom s (24 + g / 5) ≤ 1) (found reads : BitVec 16) :
    let s0 := wakeDomain s (24 + g / 5)
    let page := pageOf (64 * n.toNat)
    let l := withCorrected s0 page (found.toNat + reads.toNat)
    let s1 := putMemErr (addCtr s0 (0x4200 + g / 5) 3 (found.toNat + reads.toNat)) { s0.memErr with corrected := l }
    exec (.patrolScrub n found reads) s = .next
      (if setting s 0x3300 2 ≠ 0 ∧ setting s 0x3300 2 ≤ correctedOf l page then retireLine s1 (64 * n.toNat) else s1) := by
  intro s0 page l s1
  have due : scrubDomain s (64 * n.toNat) = some (24 + g / 5) := by
    unfold scrubDomain
    rw [place]
    exact if_pos up
  show execPatrolScrub n found reads s = _
  unfold execPatrolScrub
  dsimp only
  rw [due, place]
  dsimp only
  rw [if_neg (show getDom s (24 + g / 5) ≠ 2 by omega)]
  simp only [Bool.and_eq_true, decide_eq_true_eq]
  rfl

/-- FAR_READ_TIMEOUT of an outstanding window read. -/
theorem exec_farReadTimeout {s : State} {k : Nat} {r : FarRead}
    (outstanding : (s.lft.reads.filter (fun r => !r.failed))[k]? = some r) :
    exec (.farReadTimeout k) s = .next (settleWindows (failRead s r)) := by
  show execFarReadTimeout k s = _
  unfold execFarReadTimeout
  rw [outstanding]

/-- Settles O26: errors that park or fault, refills and page copies, retrains, the scrub and unanswered window reads. -/
theorem memoryErrorsParkRefillAndScrub : Obligations.MemoryErrorsParkRefillAndScrub := by
  refine ⟨⟨?line, ?parity, ?refill, ?copy⟩, ?crc, ?retrain, ?scrub, ?timeout⟩
  case line =>
    intro s n req p src line unrefilled unsought unwaiting clean room owner near source
    obtain ⟨c, hexec⟩ := exec_uncorrectableError_line req unrefilled unsought unwaiting clean room owner near source
    exact ⟨_, hexec, rfl, rfl, rfl, rfl⟩
  case parity =>
    intro s t x e req goes
    exact exec_uncorrectableError_parity goes x e req
  case refill =>
    intro s k line src corrected arrived near far answered free good s1 s2 s3 t s4
    rw [exec_refillArrived arrived far answered free good corrected, refillWith_near near]
  case copy =>
    intro s k page copied
    exact exec_pageCopyDone copied
  case crc =>
    intro s i retried
    exact ⟨_, rfl, rfl, rfl, rfl⟩
  case retrain =>
    intro s i ok retrains
    exact exec_retrainDone retrains ok
  case scrub =>
    intro s n found reads g place up
    exact exec_patrolScrub_t1 place up found reads
  case timeout =>
    intro s k r outstanding
    exact exec_farReadTimeout outstanding

end Sys2Proof.Machine

/-! Window and peer entries, and peers that come and go (11 R239, 16 R363 to R369, R377 to R379). A HELLO writes two fields of
its peer's entry, and the bindings of partitions stand in others. -/

namespace Sys2Proof.Machine

/-! ## Bit fields of an entry (R8, R363) -/

/-- A field replaced in a number: what lies above it, the field, what lies below it. -/
theorem sub_bits_add_eq (w n lo v : Nat) :
    w - w / 2 ^ lo % 2 ^ n * 2 ^ lo + v * 2 ^ lo = 2 ^ lo * (2 ^ n * (w / 2 ^ lo / 2 ^ n) + v) + w % 2 ^ lo := by
  have hw := Nat.div_add_mod w (2 ^ lo)
  have hq := Nat.div_add_mod (w / 2 ^ lo) (2 ^ n)
  generalize w / 2 ^ lo % 2 ^ n = m at *
  generalize 2 ^ n * (w / 2 ^ lo / 2 ^ n) = h at *
  generalize w / 2 ^ lo = q at *
  subst hq
  rw [Nat.mul_add] at hw ⊢
  rw [Nat.mul_comm m, Nat.mul_comm v]
  omega

/-- A bit of an entry with a field replaced: the new value's within the field, the entry's outside it. -/
theorem testBit_withBits (e : BitVec 512) {hi lo : Nat} (v : Nat) (le : lo ≤ hi) (lt : hi < 512) (i : Nat) :
    (withBits e hi lo v).toNat.testBit i = if lo ≤ i ∧ i ≤ hi then v.testBit (i - lo) else e.toNat.testBit i := by
  have hfield : e.toNat - bits e.toNat hi lo * 2 ^ lo + v % 2 ^ (hi + 1 - lo) * 2 ^ lo =
      2 ^ lo * (2 ^ (hi + 1 - lo) * (e.toNat / 2 ^ lo / 2 ^ (hi + 1 - lo)) + v % 2 ^ (hi + 1 - lo)) + e.toNat % 2 ^ lo := by
    rw [bits, Nat.shiftRight_eq_div_pow]
    exact sub_bits_add_eq _ _ _ _
  have hlow : e.toNat % 2 ^ lo < 2 ^ lo := Nat.mod_lt _ (Nat.two_pow_pos lo)
  have hmid : v % 2 ^ (hi + 1 - lo) < 2 ^ (hi + 1 - lo) := Nat.mod_lt _ (Nat.two_pow_pos _)
  unfold withBits
  rw [hfield, BitVec.testBit_toNat, BitVec.getLsbD_ofNat, Nat.testBit_two_pow_mul_add _ hlow,
    Nat.testBit_two_pow_mul_add _ hmid]
  simp only [Nat.testBit_mod_two_pow, Nat.testBit_div_two_pow]
  by_cases below : i < lo
  · simp [below, show i < 512 by omega, show ¬ lo ≤ i by omega]
  · by_cases within : i ≤ hi
    · simp [below, within, show i < 512 by omega, show lo ≤ i by omega, show i - lo < hi + 1 - lo by omega]
    · simp only [below, within, if_false, and_false, show ¬ i - lo < hi + 1 - lo by omega,
        show i - lo - (hi + 1 - lo) + (hi + 1 - lo) + lo = i by omega]
      by_cases inside : i < 512
      · simp [inside]
      · rw [BitVec.testBit_toNat, BitVec.getLsbD_of_ge _ _ (by omega), Bool.and_false]

/-- A field of an entry written reads as written. -/
theorem bits_withBits_same (e : BitVec 512) {hi lo : Nat} (v : Nat) (le : lo ≤ hi) (lt : hi < 512) :
    bits (withBits e hi lo v).toNat hi lo = v % 2 ^ (hi + 1 - lo) := by
  refine Nat.eq_of_testBit_eq fun i => ?_
  simp only [bits, Nat.testBit_mod_two_pow, Nat.testBit_shiftRight, testBit_withBits e v le lt]
  by_cases h : i < hi + 1 - lo
  · simp [h, show lo ≤ lo + i ∧ lo + i ≤ hi by omega]
  · simp [h]

/-- A field of an entry that shares no bit with the one written reads as before. -/
theorem bits_withBits_apart (e : BitVec 512) {hi lo hi' lo' : Nat} (v : Nat) (le : lo ≤ hi) (lt : hi < 512)
    (apart : hi < lo' ∨ hi' < lo) : bits (withBits e hi lo v).toNat hi' lo' = bits e.toNat hi' lo' := by
  refine Nat.eq_of_testBit_eq fun i => ?_
  simp only [bits, Nat.testBit_mod_two_pow, Nat.testBit_shiftRight, testBit_withBits e v le lt]
  by_cases h : i < hi' + 1 - lo'
  · simp [h, show ¬ (lo ≤ lo' + i ∧ lo' + i ≤ hi) by omega]
  · simp [h]

/-! ## Windows (R239) -/

/-- A window whose entry was written reads as written. -/
theorem windowOf_mset_same (s : State) (w : Nat) (e : BitVec 512) :
    windowOf (putLft s { s.lft with windows := mset 0 s.lft.windows w e }) w = e.toNat :=
  congrArg BitVec.toNat (mget_mset_same _ _ _ _)

/-- A window whose entry was not written reads as before. -/
theorem windowOf_mset_ne (s : State) {w k : Nat} (e : BitVec 512) (h : k ≠ w) :
    windowOf (putLft s { s.lft with windows := mset 0 s.lft.windows w e }) k = windowOf s k :=
  congrArg BitVec.toNat (mget_mset_ne _ _ _ h)

/-! ## Peer entries (R363 to R365) -/

/-- A write of a peer leaves device memory alone. -/
theorem putPeer_mem (s : State) (n : Nat) (v : Peer) : (putPeer s n v).mem = s.mem := putLft_mem s _

/-- A change of flows leaves every peer alone. -/
theorem getPeer_putFlows (s : State) (l : Map Flow) (n : Nat) : getPeer (putLft s { s.lft with flows := l }) n = getPeer s n :=
  rfl

/-- A peer written reads as written. -/
@[simp] theorem getPeer_putPeer (s : State) (n : Nat) (v : Peer) : getPeer (putPeer s n v) n = v := mget_mset_same _ _ _ _

/-- What a peer's entry says depends on the peer alone. -/
theorem peerFld_congr {s u : State} {n : Nat} (h : getPeer u n = getPeer s n) (hi lo : Nat) :
    peerFld u n hi lo = peerFld s n hi lo := by
  unfold peerFld; rw [h]

theorem peerOn_congr {s u : State} {n : Nat} (h : getPeer u n = getPeer s n) : peerOn u n = peerOn s n := by
  unfold peerOn; rw [peerFld_congr h]

theorem peerSelf_congr {s u : State} {n : Nat} (h : getPeer u n = getPeer s n) : peerSelf u n = peerSelf s n := by
  unfold peerSelf; rw [peerOn_congr h, peerFld_congr h]

theorem pathOf_congr {s u : State} {n : Nat} (h : getPeer u n = getPeer s n) (sub : Nat) : pathOf u n sub = pathOf s n sub := by
  unfold pathOf; rw [peerFld_congr h, peerFld_congr h]

/-- The entry of a peer that became UP on version 1. -/
def upEntry (e : BitVec 512) : BitVec 512 := withBits (withBits e 33 32 2) 31 28 1

/-- The state field of the entry of a peer that became UP. -/
theorem bits_upEntry_state (e : BitVec 512) : bits (upEntry e).toNat 33 32 = 2 :=
  (bits_withBits_apart _ 1 (by decide) (by decide) (by decide)).trans
    (bits_withBits_same _ 2 (by decide) (by decide))

/-- A field clear of the state and of the version is as it was in the entry of a peer that became UP. -/
theorem bits_upEntry_apart (e : BitVec 512) {hi lo : Nat} (apart : hi < 28 ∨ 33 < lo) :
    bits (upEntry e).toNat hi lo = bits e.toNat hi lo :=
  (bits_withBits_apart _ 1 (by decide) (by decide) (by omega)).trans
    (bits_withBits_apart _ 2 (by decide) (by decide) (by omega))

/-- A peer that became UP binds the partitions that its entry bound before. -/
theorem boundParts_upEntry {s u : State} {n : Nat} (h : (getPeer u n).entry = upEntry (getPeer s n).entry) :
    boundParts u n = boundParts s n := by
  have hfld : ∀ {hi lo}, hi < 28 ∨ 33 < lo → peerFld u n hi lo = peerFld s n hi lo := fun apart => by
    rw [peerFld, h, bits_upEntry_apart _ apart]; rfl
  have hbound : ∀ p, boundTo u n p = boundTo s n p := fun p => by
    unfold boundTo peerOn
    rw [hfld (hi := 26) (.inl (by decide)), hfld (lo := 112 + 5 * p) (.inr (by omega))]
  simp only [boundParts, hbound]

/-- PEER_TABLE_WRITE of an entry that is not enabled, by one that is and names another module. -/
theorem exec_peerTableWrite_enables {s : State} {n : Fin 1024} (off : peerOn s n = false) (entry : BitVec 512) :
    let s1 := putPeer s n { Peer.reset with entry := peerEntry entry }
    peerOn s1 n = true → peerSelf s1 n = false →
    exec (.peerTableWrite n entry) s = .next (setPeerState s1 n (idlePeerState s1 n)) := by
  intro s1 on other
  show Host.Outcome.next (writePeer s n entry) = _
  unfold writePeer
  dsimp only
  rw [if_neg (ne_true_of_eq_false off), if_neg (show ¬ (!peerOn s1 n) = true by rw [on]; decide),
    if_neg (ne_true_of_eq_false other)]

/-! ## Peers that come and go (R368, R369, R378) -/

/-- A packet that arrives wakes the network dies and is counted: peers, flows and device memory stay. -/
theorem packetArrives_keeps (s : State) :
    (lftCtr (wakeDomain (wakeDomain s 44) 45) 2 1).lft = s.lft ∧ (lftCtr (wakeDomain (wakeDomain s 44) 45) 2 1).mem = s.mem := by
  obtain ⟨c1, w1, h1, -⟩ := wakeDomain_eq s 44
  obtain ⟨c2, w2, h2, -⟩ := wakeDomain_eq (wakeDomain s 44) 45
  rw [h2, h1]
  exact ⟨rfl, rfl⟩

/-- What a module knows of a peer that became UP by a HELLO of an incarnation on a path. -/
def metPeer (v : Peer) (sub inc you : Nat) : Peer :=
  { v with paths := v.paths.filter (fun x => x.1 != sub) ++ [(sub, 0)], incarnation := inc, known := true, youAre := you
           entry := upEntry v.entry }

/-- The entry of a peer that became UP by a HELLO. -/
@[simp] theorem metPeer_entry (v : Peer) (sub inc you : Nat) : (metPeer v sub inc you).entry = upEntry v.entry := rfl

/-- LFT_HELLO_RECEIVED of an enabled peer that binds no partition, of the incarnation known, on version 1. -/
theorem exec_lftHelloReceived {s : State} {sub : Fin 128} {n : Fin 1024} {mid inc : BitVec 64} {vs : BitVec 16}
    (on : peerOn s n = true) (other : peerSelf s n = false)
    (named : peerFld s n 511 448 = 0 ∨ peerFld s n 511 448 = mid.toNat) (path : pathOf s n sub = true)
    (same : (getPeer s n).known = true → (getPeer s n).incarnation = inc.toNat) (version : vs.getLsbD 1 = true)
    (unbound : boundParts s n = []) (live : s.dev.phase ≠ .recovery) (you : Fin 1024) :
    ∃ u, exec (.lftHelloReceived sub n mid inc vs you) s = .next u ∧
      getPeer u n = metPeer (getPeer s n) sub inc.toNat you ∧ u.mem = s.mem := by
  obtain ⟨lft1, mem1⟩ := packetArrives_keeps s
  show ∃ u, execLftHelloReceived sub n mid inc vs you s = _ ∧ _
  unfold execLftHelloReceived
  -- s1: the packet has arrived; s2: a new incarnation has ended its flows; s3: the peer is heard; s4: it is UP;
  -- s5: its flows go on; s6: what a lost peer had not acknowledged is sent again.
  extract_lets _ s1 _ fresh s2 v2 s3 was v3 s4 lft4 s5 s6
  have peer1 : getPeer s1 n = getPeer s n := congrArg (fun l : Lft => mget Peer.reset l.peers n) lft1
  have answers : (peerSelf s1 n || (peerFld s1 n 511 448 ≠ 0 && peerFld s1 n 511 448 ≠ mid.toNat) || !pathOf s1 n sub) =
      false := by
    rw [peerSelf_congr peer1, other, peerFld_congr peer1, pathOf_congr peer1, path]
    obtain h | h := named <;> simp [h]
  have h2 : s2 = s1 := by
    refine if_neg ?_
    show ¬ ((getPeer s1 n).known && (getPeer s1 n).incarnation != inc.toNat) = true
    rw [peer1]
    simpa using same
  have hv2 : v2 = getPeer s n := (congrArg (getPeer · n) h2).trans peer1
  have hv3 : v3 = _ := getPeer_putPeer s2 n _
  have peer4 : getPeer s4 n = metPeer (getPeer s n) sub inc.toNat you := by
    calc getPeer s4 n = { v3 with entry := upEntry v3.entry } := getPeer_putPeer s3 n _
      _ = metPeer (getPeer s n) sub inc.toNat you := by rw [hv3, hv2, metPeer]
  have mem4 : s4.mem = s.mem := by
    calc s4.mem = s3.mem := putPeer_mem s3 n _
      _ = s2.mem := putPeer_mem s2 n _
      _ = s.mem := (congrArg State.mem h2).trans mem1
  have peer5 : getPeer s5 n = metPeer (getPeer s n) sub inc.toNat you :=
    (getPeer_putFlows s4 _ n).trans peer4
  have unbound5 : boundParts s5 n = [] := by
    rw [boundParts_upEntry (s := s) ((congrArg Peer.entry peer5).trans (metPeer_entry _ _ _ _)), unbound]
  have h6 : s6 = s5 := by
    show (if was = 3 then (boundParts s5 n).foldl _ s5 else s5) = s5
    rw [unbound5]
    exact ite_self s5
  refine ⟨s5, (if_neg live).trans ((if_neg ?_).trans ((if_neg ?_).trans ((if_pos version).trans ?_))), peer5,
    (putLft_mem s4 _).trans mem4⟩
  · rw [peerOn_congr peer1, on]
    decide
  · exact ne_true_of_eq_false answers
  · rw [h6, unbound5]
    rfl

/-- HELLO_INTERVAL of an enabled peer. -/
theorem exec_helloInterval {s : State} {n : Fin 1024} (on : peerOn s n = true) (other : peerSelf s n = false) :
    let s1 := (s.ports.links.filter (fun l => pathOf s n l)).foldl (fun s l => sendHello s n l) s
    let s2 := putPeer s1 n { getPeer s1 n with paths := (getPeer s1 n).paths.map (fun x => (x.1, x.2 + 1)) }
    exec (.helloInterval n) s = .next
      (((getPeer s2 n).paths.filter (fun x => decide (3 ≤ x.2))).foldl (fun s x => removePath s x.1 n) s2) :=
  if_neg (by simp [on, other])

/-- PEER_TIMEOUT of an UP peer without a path. -/
theorem exec_peerTimeout_pathless {s : State} {n : Fin 1024} (up : peerUp s n = true) (other : peerSelf s n = false)
    (pathless : (getPeer s n).paths = []) : exec (.peerTimeout n) s = .next (peerLost s n 1) := by
  show execPeerTimeout n s = _
  unfold execPeerTimeout
  dsimp only
  rw [if_neg (by simp [up, other]), pathless]
  rfl

/-- Settles O27: window and peer entries take their writes; a HELLO raises its peer, silence and the loss of paths drop it. -/
theorem windowsArePlacedAndPeersComeAndGo : Obligations.WindowsArePlacedAndPeersComeAndGo := by
  refine ⟨⟨?opens, ?closes, ?entry⟩, ?hello, ?timer, ?lost⟩
  case opens =>
    intro s w entry closed
    exact ⟨_, if_pos closed, windowOf_mset_same s w _, fun k other => windowOf_mset_ne s _ other, putLft_mem _ _⟩
  case closes =>
    intro s w isOpen
    exact congrArg Host.Outcome.next (if_pos isOpen)
  case entry =>
    intro s n entry off s1 on other
    exact exec_peerTableWrite_enables off entry on other
  case hello =>
    intro s sub n mid inc vs you on other named path same version unbound live
    obtain ⟨u, hexec, met, hmem⟩ := exec_lftHelloReceived on other named path same version unbound live you
    refine ⟨u, hexec, ?_⟩
    rw [peerFld, met, metPeer_entry]
    refine ⟨rfl, rfl, rfl, ?_, bits_upEntry_state _, hmem⟩
    simp [metPeer]
  case timer =>
    intro s n on other
    exact exec_helloInterval on other
  case lost =>
    intro s n up other pathless
    exact exec_peerTimeout_pathless up other pathless

end Sys2Proof.Machine

/-! The sync hubs (12 R259 to R282, 14 R328 to R331). What reaches an ACTIVE hub acts on the state with one idle spell ended;
an operation on a counter writes that counter's record and fires watches, and a watch that takes its slot adds one whistle
or one armed watch: everything else of the hubs stays. -/

namespace Sys2Proof.Machine

/-! ## What reaches an ACTIVE hub (R416, R420) -/

/-- The end of an idle spell touches the power record alone. -/
theorem endSpell_frame (s : State) (i : Nat) : ∃ w, endSpell s i = putPower s w := by
  unfold endSpell
  split
  · exact ⟨_, rfl⟩
  · exact ⟨s.power, rfl⟩

theorem onceAtHub_awake {s : State} {n : Nat} (awake : domAwake s (20 + hubOf n) = true) :
    ∃ w, ∀ f, onceAtHub s n f = f (putPower s w) := by
  obtain ⟨w, hw⟩ := endSpell_frame s (20 + hubOf n)
  exact ⟨w, fun f => (if_pos awake).trans (congrArg f hw)⟩

/-! ## An operation on a counter (R261, R272, R275) -/

/-- Whistles of fired watches touch the hubs' counter objects and the list of whistles alone. -/
theorem sendWhistles_frame (l : List Watch) (s : State) :
    ∃ k x, l.foldl (fun s w => sendWhistle s w 0 true) s = putSync (putCtrs s k) { s.sync with whistles := x } := by
  induction l generalizing s with
  | nil => exact ⟨s.ctr, s.sync.whistles, rfl⟩
  | cons w l ih =>
    obtain ⟨k, x, h⟩ := ih (sendWhistle s w 0 true)
    exact ⟨k, x, h⟩

/-- Watches that fire leave the armed list and send whistles. -/
theorem fireWatches_frame (s : State) (n : Nat) :
    ∃ k a x, fireWatches s n = putSync (putCtrs s k) { s.sync with armed := a, whistles := x } := by
  unfold fireWatches
  dsimp only
  generalize sortBy _ _ = l
  generalize List.filter _ s.sync.armed = a
  obtain ⟨k, x, h⟩ := sendWhistles_frame l (putSync s { s.sync with armed := a })
  exact ⟨k, a, x, h⟩

/-- An operation gives its counter a new record of the same owner, raises an overflow, and fires watches. -/
theorem applyOp_eq (s : State) (n op x unit : Nat) (counted : Option Nat) :
    ∃ v, applyOp s n op x unit counted = fireWatches (hubCtr
        (if op = 1 ∧ 0xFFFFFFFFFFFFFFFF < (getCounter s n).value + x then
          raise (putCounter s n v) 0x0402 (getCounter s n).owner unit [n] else putCounter s n v) n 1 1) n ∧
      v.value = counterOp (getCounter s n).value op x ∧ v.owner = (getCounter s n).owner :=
  ⟨_, rfl, rfl, rfl⟩

/-- An event touches the counter objects and the event log alone. -/
theorem raise_frame (s : State) (code part unit : Nat) (args : List Nat) :
    ∃ k l, raise s code part unit args = putLog (putCtrs s k) l := ⟨_, _, rfl⟩

/-- An operation writes one counter's record and fires watches; beside the hubs it touches the counter objects and the
event log. -/
theorem applyOp_frame (s : State) (n op x unit : Nat) (counted : Option Nat) :
    ∃ k l a y v, applyOp s n op x unit counted = putSync (putLog (putCtrs s k) l)
        { s.sync with counters := mset Counter.reset s.sync.counters n v, armed := a, whistles := y } ∧
      v.value = counterOp (getCounter s n).value op x ∧ v.owner = (getCounter s n).owner := by
  obtain ⟨v, happly, hvalue, howner⟩ := applyOp_eq s n op x unit counted
  rw [happly]
  split
  · obtain ⟨k0, l, hraise⟩ := raise_frame (putCounter s n v) 0x0402 (getCounter s n).owner unit [n]
    obtain ⟨k, a, y, h⟩ := fireWatches_frame (hubCtr (putLog (putCtrs (putCounter s n v) k0) l) n 1 1) n
    exact ⟨k, l, a, y, v, by rw [hraise, h]; rfl, hvalue, howner⟩
  · obtain ⟨k, a, y, h⟩ := fireWatches_frame (hubCtr (putCounter s n v) n 1 1) n
    exact ⟨k, s.log, a, y, v, h, hvalue, howner⟩

/-! ## Stores of a work core to counter lines (R261, R262) -/

/-- The stores that a hub takes from a core of the counter's partition: ADD of 1 to 65,535, MAX, and INIT while the job is
stopped. -/
def StoreTaken (s : State) (p op v : Nat) : Prop :=
  (op = 1 ∧ 1 ≤ v ∧ v ≤ 65535) ∨ op = 2 ∨ (op = 3 ∧ (getPart s p).state = .stopped)

theorem counterStore_taken {s : State} {c n p op v : Nat} (goes : coreGoes s c = true) (part : partOfCore s c = some p)
    (tag : isStale s (coreUnit s c) = false) (owns : ownsCounter s p n = true) (taken : StoreTaken s p op v) :
    counterStore s c n op v = applyOp s n op v (coreUnit s c) none := by
  unfold counterStore
  simp only [goes, tag, part, owns, Bool.not_true, Bool.false_eq_true, if_false, Bool.true_and]
  obtain ⟨rfl, low, high⟩ | rfl | ⟨rfl, stopped⟩ := taken
  · simp [low, high]
  · rfl
  · simp [stopped]

/-- A store that its hub takes is its operation on that counter, and leaves every other counter, memory and tiles alone. -/
theorem coreSignal_taken {s : State} {c n p op v : Nat} (goes : coreGoes s c = true) (part : partOfCore s c = some p)
    (tag : isStale s (coreUnit s c) = false) (owns : ownsCounter s p n = true) (visible : settled s p = true)
    (awake : domAwake s (20 + hubOf n) = true) (taken : StoreTaken s p op v) :
    let u := coreSignal s c n op v
    (getCounter u n).value = counterOp (getCounter s n).value op v ∧ (getCounter u n).owner = p ∧
      (∀ k, k ≠ n → getCounter u k = getCounter s k) ∧ u.mem = s.mem ∧ u.tiles = s.tiles := by
  have covers : coreCovers s c = true := by simp [coreCovers, part, visible]
  have owner : (getCounter s n).owner = p := by
    obtain ⟨-, h⟩ : _ ∧ (getCounter s n).owner = p := by simpa [ownsCounter] using owns
    exact h
  obtain ⟨w, hw⟩ := onceAtHub_awake awake
  have hstore : coreSignal s c n op v = applyOp (putPower s w) n op v (coreUnit s c) none :=
    (if_pos covers).trans ((hw _).trans (counterStore_taken (s := putPower s w) goes part tag owns taken))
  obtain ⟨k, l, a, y, r, happly, hvalue, howner⟩ := applyOp_frame (putPower s w) n op v (coreUnit s c) none
  rw [hstore, happly]
  refine ⟨?_, ?_, fun k other => mget_mset_ne _ _ _ other, rfl, rfl⟩
  · exact (congrArg Counter.value (mget_mset_same _ _ _ _)).trans hvalue
  · exact (congrArg Counter.owner (mget_mset_same _ _ _ _)).trans (howner.trans owner)

/-- Settles O14: ADD, MAX and INIT are stores that the hub takes, each with its own operation. -/
theorem counterStoresApplyToOwnedCounters : Obligations.CounterStoresApplyToOwnedCounters := by
  intro s p c n v goes part tag owns visible awake sets
  have store := fun op => coreSignal_taken (op := op) (v := v.toNat) goes part tag owns visible awake
  refine ⟨?add, ?max, ?init⟩
  case add => exact fun low high => ⟨_, rfl, store 1 (.inl ⟨rfl, low, high⟩)⟩
  case max => exact ⟨_, rfl, store 2 (.inr (.inl rfl))⟩
  case init => exact fun stopped => ⟨_, rfl, store 3 (.inr (.inr ⟨rfl, stopped⟩))⟩

/-! ## Signals on their way and held remote signals (R261 to R268) -/

/-- A local signal of a unit with a good tag is its operation on a counter that its partition owns. -/
theorem hubApply_owned {s : State} {g : Signal} (tag : isStale s g.unit = false) (owns : ownsCounter s g.part g.ctr = true) :
    hubApply s g = applyOp s g.ctr (if g.isMax then 2 else 1) g.operand g.unit g.counted := by
  unfold hubApply
  rw [if_neg (ne_true_of_eq_false tag), if_pos owns]

/-- HUB_SIGNAL_APPLY of the oldest signal of its unit, stream and counter. -/
theorem exec_hubSignalApply {s : State} {k : Nat} {g : Signal} (hk : s.sync.signals[k]? = some g)
    (oldest : earlierSignal s.sync.signals k g = false) (tag : isStale s g.unit = false)
    (owns : ownsCounter s g.part g.ctr = true) (visible : settled s g.part = true)
    (awake : domAwake s (20 + hubOf g.ctr) = true) :
    ∃ w, exec (.hubSignalApply k) s = .next (applyOp
      (putSync (putPower s w) { s.sync with signals := dropAt s.sync.signals k }) g.ctr (if g.isMax then 2 else 1) g.operand
      g.unit g.counted) := by
  obtain ⟨w, hw⟩ := onceAtHub_awake awake
  refine ⟨w, ?_⟩
  show execHubSignalApply k s = _
  unfold execHubSignalApply
  rw [hk]
  dsimp only
  rw [if_neg (ne_true_of_eq_false oldest), onceSettled_settled visible, hw]
  exact congrArg Host.Outcome.next (hubApply_owned (g := g) tag owns)

/-- A kept signal that is held again, or kept on, touches those two lists and the counter objects alone. -/
theorem holdSignals_frame (l : List HeldSignal) (s : State) :
    ∃ k x y, l.foldl holdSignal s = putSync (putCtrs s k) { s.sync with held := s.sync.held ++ x, kept := y } := by
  induction l generalizing s with
  | nil =>
    refine ⟨s.ctr, [], s.sync.kept, ?_⟩
    rw [List.append_nil]
    rfl
  | cons h l ih =>
    obtain ⟨k, x, y, hl⟩ := ih (holdSignal s h)
    rw [List.foldl_cons, hl]
    unfold holdSignal
    split
    · refine ⟨k, [h] ++ x, y, ?_⟩
      rw [← List.append_assoc]
      rfl
    · exact ⟨k, x, y, rfl⟩

/-- The hubs take kept signals behind those that they hold, and none where none was kept. -/
theorem admitKept_frame (s : State) :
    ∃ k x y, admitKept s = putSync (putCtrs s k) { s.sync with held := s.sync.held ++ x, kept := y } ∧
      (s.sync.kept = [] → x = []) := by
  by_cases hkept : s.sync.kept = []
  · refine ⟨s.ctr, [], [], ?_, fun _ => rfl⟩
    unfold admitKept
    rw [hkept, List.append_nil]
    rfl
  · obtain ⟨k, x, y, h⟩ := holdSignals_frame s.sync.kept (putSync s { s.sync with kept := [] })
    exact ⟨k, x, y, h, fun empty => absurd empty hkept⟩

/-- HELD_SIGNAL_APPLY of the oldest held signal of its flow, once its data landed. -/
theorem exec_heldSignalApply {s : State} {k : Nat} {h : HeldSignal} (hk : s.sync.held[k]? = some h)
    (oldest : (s.sync.held.take k).any (fun g => g.peer == h.peer && g.part == h.part) = false)
    (landed : markLanded s h = true) (owns : ownsCounter s h.part h.ctr = true)
    (awake : domAwake s (20 + hubOf h.ctr) = true) :
    ∃ w, exec (.heldSignalApply k) s = .next (admitKept (settleSeq (applyOp
      (putSync (putPower s w) { s.sync with held := dropAt s.sync.held k }) h.ctr (if h.isMax then 2 else 1) h.operand
      (unitId 0 6 0 h.peer) none) h.peer h.part h.seq)) := by
  obtain ⟨w, hw⟩ := onceAtHub_awake awake
  have happly : applyRemote (putSync (putPower s w) { s.sync with held := dropAt s.sync.held k }) h =
      settleSeq (applyOp (putSync (putPower s w) { s.sync with held := dropAt s.sync.held k }) h.ctr
        (if h.isMax then 2 else 1) h.operand (unitId 0 6 0 h.peer) none) h.peer h.part h.seq :=
    congrArg (settleSeq · h.peer h.part h.seq) (if_pos owns)
  refine ⟨w, ?_⟩
  show execHeldSignalApply k s = _
  unfold execHeldSignalApply
  rw [hk]
  dsimp only
  rw [if_neg (by simp [oldest, landed]), hw, ← happly]
  rfl

/-- Settles O15: a signal on its way and a held one are their operations; the held list grows by kept signals alone. -/
theorem signalsApplyAtTheirHub : Obligations.SignalsApplyAtTheirHub := by
  refine ⟨?onTheWay, ?held⟩
  case onTheWay =>
    intro s k g hk oldest tag owns visible awake
    obtain ⟨w, hexec⟩ := exec_hubSignalApply hk oldest tag owns visible awake
    obtain ⟨c, l, a, y, r, happly, hvalue, -⟩ := applyOp_frame
      (putSync (putPower s w) { s.sync with signals := dropAt s.sync.signals k }) g.ctr (if g.isMax then 2 else 1) g.operand
      g.unit g.counted
    refine ⟨_, hexec, ?_⟩
    rw [happly]
    exact ⟨(congrArg Counter.value (mget_mset_same _ _ _ _)).trans hvalue, rfl, fun n other => mget_mset_ne _ _ _ other⟩
  case held =>
    intro s k h hk oldest landed owns awake
    obtain ⟨w, hexec⟩ := exec_heldSignalApply hk oldest landed owns awake
    obtain ⟨c, l, a, y, r, happly, hvalue, -⟩ := applyOp_frame
      (putSync (putPower s w) { s.sync with held := dropAt s.sync.held k }) h.ctr (if h.isMax then 2 else 1) h.operand
      (unitId 0 6 0 h.peer) none
    rw [happly] at hexec
    generalize hsettled : settleSeq _ h.peer h.part h.seq = u at hexec
    have hsync : u.sync = { s.sync with
        held := dropAt s.sync.held k, counters := mset Counter.reset s.sync.counters h.ctr r, armed := a, whistles := y } := by
      rw [← hsettled]
      rfl
    obtain ⟨c', more, y', hadmit, hnone⟩ := admitKept_frame u
    rw [hadmit, hsync] at hexec
    rw [hsync] at hnone
    refine ⟨_, hexec, ?_, List.prefix_append _ more, fun empty => ?_, fun n other => mget_mset_ne _ _ _ other⟩
    · exact (congrArg Counter.value (mget_mset_same _ _ _ _)).trans hvalue
    · show dropAt s.sync.held k ++ more = _
      rw [hnone empty, List.append_nil]

/-! ## Watches (R271, R272, R274) -/

/-- A WATCH that waited for its slot completes in its tile; nothing else changes. -/
theorem watchAdmitted_frame (s : State) (w : Watch) : ∃ v, watchAdmitted s w = { s with tiles := v } := by
  unfold watchAdmitted
  split
  · dsimp only
    split
    · exact ⟨_, rfl⟩
    · exact ⟨s.tiles, rfl⟩
  · exact ⟨s.tiles, rfl⟩

/-- Between `s` and `u` the watch took a slot: it fired at once, with the counter's value, or it is armed (R272). -/
def Admits (s u : State) (w : Watch) : Prop :=
  (w.target ≤ (getCounter s w.ctr).value →
    u.sync.whistles = s.sync.whistles ++ [⟨w, 0, (getCounter s w.ctr).value, true⟩] ∧ u.sync.armed = s.sync.armed) ∧
  ((getCounter s w.ctr).value < w.target →
    u.sync.armed = s.sync.armed ++ [w] ∧ u.sync.whistles = s.sync.whistles)

/-- A watch that takes a slot fires or is armed; the registrations that come after it stay. -/
theorem admitWatch_admits (s : State) (w : Watch) :
    Admits s (admitWatch s w) w ∧ (admitWatch s w).sync.registering = s.sync.registering ∧
      (admitWatch s w).sync.slotWaits = s.sync.slotWaits := by
  obtain ⟨v, hv⟩ := watchAdmitted_frame s w
  unfold admitWatch
  rw [hv]
  dsimp only
  by_cases fires : w.target ≤ (getCounter s w.ctr).value
  · have hfires : w.target ≤ (getCounter { s with tiles := v } w.ctr).value := fires
    rw [if_pos hfires]
    exact ⟨⟨fun _ => ⟨rfl, rfl⟩, fun below => absurd fires (Nat.not_le.mpr below)⟩, rfl, rfl⟩
  · have hfires : ¬ w.target ≤ (getCounter { s with tiles := v } w.ctr).value := fires
    rw [if_neg hfires]
    split
    all_goals exact ⟨⟨fun h => absurd h fires, fun _ => ⟨rfl, rfl⟩⟩, rfl, rfl⟩

@[simp] theorem biased_ctr (s : State) (w : Watch) : (biased s w).ctr = w.ctr := by
  unfold biased
  dsimp only
  split <;> rfl

@[simp] theorem biased_part (s : State) (w : Watch) : (biased s w).part = w.part := by
  unfold biased
  dsimp only
  split <;> rfl

/-- A registration on an OWNED counter with a free slot takes it, its target biased. -/
theorem registerWatch_free {s : State} {w : Watch} (owned : (getCounter s w.ctr).state = 1)
    (free : slotFree s (hubOf w.ctr) w.part = true) : registerWatch s w = admitWatch s (biased s w) := by
  unfold registerWatch
  dsimp only
  rw [biased_ctr, biased_part, if_neg (not_not_intro owned), if_pos free]

/-- WATCH_REGISTER of a unit with a good tag on an OWNED counter with a free slot, at its ACTIVE hub. -/
theorem exec_watchRegister {s : State} {k : Nat} {w : Watch} (hk : s.sync.registering[k]? = some w)
    (owned : (getCounter s w.ctr).state = 1) (free : slotFree s (hubOf w.ctr) w.part = true)
    (awake : domAwake s (20 + hubOf w.ctr) = true) (tag : ∀ id, waiterUnit w = some id → isStale s id = false) :
    ∃ pw, exec (.watchRegister k) s = .next (admitWatch
      (putSync (putPower s pw) { s.sync with registering := dropAt s.sync.registering k }) (biased s w)) := by
  obtain ⟨pw, hw⟩ := onceAtHub_awake awake
  have hreg := registerWatch_free (w := w)
    (s := putSync (putPower s pw) { s.sync with registering := dropAt s.sync.registering k }) owned free
  refine ⟨pw, Eq.trans ?_ (congrArg Host.Outcome.next hreg)⟩
  show execWatchRegister k s = _
  unfold execWatchRegister
  rw [hk]
  dsimp only
  rw [hw]
  cases hu : waiterUnit w with
  | none => rfl
  | some id => exact congrArg Host.Outcome.next (if_neg (ne_true_of_eq_false (tag id hu)))

/-- WATCH_SLOT_FREED of a registration whose hub has a slot for it. -/
theorem exec_watchSlotFreed {s : State} {k : Nat} {w : Watch} (hk : s.sync.slotWaits[k]? = some w)
    (free : slotFree s (hubOf w.ctr) w.part = true) :
    exec (.watchSlotFreed k) s =
      .next (admitWatch (putSync s { s.sync with slotWaits := dropAt s.sync.slotWaits k }) w) := by
  show execWatchSlotFreed k s = _
  unfold execWatchSlotFreed
  rw [hk]
  exact if_pos free

/-- WATCH_TIMEOUT of an armed watch with a timeout: it leaves the list, and its whistle carries TIMEOUT. -/
theorem exec_watchTimeout_armed {s : State} {k : Nat} {w : Watch} (hk : s.sync.armed[k]? = some w) (timed : w.timeout ≠ 0) :
    let s1 := wakeDomain (putSync s { s.sync with armed := dropAt s.sync.armed k }) (20 + hubOf w.ctr)
    exec (.watchTimeout 2 k) s = .next (sendWhistle (hubCtr (watchAdmitted s1 w) w.ctr 6 1) w 2 true) := by
  intro s1
  show execWatchTimeout 2 k s = _
  simp [execWatchTimeout, hk, timed, s1]

@[simp] theorem wakeDomain_sync (s : State) (i : Nat) : (wakeDomain s i).sync = s.sync := by
  obtain ⟨c, pw, h, -, -⟩ := wakeDomain_eq s i
  rw [h]
  rfl

@[simp] theorem watchAdmitted_sync (s : State) (w : Watch) : (watchAdmitted s w).sync = s.sync := by
  obtain ⟨v, h⟩ := watchAdmitted_frame s w
  rw [h]

@[simp] theorem hubCtr_sync (s : State) (n sub k : Nat) : (hubCtr s n sub k).sync = s.sync := rfl

@[simp] theorem sendWhistle_sync (s : State) (w : Watch) (status : Nat) (slot : Bool) :
    (sendWhistle s w status slot).sync = { s.sync with
      whistles := s.sync.whistles ++ [⟨w, status, (getCounter s w.ctr).value, slot⟩] } := rfl

/-! ## Whistles (R273, R281, R292, R420) -/

/-- WHISTLE_ARRIVAL at a waiter that is awake, has a good tag, and is a work item or of a partition that is not
pre-empted. -/
theorem exec_whistleArrival {s : State} {k : Nat} {x : Whistle} (hk : s.sync.whistles[k]? = some x)
    (goes : (getPart s x.w.part).state ≠ .preempted ∨ ∃ d slot, x.w.waiter = .item d slot)
    (awake : asleepDom s x.w = none) (tag : ∀ id, waiterUnit x.w = some id → isStale s id = false) :
    exec (.whistleArrival k) s =
      .next (deliver (wakeWaiter (putSync s { s.sync with whistles := dropAt s.sync.whistles k }) x.w) x) := by
  show execWhistleArrival k s = _
  unfold execWhistleArrival
  rw [hk]
  dsimp only
  rw [if_neg (by obtain h | ⟨d, slot, h⟩ := goes <;> simp [h]), awake]
  cases hu : waiterUnit x.w with
  | none => rfl
  | some id => exact if_neg (ne_true_of_eq_false (tag id hu))

/-- WHISTLE_ARRIVAL at a waiter whose domain is not ACTIVE wakes it. -/
theorem exec_whistleArrival_asleep {s : State} {k i : Nat} {x : Whistle} (hk : s.sync.whistles[k]? = some x)
    (goes : (getPart s x.w.part).state ≠ .preempted) (asleep : asleepDom s x.w = some i) :
    exec (.whistleArrival k) s = .next (wakeDomain s i) := by
  show execWhistleArrival k s = _
  unfold execWhistleArrival
  rw [hk]
  dsimp only
  rw [if_neg (by simp [goes]), asleep]

/-- A whistle at its waiter's domain changes the counter objects and the power record alone. -/
theorem wakeWaiter_frame (s : State) (w : Watch) : ∃ c pw, wakeWaiter s w = putPower (putCtrs s c) pw := by
  unfold wakeWaiter
  split
  · next i _ =>
    obtain ⟨c, pw, h, -, -⟩ := wakeDomain_eq s i
    exact ⟨c, pw, h⟩
  · exact ⟨s.ctr, s.power, rfl⟩

/-- A whistle that is delivered to a work item: the hubs stay, and the item that watched becomes READY (R292). -/
theorem deliver_item {x : Whistle} {d slot : Nat} (item : x.w.waiter = .item d slot) (s : State) :
    (deliver s x).sync = s.sync ∧ (deliver s x).sched.items = s.sched.items.map (fun i =>
      if i.die = d ∧ i.slot = slot ∧ i.state = 1 then
        { i with state := 2, status := x.status, value := x.value, enqNs := nowNs s } else i) := by
  have hdeliver : deliver s x = deliverItem (traceRecord s 1 ((waiterUnit x.w).getD 0) x.w.part (whistleTrace x)) d slot
      x.status x.value := by
    unfold deliver
    rw [item]
  obtain ⟨m, e, k, w, r, htrace, -, -⟩ := traceRecord_frame s 1 ((waiterUnit x.w).getD 0) x.w.part (whistleTrace x)
  rw [hdeliver, htrace]
  exact ⟨rfl, rfl⟩

/-- Settles O16: a watch that takes a slot or times out, a whistle that arrives or wakes its waiter, and a snapshot. -/
theorem watchesFireAndWhistlesArrive : Obligations.WatchesFireAndWhistlesArrive := by
  refine ⟨⟨?registers, ?slotFreed, ?timesOut⟩, ?arrives, ?item, ?wakes, ?snapshot⟩
  case registers =>
    intro s k w hk owned free awake tag
    obtain ⟨pw, hexec⟩ := exec_watchRegister hk owned free awake tag
    obtain ⟨hadmits, hreg, -⟩ := admitWatch_admits
      (putSync (putPower s pw) { s.sync with registering := dropAt s.sync.registering k }) (biased s w)
    exact ⟨_, hexec, hreg, hadmits⟩
  case slotFreed =>
    intro s k w hk free
    obtain ⟨hadmits, -, hwaits⟩ := admitWatch_admits
      (putSync s { s.sync with slotWaits := dropAt s.sync.slotWaits k }) w
    exact ⟨_, exec_watchSlotFreed hk free, hwaits, hadmits⟩
  case timesOut =>
    intro s k w hk timed
    exact ⟨_, exec_watchTimeout_armed hk timed, by simp, by simp [getCounter]⟩
  case arrives =>
    intro s k x hk goes awake tag
    exact exec_whistleArrival hk (.inl goes) awake tag
  case item =>
    intro s k d slot x hk item awake
    have untagged : ∀ id, waiterUnit x.w = some id → isStale s id = false := by simp [waiterUnit, item]
    refine ⟨_, exec_whistleArrival hk (.inr ⟨d, slot, item⟩) awake untagged, ?_⟩
    obtain ⟨c, pw, hwake⟩ := wakeWaiter_frame (putSync s { s.sync with whistles := dropAt s.sync.whistles k }) x.w
    rw [hwake]
    obtain ⟨hsync, hitems⟩ := deliver_item item
      (putPower (putCtrs (putSync s { s.sync with whistles := dropAt s.sync.whistles k }) c) pw)
    exact ⟨congrArg Sync.whistles hsync, hitems⟩
  case wakes =>
    intro s k i x hk goes asleep
    exact exec_whistleArrival_asleep hk goes asleep
  case snapshot =>
    intro s n small
    exact if_pos small

/-! ## SIGNAL, WATCH and WAIT at a tile engine (R263, R264, R270, R328 to R331) -/

/-- The start of a local SIGNAL of an owned counter, on a tile with nothing under way that it must cover. -/
theorem startSignal_leaves {s : State} {p t : Nat} {q : QInstr} (owns : ownsCounter s p (fld q.w 89 76) = true)
    (idle : (getTile s t).inflight = []) : startSignal s p t q = .done (emitSignal s p t q) := by
  simp [startSignal, owns, uncovered, idle]

/-- The start of a WATCH that breaks no rule and has a slot to be had. -/
theorem startWatch_arms {s : State} {p t : Nat} {q : QInstr} (ok : watchFault s p t q = none)
    (slot : slotLikely s (hubOf (fld q.w 97 84)) p = true) : startWatch s p t q = .done (armRegister s p t q) := by
  simp [startWatch, ok, slot]

/-- The start of an inline WAIT that breaks no rule. -/
theorem startWait_inline {s : State} {p t : Nat} {q : QInstr} (form : wForm q.w = 1) (ok : watchFault s p t q = none) :
    startWait s p t q = .going (armRegister s p t q) (.watch (fld q.w 101 100)) 0 := by
  simp [startWait, form, ok]

/-- The start of a WAIT on an armed register that fired with SATISFIED. -/
theorem startWait_fired {s : State} {p t : Nat} {q : QInstr} {r : WatchReg} (form : wForm q.w = 0)
    (hr : getWatch (getTile s t) q.x (lastEng q.w) (fld q.w 101 100) = r) (armed : r.armed = true)
    (fired : r.fired = true) (satisfied : r.status = 0) :
    startWait s p t q = .done (putTile s t
      (putWatch (getTile s t) q.x (lastEng q.w) (fld q.w 101 100) { r with armed := false })) := by
  simp [startWait, form, hr, armed, fired, satisfied]

theorem startClass_signal (s : State) (p t : Nat) {q : QInstr} (cls : wClass q.w = 0x20) (here : fld q.w 100 100 = 0) :
    startClass s p t q = startSignal s p t q := by
  simp only [startClass, cls, here]
  rfl

theorem startClass_watch (s : State) (p t : Nat) {q : QInstr} (cls : wClass q.w = 0x21) :
    startClass s p t q = startWatch s p t q := by
  simp only [startClass, cls]

theorem startClass_wait (s : State) (p t : Nat) {q : QInstr} (cls : wClass q.w = 0x22) :
    startClass s p t q = startWait s p t q := by
  simp only [startClass, cls]

/-- Settles O8: the start of a SIGNAL, a WATCH or a WAIT on an idle tile. -/
theorem signalWatchAndWaitAct : Obligations.SignalWatchAndWaitAct := by
  intro s p t x w wg wh wt sg sh st
  have signalClass : wClass wg = 0x20 := wClass_classWord 0x20 w (by omega)
  have watchClass : wClass wh = 0x21 := wClass_classWord 0x21 w (by omega)
  have waitClass : wClass wt = 0x22 := wClass_classWord 0x22 w (by omega)
  refine ⟨?signal, ?watch, ?inline, ?fired⟩
  case signal =>
    intro hS here owns
    obtain ⟨-, idle, -⟩ := startState_tile hS
    exact congrArg Host.Outcome.next (tileInstr_done hS ((startClass_signal sg p t (q := nextInstr s p t x wg)
      signalClass here).trans (startSignal_leaves owns idle)))
  case watch =>
    intro hS ok slot
    exact congrArg Host.Outcome.next (tileInstr_done hS ((startClass_watch sh p t (q := nextInstr s p t x wh)
      watchClass).trans (startWatch_arms ok slot)))
  case inline =>
    intro hS form ok
    exact congrArg Host.Outcome.next (tileInstr_going hS ((startClass_wait st p t (q := nextInstr s p t x wt)
      waitClass).trans (startWait_inline form ok)))
  case fired =>
    intro r hS form armed fired satisfied
    exact congrArg Host.Outcome.next (tileInstr_done hS ((startClass_wait st p t (q := nextInstr s p t x wt)
      waitClass).trans (startWait_fired form rfl armed fired satisfied)))

end Sys2Proof.Machine

/-! The queue of waiting commands (12 R265, 20 R455). -/

namespace Sys2Proof.Machine

theorem step_front {s : State} {c : Instr} {l : List Instr} (front : s.pending = c :: l) :
    step s = exec c (s.withPending l) := by
  unfold step
  rw [front]

theorem step_idle {s : State} (idle : s.pending = []) : step s = .next (tick s) := by
  unfold step
  rw [idle]

/-- Settles O54: the front command runs with the queue's rest; an empty queue is a tick. -/
theorem aStepRunsTheFrontCommand : Obligations.AStepRunsTheFrontCommand := by
  refine ⟨?front, ?pushed, ?idle⟩
  case front =>
    intro c l s front
    exact step_front front
  case pushed =>
    intro c s
    exact step_front (State.withPending_pending s (c :: s.pending))
  case idle =>
    intro s idle
    exact step_idle idle

end Sys2Proof.Machine

/-! The work schedulers (13 R289 to R296): a descriptor that takes a slot adds one item to the list; a core that takes an item
marks it as running and starts with its registers. -/

namespace Sys2Proof.Machine

/-! ## A descriptor takes a slot (R289, R291, R292) -/

@[simp] theorem requestWatch_sched (s : State) (ctr target : Nat) (waiter : Waiter) (part tag timeout : Nat) :
    (requestWatch s ctr target waiter part tag timeout).sched = s.sched := rfl

/-- A descriptor that takes a slot adds its item behind the others; the schedulers change in nothing else. -/
theorem takeSlot_sched (s : State) (d p : Nat) (x : BitVec 512) :
    ∃ it : Item, (takeSlot s d p x).sched = { s.sched with items := s.sched.items ++ [it] } ∧ it.die = d ∧
      it.slot = freeSlot s d ∧ it.part = p ∧ it.desc = x ∧ it.level = itemFld x 6 4 ∧
      it.state = (if itemFld x 191 160 = 0xFFFFFFFF then 2 else 1) := by
  unfold takeSlot
  dsimp only
  split
  all_goals exact ⟨_, rfl, rfl, rfl, rfl, rfl, rfl, rfl⟩

/-- The wake at the port touches neither what R290 asks of a descriptor nor the slots: one that is not refused takes its
slot after the wake. -/
theorem enqueue_accepted {s : State} {d p : Nat} {src : EnqSource} {x : BitVec 512}
    (accepted : refusalOf s d p (src == .module) x = none) (room : slotOpen s d p = true) :
    ∃ c w, enqueue s d p src true x = (takeSlot (putPower (putCtrs s c) w) d p x, false) := by
  obtain ⟨c, w, hwake, -, -⟩ := wakeDomain_eq s (20 + d)
  have haccepted : refusalOf (putPower (putCtrs s c) w) d p (src == .module) x = none := accepted
  have hroom : slotOpen (putPower (putCtrs s c) w) d p = true := room
  refine ⟨c, w, ?_⟩
  simp only [enqueue, hwake, haccepted, hroom, Bool.not_true, Bool.false_eq_true, if_false, if_true]

/-- ENQUEUE of a core that runs an item of partition p with a good tag is the write at the port. -/
theorem exec_enqueue {s : State} {p : Nat} {c : Fin 96} (goes : coreGoes s c = true) (part : partOfCore s c = some p)
    (tag : isStale s (coreUnit s c) = false) (d : Fin 4) (whole : Bool) (x : BitVec 512) :
    exec (.enqueue d c whole x) s = .next (enqueue s d p (.core c) whole x).1 := by
  show execEnqueue d c whole x s = _
  simp only [execEnqueue, goes, coreEnqueue, fromCore, tag, part, Bool.false_eq_true, if_true, if_false]

/-! ## A held enqueue write takes a slot (R291) -/

/-- The writer that goes on is a tile or a flow of the fabric; the schedulers stay. -/
@[simp] theorem releaseWriter_sched (s : State) (p : Nat) (src : EnqSource) : (releaseWriter s p src).sched = s.sched := by
  cases src with
  | tile t x seq =>
    unfold releaseWriter
    dsimp only
    split <;> rfl
  | core c => rfl
  | flow peer seq => rfl
  | module => rfl

/-- ENQUEUE_SLOT_FREED of a write whose writer kept its place, with a slot open. -/
theorem exec_enqueueSlotFreed {s : State} {k : Nat} {h : HeldEnq} (hk : s.sched.held[k]? = some h)
    (writer : staleWriter s h = none) (room : slotOpen s h.die h.part = true) :
    exec (.enqueueSlotFreed k) s = .next (releaseWriter (takeSlot
      (putSched s { s.sched with held := dropAt s.sched.held k }) h.die h.part h.desc) h.part h.src) := by
  show execEnqueueSlotFreed k s = _
  simp only [execEnqueueSlotFreed, hk, writer, room, if_true]

/-! ## A free core takes an item (R293, R296) -/

@[simp] theorem traceRecord_sched (s : State) (source unit part payload : Nat) :
    (traceRecord s source unit part payload).sched = s.sched := by
  obtain ⟨m, e, k, w, r, h, -, -⟩ := traceRecord_frame s source unit part payload
  rw [h]

@[simp] theorem takeSetting_sched (s : State) (unit idx sub : Nat) : (takeSetting s unit idx sub).sched = s.sched := rfl

@[simp] theorem nowNs_takeSetting (s : State) (unit idx sub : Nat) : nowNs (takeSetting s unit idx sub) = nowNs s := rfl

/-- The items once a core has taken one of them: that one runs on the core from now on. -/
def itemsStarted (s : State) (c : Nat) (i : Item) : List Item :=
  s.sched.items.map (fun j =>
    if j.die = i.die ∧ j.slot = i.slot then { j with state := 3, core := c, startNs := nowNs s } else j)

@[simp] theorem itemsStarted_takeSetting (s : State) (unit idx sub c : Nat) (i : Item) :
    itemsStarted (takeSetting s unit idx sub) c i = itemsStarted s c i := by
  rw [itemsStarted, nowNs_takeSetting, takeSetting_sched, itemsStarted]

/-- A counter that keeps the largest value seen touches the counter objects alone. A lemma of its own: the
kernel does not compare two states well through this branch. -/
theorem peakCtr_frame (s : State) (idx sub v : Nat) :
    ∃ k, (if getCtr s idx sub < v then setCtr s idx sub v else s) = putCtrs s k := by
  split
  · exact ⟨_, rfl⟩
  · exact ⟨s.ctr, rfl⟩

/-- A core that takes an item takes its die's setting, writes the items and its own record, counts, and is traced. -/
theorem startItem_eq (s : State) (c : Nat) (i : Item) :
    ∃ co k unit payload, co.busy = true ∧ co.regs = itemRegs i ∧
      startItem s c i = traceRecord (putCtrs (putSched (takeSetting s (i.die + 1) 0x3600 4) { s.sched with
        items := itemsStarted (takeSetting s (i.die + 1) 0x3600 4) c i
        cores := mset Core.reset s.sched.cores c co }) k) 2 unit i.part payload := by
  rw [startItem]
  dsimp only
  rw [(peakCtr_frame _ _ _ _).choose_spec]
  exact ⟨_, _, _, _, rfl, rfl, rfl⟩

/-- A core that takes an item is busy with the item's registers, and the item is marked as running on it. -/
theorem startItem_starts (s : State) (c : Nat) (i : Item) :
    coreActive (startItem s c i) c = true ∧ (mget Core.reset (startItem s c i).sched.cores c).regs = itemRegs i ∧
      (startItem s c i).sched.items = itemsStarted s c i := by
  obtain ⟨co, k, unit, payload, hbusy, hregs, hstart⟩ := startItem_eq s c i
  have hsched : (startItem s c i).sched = { s.sched with
      items := itemsStarted s c i, cores := mset Core.reset s.sched.cores c co } := by
    rw [hstart, traceRecord_sched, putCtrs_sched, putSched_sched, itemsStarted_takeSetting]
  rw [coreActive, hsched, mget_mset_same]
  exact ⟨hbusy, hregs, rfl⟩

/-- ITEM_DISPATCH at a free core that is the first to choose. -/
theorem exec_itemDispatch {s : State} {p : Nat} {c : Fin 96} {i : Item} (free : coreFree s c = true)
    (part : partOfCore s c = some p) (choice : chooseItem (runnable s c p) = some i) (first : yieldsTo s c = false) :
    exec (.itemDispatch c) s = .next (startItem s c i) := by
  have hchoice : coreChoice s c = some i := by simp [coreChoice, part, choice]
  show execItemDispatch c s = _
  simp [execItemDispatch, dispatchItem, free, hchoice, first]

/-- Settles O17: an enqueue write and a held one take their slot; a free core takes the item chosen for it. -/
theorem workItemsAreQueuedAndDispatched : Obligations.WorkItemsAreQueuedAndDispatched := by
  refine ⟨?enqueue, ?held, ?dispatch⟩
  case enqueue =>
    intro s p d c desc goes part tag accepted room
    obtain ⟨k, w, hport⟩ := enqueue_accepted (src := .core c) accepted room
    obtain ⟨it, hsched, fields⟩ := takeSlot_sched (putPower (putCtrs s k) w) d p desc
    refine ⟨_, it, exec_enqueue goes part tag d true desc, ?_, fields⟩
    rw [hport, hsched]
    rfl
  case held =>
    intro s k h hk writer room
    obtain ⟨it, hsched, -, hslot, -, hdesc, -⟩ := takeSlot_sched
      (putSched s { s.sched with held := dropAt s.sched.held k }) h.die h.part h.desc
    refine ⟨_, it, exec_enqueueSlotFreed hk writer room, ?_, ?_, hdesc, hslot⟩
    all_goals rw [releaseWriter_sched, hsched]; rfl
  case dispatch =>
    intro s p c i free part choice first
    exact ⟨_, exec_itemDispatch free part choice first, startItem_starts s c i⟩

end Sys2Proof.Machine

/-! The tile sequencer, and the engines' loads, stores and reductions (02 R31, R32, R40, 14 R307 to R309, R318 to R321, R327).
A word of the control class acts at its dispatch; the others are their class's start on an idle tile. -/

namespace Sys2Proof.Machine

/-! ## The control class (R31, R32, R309) -/

/-- A word of the control class that keeps its stream is recorded and acts at its dispatch. -/
theorem dispatch_control {s : State} {p t : Nat} {x : Stream} {w : BitVec 128} (h : Dispatchable s p t x w)
    (control : enginesOf w = none) (goes : wClass w = 0x01 → stopsAtStep (getPart s p) (getCtl (getTile s t) x) = false) :
    dispatch s t x w = dispatchControl (traced s p t w) p t x w := by
  obtain ⟨may, part, fetch, code⟩ := h
  have hgoes : (wClass w == 0x01 && stopsAtStep (getPart s p) (getCtl (getTile s t) x)) = false := by
    simpa using goes
  unfold dispatch
  simp only [may, part, Option.getD_some, fetch, code, control, Option.isNone_none, hgoes, Bool.not_true, Bool.false_eq_true,
    if_false, if_true]
  rfl

/-- A trace record leaves every tile alone. -/
theorem getTile_traced (s : State) (p t : Nat) (w : BitVec 128) (u : Nat) : getTile (traced s p t w) u = getTile s u := by
  obtain ⟨m, e, k, v, r, hr, -⟩ := traceRecord_frame s 0 (tileUnit s t (firstEng w)) p w.toNat
  rw [traced, hr]
  rfl

/-- A trace record leaves every partition alone. -/
theorem getPart_traced (s : State) (p t : Nat) (w : BitVec 128) (q : Nat) : getPart (traced s p t w) q = getPart s q := by
  obtain ⟨m, e, k, v, r, hr, -⟩ := traceRecord_frame s 0 (tileUnit s t (firstEng w)) p w.toNat
  rw [traced, hr]
  rfl

/-- The command of a control word that keeps its stream. -/
theorem tileInstr_control {s : State} {p t c : Nat} {x : Stream} {w : BitVec 122} (h : Dispatchable s p t x (classWord c w))
    (small : c < 4) (goes : c = 0x01 → stopsAtStep (getPart s p) (getCtl (getTile s t) x) = false) :
    tileInstr s t x (classWord c w) = dispatchControl (traced s p t (classWord c w)) p t x (classWord c w) := by
  have cls : wClass (classWord c w) = c := wClass_classWord c w (by omega)
  have control : enginesOf (classWord c w) = none := by
    unfold enginesOf
    rw [cls]
    interval_cases c <;> rfl
  unfold tileInstr
  dsimp only
  rw [control, Option.isSome_none, if_neg Bool.false_ne_true, dispatch_control h control (by rwa [cls])]

/-- Settles O1: each is its class's case of the control dispatch, after the dispatch's trace record. -/
theorem controlInstructionsMoveTheStream : Obligations.ControlInstructionsMoveTheStream := by
  intro s p t x w after same
  refine ⟨?nop, ?step, ?jump, ?stop⟩
  case nop =>
    intro h
    refine congrArg Host.Outcome.next ((tileInstr_control h (by decide) (by intro; contradiction)).trans ?_)
    simp only [dispatchControl, wClass_classWord 0x00 w (by decide)]
    rfl
  case step =>
    intro h goes
    have goes' : stopsAtStep (getPart (traced s p t (classWord 0x01 w)) p)
        (getCtl (getTile (traced s p t (classWord 0x01 w)) t) x) = false := by rwa [getPart_traced, getTile_traced]
    refine congrArg Host.Outcome.next ((tileInstr_control h (by decide) fun _ => goes).trans ?_)
    simp only [dispatchControl, wClass_classWord 0x01 w (by decide), goes', Bool.false_eq_true, if_false]
    rfl
  case jump =>
    intro h
    refine congrArg Host.Outcome.next ((tileInstr_control h (by decide) (by intro; contradiction)).trans ?_)
    simp only [dispatchControl, wClass_classWord 0x02 w (by decide)]
    rfl
  case stop =>
    intro h
    refine congrArg Host.Outcome.next ((tileInstr_control h (by decide) (by intro; contradiction)).trans ?_)
    simp only [dispatchControl, wClass_classWord 0x03 w (by decide)]
    rfl

/-! ## Reductions and recomputations (R103 to R108, R223, R225, R327) -/

theorem startClass_reduce (s : State) (p t : Nat) {q : QInstr} (h : wClass q.w = 0x19) :
    startClass s p t q = if wForm q.w = 0 then startSlotSum s p t q
      else if wForm q.w = 1 then startSelect s p t q else startAudit s p t q := by
  simp only [startClass, h]

theorem startClass_recompute (s : State) (p t : Nat) {q : QInstr} (h : wClass q.w = 0x1A ∨ wClass q.w = 0x1B) :
    startClass s p t q = startRecompute s t q := by
  obtain h | h := h <;> simp only [startClass, h]

/-- A slot sum that breaks no rule is formed at once, or waits on its tie counter. -/
theorem startSlotSum_sound {s : State} {p t : Nat} {q : QInstr} :
    let d := ownDesc s t (wDesc q.w)
    slotSumFault s p t q d = none → startSlotSum s p t q =
      if slotWaits d then
        .going (requestWatch s (bits d 159 128) (slotTarget s t q d) (.tie t) p (tagOf s t) 0) .tie d
      else .done (runSlotSum s t d) := by
  intro d ok
  unfold startSlotSum
  dsimp only
  rw [ok]

/-- A selection that breaks no rule is written at once. -/
theorem startSelect_sound {s : State} {p t : Nat} {q : QInstr} :
    let d := ownDesc s t (wDesc q.w)
    selectFault s p t d = none → startSelect s p t q = .done (writeSelection s p t d) := by
  intro d ok
  unfold startSelect
  dsimp only
  rw [ok]
  rfl

/-- An audit that breaks no rule is written at once. -/
theorem startAudit_sound {s : State} {p t : Nat} {q : QInstr} :
    let d := ownDesc s t (wDesc q.w)
    auditFault s t d = none → startAudit s p t q = .done (writeAudit s p t d) := by
  intro d ok
  unfold startAudit
  dsimp only
  rw [ok]
  rfl

/-- A recomputation that breaks no rule writes and counts its rows at once. -/
theorem startRecompute_sound {s : State} {t : Nat} {q : QInstr} {norm : Bool} (hn : (wClass q.w == 0x1A) = norm) :
    let d := ownDesc s t (wDesc q.w)
    rcFault norm d = none → startRecompute s t q =
      .done (tileCtr (if norm then runNorm s t d else runSoft s t d) t 0x28 (bits d 111 96)) := by
  intro d ok
  unfold startRecompute
  dsimp only
  rw [hn, ok]
  rfl

section Words

variable {s : State} {p t : Nat} {x : Stream} {w : BitVec 128} (hS : Startable s p t x w)
include hS

/-- A slot sum's word on an idle tile: its sum is written, or it waits on its tie counter (R108, R327). -/
theorem tileInstr_slotSum (cls : wClass w = 0x19) (form : wForm w = 0) :
    let s1 := startState s p t x w
    let q := nextInstr s p t x w
    let d := ownDesc s1 t (wDesc w)
    slotSumFault s1 p t q d = none → tileInstr s t x w =
      if slotWaits d then underWay (requestWatch s1 (bits d 159 128) (slotTarget s1 t q d) (.tie t) p (tagOf s1 t) 0)
        s p t x w .tie d
      else completed (runSlotSum s1 t d) s p t x w := by
  intro s1 q d ok
  have hstart : startClass s1 p t q =
      if slotWaits d then .going (requestWatch s1 (bits d 159 128) (slotTarget s1 t q d) (.tie t) p (tagOf s1 t) 0) .tie d
      else .done (runSlotSum s1 t d) :=
    (startClass_reduce s1 p t (q := q) cls).trans ((if_pos form).trans (startSlotSum_sound ok))
  split
  · next tied => exact tileInstr_going hS (hstart.trans (if_pos tied))
  · next alone => exact tileInstr_done hS (hstart.trans (if_neg alone))

/-- A selection's word on an idle tile (R223). -/
theorem tileInstr_select (cls : wClass w = 0x19) (form : wForm w = 1) :
    let s1 := startState s p t x w
    let d := ownDesc s1 t (wDesc w)
    selectFault s1 p t d = none → tileInstr s t x w = completed (writeSelection s1 p t d) s p t x w := by
  intro s1 d ok
  have hstart : startClass s1 p t (nextInstr s p t x w) = .done (writeSelection s1 p t d) := by
    rw [startClass_reduce s1 p t (q := nextInstr s p t x w) cls, show wForm (nextInstr s p t x w).w = 1 from form,
      if_neg (by decide), if_pos rfl]
    exact startSelect_sound ok
  exact tileInstr_done hS hstart

/-- An audit's word on an idle tile (R225). -/
theorem tileInstr_audit (cls : wClass w = 0x19) (form : wForm w = 2) :
    let s1 := startState s p t x w
    let d := ownDesc s1 t (wDesc w)
    auditFault s1 t d = none → tileInstr s t x w = completed (writeAudit s1 p t d) s p t x w := by
  intro s1 d ok
  have hstart : startClass s1 p t (nextInstr s p t x w) = .done (writeAudit s1 p t d) := by
    rw [startClass_reduce s1 p t (q := nextInstr s p t x w) cls, show wForm (nextInstr s p t x w).w = 2 from form,
      if_neg (by decide), if_neg (by decide)]
    exact startAudit_sound ok
  exact tileInstr_done hS hstart

/-- A NORMRC's or SMAXRC's word on an idle tile (R103 to R106). -/
theorem tileInstr_recompute {norm : Bool} (cls : wClass w = if norm then 0x1A else 0x1B) :
    let s1 := startState s p t x w
    let d := ownDesc s1 t (wDesc w)
    rcFault norm d = none → tileInstr s t x w =
      completed (tileCtr (if norm then runNorm s1 t d else runSoft s1 t d) t 0x28 (bits d 111 96)) s p t x w := by
  intro s1 d ok
  have hclass : wClass w = 0x1A ∨ wClass w = 0x1B := by cases norm <;> simp [cls]
  have hnorm : (wClass w == 0x1A) = norm := by rw [cls]; cases norm <;> rfl
  have hstart : startClass s1 p t (nextInstr s p t x w) =
      .done (tileCtr (if norm then runNorm s1 t d else runSoft s1 t d) t 0x28 (bits d 111 96)) :=
    (startClass_recompute s1 p t (q := nextInstr s p t x w) hclass).trans (startRecompute_sound hnorm ok)
  exact tileInstr_done hS hstart

end Words

/-- Settles O7: the start of each word on an idle tile, its descriptor's checks passed. -/
theorem reducingInstructionsWriteTheirResults : Obligations.ReducingInstructionsWriteTheirResults := by
  refine ⟨?reduce, ?recompute⟩
  case reduce =>
    intro s p t x w wd s1 d q
    have cls (k : Nat) : wClass (wd k) = 0x19 := wClass_classWord 0x19 (withForm k w) (by decide)
    have hsum : exec (.reduceSlotSum t x w) s = .next (tileInstr s t x (wd 0)) := rfl
    have hselect : exec (.reduceSelect t x w) s = .next (tileInstr s t x (wd 1)) := rfl
    have haudit : exec (.reduceAudit t x w) s = .next (tileInstr s t x (wd 2)) := rfl
    refine ⟨fun hS form ok => ?_, fun hS form ok => ?_, fun hS form ok => ?_⟩
    · rw [hsum, tileInstr_slotSum hS (cls 0) form ok]
      exact ⟨fun alone => by rw [alone, if_neg Bool.false_ne_true], fun tied => by rw [tied, if_pos rfl]⟩
    · rw [hselect, tileInstr_select hS (cls 1) form ok]
    · rw [haudit, tileInstr_audit hS (cls 2) form ok]
  case recompute =>
    intro s p t x w wn ws sn ss dn ds
    have hnorm : exec (.normrc t x w) s = .next (tileInstr s t x wn) := rfl
    have hsoft : exec (.smaxrc t x w) s = .next (tileInstr s t x ws) := rfl
    refine ⟨fun hS ok => ?_, fun hS ok => ?_⟩
    · rw [hnorm, tileInstr_recompute (norm := true) hS (wClass_classWord 0x1A w (by decide)) ok, if_pos rfl]
    · rw [hsoft, tileInstr_recompute (norm := false) hS (wClass_classWord 0x1B w (by decide)) ok,
        if_neg Bool.false_ne_true]

/-! ## Copies (R40, R318 to R321) -/

theorem startClass_load (s : State) (p t : Nat) {q : QInstr} (h : wClass q.w = 0x10 ∨ wClass q.w = 0x11) :
    startClass s p t q = startLoad s p t q := by
  obtain h | h := h <;> simp only [startClass, h]

theorem startClass_store (s : State) (p t : Nat) {q : QInstr} (h : wClass q.w = 0x12) :
    startClass s p t q = startStore s p t q := by
  simp only [startClass, h]

/-- A LOAD or LOADT that breaks no rule sends its reads. -/
theorem startLoad_sound {s : State} {p t : Nat} {q : QInstr} :
    let d := if hasCopyDesc q.w then ownDesc s t (wDesc q.w) else 0
    copyFault s p t q.w d false true = none →
    let c := copyOf q.w d
    startLoad s p t q = .going ((upFrom 0 c.rows).foldl (fun u r =>
      readFar (wakeRun u (c.far + r * c.farStride) c.farLen) p (c.far + r * c.farStride) c.farLen
        (loadOwner t q.x q.seq) 0) s) .load d := by
  intro d ok c
  unfold startLoad
  dsimp only
  rw [ok]

/-- A STORE to memory that breaks no rule writes its lines. -/
theorem startStore_local {s : State} {p t : Nat} {q : QInstr} :
    let d := if hasCopyDesc q.w then ownDesc s t (wDesc q.w) else 0
    let c := copyOf q.w d
    portStore q.w c = none → c.peer = 0xFFFF → copyFault s p t q.w d true true = none →
    startStore s p t q = .done (localStore s t c) := by
  intro d c lines near ok
  have hnear : (c.peer == 0xFFFF) = true := beq_iff_eq.mpr near
  unfold startStore
  dsimp only
  rw [lines, hnear, ok]
  exact if_pos near

/-- A LOAD's or LOADT's word on an idle tile (R318, R319). -/
theorem tileInstr_load {s s1 : State} {p t d : Nat} {x : Stream} {w : BitVec 128} {q : QInstr} {c : Copy}
    (hS : Startable s p t x w) (cls : wClass w = 0x10 ∨ wClass w = 0x11) (h1 : startState s p t x w = s1)
    (hq : nextInstr s p t x w = q) (hd : (if hasCopyDesc w then ownDesc s1 t (wDesc w) else 0) = d)
    (hc : copyOf w d = c) (ok : copyFault s1 p t w d false true = none) :
    tileInstr s t x w = underWay ((upFrom 0 c.rows).foldl (fun u r =>
      readFar (wakeRun u (c.far + r * c.farStride) c.farLen) p (c.far + r * c.farStride) c.farLen
        (loadOwner t x q.seq) 0) s1) s p t x w .load d := by
  subst h1 hq hd hc
  exact tileInstr_going hS
    ((startClass_load (startState s p t x w) p t (q := nextInstr s p t x w) cls).trans (startLoad_sound ok))

/-- A local STORE's word on an idle tile (R320). -/
theorem tileInstr_store {s : State} {p t : Nat} {x : Stream} {w : BitVec 128} (hS : Startable s p t x w)
    (cls : wClass w = 0x12) :
    let s1 := startState s p t x w
    let d := if hasCopyDesc w then ownDesc s1 t (wDesc w) else 0
    let c := copyOf w d
    portStore w c = none → c.peer = 0xFFFF → copyFault s1 p t w d true true = none →
    tileInstr s t x w = completed (localStore s1 t c) s p t x w := by
  intro s1 d c lines near ok
  exact tileInstr_done hS ((startClass_store s1 p t (q := nextInstr s p t x w) cls).trans (startStore_local lines near ok))

/-- The landing of a load whose window reads are answered, in a calm memory (R40). -/
theorem exec_loadComplete {s : State} {t : Fin 64} {x : Stream} {seq : BitVec 32} {i : Inflight}
    (awaited : (getTile s t).inflight.find? (fun i => i.q.x == x && i.q.seq == seq.toNat && i.why == .load) = some i)
    (answered : farReady s (loadOwner t x seq.toNat) 0 = true) (clear : calm s = true) :
    let c := copyOf i.q.w i.desc
    let o := loadOwner t x seq.toNat
    let s1 := dropFar (writeNear s t c (nearRowsOf c ((upFrom 0 c.rows).map (farRow s o c)))) o
    exec (.loadComplete t x seq) s = .next (finishInstr s1 t { getTile s1 t with
      inflight := (getTile s1 t).inflight.filter (· != i) } i.q) := by
  intro c o s1
  show Host.Outcome.next (loadComplete s t x seq.toNat) = _
  unfold loadComplete
  dsimp only
  rw [awaited]
  dsimp only
  rw [answered, Bool.not_true, if_neg Bool.false_ne_true, onceRead_calm clear]

/-- LOAD and LOADT run their word. -/
theorem exec_load {cls : Nat} (hc : cls = 0x10 ∨ cls = 0x11) (t : Fin 64) (x : Stream) (w : BitVec 122) (s : State) :
    exec (if cls = 0x10 then .load t x w else .loadt t x w) s = .next (tileInstr s t x (classWord cls w)) := by
  obtain rfl | rfl := hc <;> rfl

/-- Settles O5: the start of a load and of a local store on an idle tile, and the landing of an answered load. -/
theorem loadsAndStoresCopyLines : Obligations.LoadsAndStoresCopyLines := by
  refine ⟨?load, ?store, ?complete⟩
  case load =>
    intro s p t x w cls hc wd s1 q d c hS ok
    have hclass : wClass wd = 0x10 ∨ wClass wd = 0x11 := by rwa [wClass_classWord cls w (by omega)]
    exact (exec_load hc t x w s).trans (congrArg Host.Outcome.next (tileInstr_load hS hclass rfl rfl rfl rfl ok))
  case store =>
    intro s p t x w wd s1 d c hS lines near ok
    have hx : exec (.store t x w) s = .next (tileInstr s t x wd) := rfl
    rw [hx, tileInstr_store hS (wClass_classWord 0x12 w (by decide)) lines near ok]
  case complete =>
    intro s t x seq i c o awaited answered clear s1
    exact exec_loadComplete awaited answered clear

end Sys2Proof.Machine

/-! Stream control blocks and bank-side operations (02 R48 to R50, R55, 14 R306, R307). What they reach is woken first, and a
wake changes neither tiles nor memory nor what waits on a line. -/

namespace Sys2Proof.Machine

/-! ## Stream control (R307) -/

/-- A wake leaves every tile alone. -/
@[simp] theorem getTile_wakeDomain (s : State) (d t : Nat) : getTile (wakeDomain s d) t = getTile s t := by
  obtain ⟨c, w, h, -⟩ := wakeDomain_eq s d
  rw [h]
  rfl

@[simp] theorem wakeDomain_mem (s : State) (d : Nat) : (wakeDomain s d).mem = s.mem := by
  obtain ⟨c, w, h, -⟩ := wakeDomain_eq s d
  rw [h]
  rfl

/-- A dropped key reads as the default. -/
theorem mget_mdrop_drop {α : Type} (d : α) (p : Nat → Bool) (m : Map α) (k : Nat) (h : p k = true) :
    mget d (mdrop p m) k = d := by
  refine mget_notin d _ k fun hk => ?_
  obtain ⟨e, he, rfl⟩ := List.mem_map.mp hk
  simpa [h] using (List.mem_filter.mp he).2

/-- A stream that starts has its watch registers disarmed. -/
theorem getWatch_startStream (v : Tile) (x : Stream) (e : Engine) {r : Nat} (h : r < 4) :
    getWatch (startStream v x) x e r = WatchReg.reset := by
  refine mget_mdrop_drop WatchReg.reset (fun k => k / 16 == streamNo x) _ _ ?_
  have : engNo e < 4 := by cases e <;> decide
  rw [beq_iff_eq, watchKey]
  omega

/-- The control block of a stream that starts. -/
theorem getCtl_startStream (v : Tile) (x : Stream) :
    getCtl (startStream v x) x = { getCtl v x with
      state := .running, pc := (getCtl v x).entry, nextSeq := 0, mark0 := 0, mark1 := 0, marked := false, ended := false
      dwSkip := false, buf := [] } := by
  cases x <;> rfl

/-- A write of run = 1 is ignored while the job runs, and of a stream that runs. -/
theorem exec_streamRun_ignored {s : State} {t : Fin 64} {x : Stream}
    (h : jobStopped s t = false ∨ (getCtl (getTile s t) x).state = .running) : exec (.streamRun t x) s = .next s := by
  refine congrArg Host.Outcome.next (if_neg ?_)
  obtain h | h := h <;> simp [h]

/-- A write of run = 1 starts a present tile's stream while the job is stopped. -/
theorem exec_streamRun_starts {s : State} {t : Fin 64} {x : Stream} (present : tilePresent s t = true)
    (stopped : jobStopped s t = true) (still : (getCtl (getTile s t) x).state ≠ .running) :
    exec (.streamRun t x) s = .next (putTile (wakeDomain s (tileDom s t)) t (startStream (getTile s t) x)) := by
  refine congrArg Host.Outcome.next (if_pos ?_)
  simp [present, stopped, still]

/-- A stream control block is not written while the job runs. -/
theorem ctlWrite_ignored {s : State} {t : Nat} (h : jobStopped s t = false) (x : Stream) (f : StreamCtl → StreamCtl) :
    ctlWrite s t x f = s := by
  simp [ctlWrite, h]

/-- A stream control block of a present tile is written while the job is stopped. -/
theorem getCtl_ctlWrite {s : State} {t : Nat} (present : tilePresent s t = true) (stopped : jobStopped s t = true)
    (x : Stream) (f : StreamCtl → StreamCtl) :
    getCtl (getTile (ctlWrite s t x f) t) x = f (getCtl (getTile s t) x) := by
  simp [ctlWrite, present, stopped]

/-- Settles O51: writes of a stream control block, and of run, with the job stopped and not. -/
theorem streamControlIsWrittenOnlyWhileStopped : Obligations.StreamControlIsWrittenOnlyWhileStopped := by
  intro s t x
  refine ⟨fun runs => ⟨exec_streamRun_ignored (.inl runs), fun a => ?_, fun v => ?_⟩,
    fun runs => exec_streamRun_ignored (.inr runs),
    fun present stopped => ⟨fun a => ⟨_, rfl, ?_⟩, fun v => ⟨_, rfl, ?_⟩, fun still => ?_⟩⟩
  · exact congrArg Host.Outcome.next (ctlWrite_ignored runs x _)
  · exact congrArg Host.Outcome.next (ctlWrite_ignored runs x _)
  · rw [getCtl_ctlWrite present stopped]
  · rw [getCtl_ctlWrite present stopped]
  · refine ⟨_, exec_streamRun_starts present stopped still, ?_⟩
    rw [getTile_putTile, getCtl_startStream]
    exact ⟨rfl, rfl, rfl, rfl, rfl, rfl, fun e r hr => getWatch_startStream _ x e hr⟩

/-! ## Bank-side operations (R48 to R50) -/

/-- A defined operation is a read-modify-write, and no plain write. -/
theorem bankRequest_code {op : BankOp} {bs : List Byte} {x : Nat × List Byte} (h : bankRequest op bs = some x) :
    x.1 ≠ 0 := by
  cases op <;> simp only [bankRequest, Option.some.injEq, reduceCtorEq] at h <;> simp [← h]

/-- A wake changes no domain's state, nor what waits on a line. -/
theorem lineHeld_wakeRun (s : State) (a n l : Nat) (write : Bool) :
    lineHeld (wakeRun s a n) l write = lineHeld s l write := by
  obtain ⟨c, w, h, hdom, hentering⟩ := wakeRun_eq s a n
  have hdeep : domDeep (putPower (putCtrs s c) w) = domDeep s := by
    funext i
    simp only [domDeep, getDom, putPower_power, hdom, hentering]
  rw [h, lineHeld, hdeep]
  rfl

theorem lineBad_wakeRun (s : State) (a n l : Nat) : lineBad (wakeRun s a n) l = lineBad s l := by
  obtain ⟨c, w, h, -⟩ := wakeRun_eq s a n
  rw [h]
  rfl

/-- A read-modify-write of a line that neither waits nor is in error is applied once the line's domain is woken. -/
theorem bankWrite_clear {s : State} {a op : Nat} {new : List Byte} (modify : op ≠ 0) (aligned : a % 64 = 0)
    (free : lineHeld s a true = false) (good : lineBad s a = false) :
    bankWrite s a op new = bankRaw (wakeRun s a 64) a op new := by
  have hline : a / 64 * 64 = a := Nat.div_mul_cancel (Nat.dvd_of_mod_eq_zero aligned)
  have hmeets : lineMeets (wakeRun s a 64) a = false := by simp [lineMeets, lineBad_wakeRun, good]
  rw [bankWrite, if_neg modify, hline, aligned, bankPiece]
  simp only [lineHeld_wakeRun, free, hmeets, lineBad_wakeRun, good, Bool.false_eq_true, if_false, Nat.add_zero]

/-- The line after a read-modify-write. -/
theorem readByte_bankRaw (s : State) (a op k : Nat) (new : List Byte) :
    readByte (bankRaw s a op new) k =
      mget 0 (pokeBytes s.mem a (bankApply op (readBytes s a (bankSpan op new.length)) new)) k := rfl

theorem tileAddr_line_aligned (t line : Nat) : tileAddr t (64 * line) % 64 = 0 := by
  unfold tileAddr
  omega

/-- BANK_SIDE_OP of a defined operation, on a line that neither waits nor is in error; its reply is 3 unless it claims a
row. -/
theorem exec_bankSideOp {s : State} {t : Fin 64} {line : Fin 393216} {op : BankOp} {operand : BitVec 1024}
    {x : Nat × List Byte} {a : Nat} (req : BankReq) (hx : bankRequest op (toBytes 128 operand.toNat) = some x)
    (ha : tileAddr t (64 * line) = a) (free : lineHeld s a true = false) (good : lineBad s a = false) :
    exec (.bankSideOp t line op operand req) s =
      .next (bankRaw (wakeRun { s with bankReply := 3 } a 64) a x.1 x.2) := by
  have aligned : a % 64 = 0 := ha ▸ tileAddr_line_aligned t line
  have hfree : lineHeld { s with bankReply := 3 } a true = false := free
  have hgood : lineBad { s with bankReply := 3 } a = false := good
  have hstep : execBankSideOp t line op operand req s = .next (bankWrite { s with bankReply := 3 } a x.1 x.2) := by
    unfold execBankSideOp
    rw [hx, ha]
  rw [← bankWrite_clear (bankRequest_code hx) aligned hfree hgood]
  exact hstep

/-- Settles O13: the start of a stream, a token wait that times out, and a bank-side operation, defined or not. -/
theorem streamsStartTokensTimeOutBanksOperate : Obligations.StreamsStartTokensTimeOutBanksOperate := by
  refine ⟨?start, ?timeout, ?bank, ?undefined⟩
  case start =>
    intro s t x present stopped still
    refine ⟨_, exec_streamRun_starts present stopped still, ?_⟩
    rw [getTile_putTile, getCtl_startStream]
    exact ⟨rfl, rfl, rfl, fun e r hr => getWatch_startStream _ x e hr, wakeDomain_mem s _⟩
  case timeout =>
    intro s p t x e part goes held s1
    show execTokenTimeout t x e s = _
    simp only [execTokenTimeout, goes, held, part, Option.getD_some, Bool.not_true, Bool.or_self, Bool.false_eq_true, if_false]
    rfl
  case bank =>
    intro s t line op operand req x hx a old r free good
    have hmem : (wakeRun { s with bankReply := 3 } a 64).mem = s.mem := wakeRun_mem _ a 64
    have hreply : (wakeRun { s with bankReply := 3 } a 64).bankReply = 3 := by
      obtain ⟨c, w, h, -⟩ := wakeRun_eq { s with bankReply := 3 } a 64
      rw [h]
      rfl
    have hold : readBytes (wakeRun { s with bankReply := 3 } a 64) a (bankSpan x.1 x.2.length) = old :=
      readBytes_congr hmem a _
    have hbyte (k : Nat) : readByte (bankRaw (wakeRun { s with bankReply := 3 } a 64) a x.1 x.2) k =
        mget 0 (pokeBytes s.mem a r) k := by rw [readByte_bankRaw, hold, hmem]
    refine ⟨_, exec_bankSideOp req hx rfl free good, ?_, fun k hk => ?_, fun k hk => ?_⟩
    · show (if x.1 = 7 then bankAnswer x.1 _ x.2 else _) = bankAnswer x.1 old x.2
      rw [hold, hreply]
      split
      · rfl
      · next h => exact (if_neg h).symm
    · rw [hbyte, mget_pokeBytes_in s.mem a k r hk, List.getD_eq_getElem _ _ hk]
    · rw [hbyte]
      exact mget_pokeBytes_out s.mem a k r hk
  case undefined =>
    intro s t t' line operand x e r
    rfl

end Sys2Proof.Machine

/-! The vector unit (14 R323 to R326). The next word of a running program whose checks pass acts on its registers and, if it
is a load or a store, on one run of its tile's store; everything else an operation leaves to the tile alone. -/

namespace Sys2Proof.Machine

/-! ## Instruction words (R324) -/

theorem bits_vWord_opcode (c : Nat) (w : BitVec 58) (h : c < 64) : bits (vWord c w) 63 58 = c := by
  have := w.isLt
  simp only [vWord, bits, Nat.shiftRight_eq_div_pow]
  omega

/-- The fields below the opcode are those of the word's other 58 bits. -/
theorem bits_vWord_operand (c : Nat) (w : BitVec 58) {hi lo : Nat} (le : lo ≤ hi) (lt : hi < 58) :
    bits (vWord c w) hi lo = bits w.toNat hi lo := by
  refine Nat.eq_of_testBit_eq fun i => ?_
  rw [bits, bits, Nat.testBit_mod_two_pow, Nat.testBit_mod_two_pow, Nat.testBit_shiftRight, Nat.testBit_shiftRight]
  by_cases hi' : i < hi + 1 - lo
  · rw [vWord, Nat.mul_comm, Nat.testBit_two_pow_mul_add _ w.isLt, if_pos (by omega)]
  · simp [hi']

@[simp] theorem vTyp_vWord (c : Nat) (w : BitVec 58) : vTyp (vWord c w) = vTyp w.toNat :=
  bits_vWord_operand c w (by omega) (by omega)
@[simp] theorem vDst_vWord (c : Nat) (w : BitVec 58) : vDst (vWord c w) = vDst w.toNat :=
  bits_vWord_operand c w (by omega) (by omega)
@[simp] theorem vA_vWord (c : Nat) (w : BitVec 58) : vA (vWord c w) = vA w.toNat :=
  bits_vWord_operand c w (by omega) (by omega)
@[simp] theorem vB_vWord (c : Nat) (w : BitVec 58) : vB (vWord c w) = vB w.toNat :=
  bits_vWord_operand c w (by omega) (by omega)
@[simp] theorem vXs_vWord (c : Nat) (w : BitVec 58) : vXs (vWord c w) = vXs w.toNat :=
  bits_vWord_operand c w (by omega) (by omega)
@[simp] theorem vImm_vWord (c : Nat) (w : BitVec 58) : vImm (vWord c w) = vImm w.toNat :=
  bits_vWord_operand c w (by omega) (by omega)

/-! ## One instruction of a running program (R323, R325) -/

/-- Work that reads no byte waits for nothing (R249, R417). -/
theorem onceRead_nothing (s : State) (a : Nat) (f : State → State) : onceRead s [(a, 0)] f = f s := by
  have hl : linesOf a 0 = [] := rfl
  have hw : wakeRuns s [(a, 0)] = s := by simp [wakeRuns, wakeRun, hl]
  have hm : meetRuns s [(a, 0)] = none := by simp [meetRuns, hl]
  rw [onceRead, hw, hm]

/-- The offset of the tile-store run that an operation accesses; 0 of one that accesses none. -/
def vOffset (v : Tile) (vop w : Nat) : Nat := ((vAccess v vop w).map Prod.fst).getD 0

/-- The state once an operation of the tile `v` stored its bytes or counted its values. -/
def vStored (v : Tile) (t vop w : Nat) (s : State) : State :=
  if vop = 0x02 then writeNat s (tileAddr t (vOffset v vop w)) 2048 (vreg v (vA w))
  else if vop = 0x1A then writeNat s (tileAddr t (vOffset v vop w)) 8 (xreg v (vXs w))
  else vCount s t vop w

/-- The tile `v` once an operation wrote its registers. -/
def vWritten (v : Tile) (p t vop w : Nat) (s : State) : Tile :=
  if vop = 0x01 then putVreg v (vDst w) (readNat s (tileAddr t (vOffset v vop w)) 2048)
  else if vop = 0x19 then putXreg v (vXs w) (readNat s (tileAddr t (vOffset v vop w)) 8)
  else vRegOp v t (getPart s p).srSeed vop w

/-- What an operation does once its reads are answered: it stores, writes its registers and goes on, or faults at a place
before the store. -/
def vecAct (v : Tile) (p t vop w : Nat) (i : Inflight) (s : State) : State :=
  let s := vStored v t vop w s
  let v' := vWritten v p t vop w s
  let n := vNext v' v.vec.pc vop w
  let s := putTile s t (vecAdvance v v' n.toNat)
  if n < 0 then vecFault s t i ⟨6, 0, tileAddr t 0⟩ else s

/-- A word that breaks no rule and does not end the program acts once its reads are answered. -/
theorem vecStep_ready {s : State} {p t vop w : Nat} {i : Inflight} (h : VectorReady s p t vop w i)
    (op : bits w 63 58 = vop) (goesOn : vop ≠ 0) :
    vecStep s t w = onceRead s
      [(tileAddr t (vOffset (getTile s t) vop w), if vop = 0x01 then 2048 else if vop = 0x19 then 8 else 0)]
      (vecAct (getTile s t) p t vop w i) := by
  have hoff : vOffset (getTile s t) vop w = match vAccess (getTile s t) vop w with | some x => x.1 | none => 0 := by
    unfold vOffset
    cases vAccess (getTile s t) vop w <;> rfl
  have hin : ¬ storeBytes < (getTile s t).vec.pc + 8 := Nat.not_lt.mpr h.inside
  unfold vecStep vecAct vStored vWritten
  rw [hoff]
  simp only [h.owner, h.part, h.goes, op, h.sound, hin, goesOn, Option.getD_some, Bool.not_true, Bool.false_eq_true, if_false]
  rfl

/-- A word that ends the program. -/
theorem vecStep_end {s : State} {p t w : Nat} {i : Inflight} (h : VectorReady s p t 0 w i) (op : bits w 63 58 = 0) :
    vecStep s t w = finishInstr s t
      { getTile s t with vec := VecState.reset, inflight := (getTile s t).inflight.filter (· != i) } i.q := by
  have hin : ¬ storeBytes < (getTile s t).vec.pc + 8 := Nat.not_lt.mpr h.inside
  unfold vecStep
  simp only [h.owner, h.goes, op, h.sound, hin, Bool.not_true, Bool.false_eq_true, if_false, if_true]

/-- Only SLOOP goes anywhere but to the next word. -/
theorem vNext_straight (v' : Tile) (pc w : Nat) {vop : Nat} (h : vop ≠ 0x18) : vNext v' pc vop w = (pc + 8 : Nat) := by
  simp [vNext, h]

/-- Only VCVT counts. -/
theorem vCount_other (s : State) (t w : Nat) {vop : Nat} (h : vop ≠ 0x0F) : vCount s t vop w = s := by
  unfold vCount
  simp only [h, if_false]
  split <;> rfl

/-- An operation other than SLOOP goes on with the next word. -/
theorem vecAct_straight (v : Tile) (p t w : Nat) (i : Inflight) (s : State) {vop : Nat} (h : vop ≠ 0x18) :
    vecAct v p t vop w i s =
      putTile (vStored v t vop w s) t (vecAdvance v (vWritten v p t vop w (vStored v t vop w s)) (v.vec.pc + 8)) := by
  unfold vecAct
  dsimp only
  rw [vNext_straight _ _ _ h, if_neg (by omega), Int.toNat_natCast]

/-- Counting leaves everything but the counter objects alone. -/
theorem vCount_frame (s : State) (t vop w : Nat) : ∃ c, vCount s t vop w = putCtrs s c := by
  unfold vCount
  split
  · split
    · exact ⟨_, rfl⟩
    · exact ⟨s.ctr, rfl⟩
  · exact ⟨s.ctr, rfl⟩

/-- A word whose operation is neither a load nor a store acts at once. -/
theorem vecStep_still {s : State} {p t vop w : Nat} {i : Inflight} (h : VectorReady s p t vop w i) (op : bits w 63 58 = vop)
    (still : vop ∉ [0x00, 0x01, 0x19]) : vecStep s t w = vecAct (getTile s t) p t vop w i s := by
  obtain ⟨hend, hvld, hsld⟩ : vop ≠ 0x00 ∧ vop ≠ 0x01 ∧ vop ≠ 0x19 := by simpa using still
  rw [vecStep_ready h op hend, if_neg hvld, if_neg hsld, onceRead_nothing]

/-- What an operation on registers alone does, SLOOP apart: it writes its tile's registers and goes on with the next word; a
VCVT counts too. -/
theorem vecStep_register {s : State} {p t vop w : Nat} {i : Inflight} (h : VectorReady s p t vop w i)
    (op : bits w 63 58 = vop) (register : vop ∉ [0x00, 0x01, 0x02, 0x18, 0x19, 0x1A]) :
    let v := getTile s t
    vecStep s t w =
      putTile (vCount s t vop w) t (vecAdvance v (vRegOp v t (getPart s p).srSeed vop w) (v.vec.pc + 8)) := by
  intro v
  obtain ⟨hend, hvld, hvst, hloop, hsld, hsst⟩ :
      vop ≠ 0x00 ∧ vop ≠ 0x01 ∧ vop ≠ 0x02 ∧ vop ≠ 0x18 ∧ vop ≠ 0x19 ∧ vop ≠ 0x1A := by simpa using register
  obtain ⟨c, hc⟩ := vCount_frame s t vop w
  have hpart : getPart (vCount s t vop w) p = getPart s p := by rw [hc]; rfl
  have hstored : vStored v t vop w s = vCount s t vop w := by simp [vStored, hvst, hsst]
  have hwritten : vWritten v p t vop w (vCount s t vop w) = vRegOp v t (getPart s p).srSeed vop w := by
    simp [vWritten, hvld, hsld, hpart]
  rw [vecStep_still h op (by simp [hend, hvld, hsld]), vecAct_straight _ _ _ _ _ _ hloop, hstored, hwritten]

/-- An operation on registers alone that counts nothing leaves its tile's write. -/
theorem vecStep_writes {s : State} {p t vop w : Nat} {i : Inflight} (h : VectorReady s p t vop w i)
    (op : bits w 63 58 = vop) (register : vop ∉ [0x00, 0x01, 0x02, 0x0F, 0x18, 0x19, 0x1A]) :
    let v := getTile s t
    vecStep s t w = putTile s t (vecAdvance v (vRegOp v t (getPart s p).srSeed vop w) (v.vec.pc + 8)) := by
  intro v
  obtain ⟨hend, hvld, hvst, hcvt, hloop, hsld, hsst⟩ :
      vop ≠ 0x00 ∧ vop ≠ 0x01 ∧ vop ≠ 0x02 ∧ vop ≠ 0x0F ∧ vop ≠ 0x18 ∧ vop ≠ 0x19 ∧ vop ≠ 0x1A := by simpa using register
  rw [vecStep_register h op (by simp [hend, hvld, hvst, hloop, hsld, hsst]), vCount_other _ _ _ hcvt]

/-! ## Loads and stores (R325) -/

/-- The place of a VLD or VST is x[xs] + imm. -/
theorem vOffset_vector (v : Tile) (w : Nat) {vop : Nat} (h : vop = 0x01 ∨ vop = 0x02) :
    vOffset v vop w = (xreg v (vXs w) + vImm w) % 2 ^ 64 := by
  obtain rfl | rfl := h <;> rfl

/-- The place of an SLD or SST is imm. -/
theorem vOffset_scalar (v : Tile) (w : Nat) {vop : Nat} (h : vop = 0x19 ∨ vop = 0x1A) : vOffset v vop w = vImm w := by
  obtain rfl | rfl := h <;> rfl

/-- A load of a calm memory writes its register and nothing else. -/
theorem vecStep_load {s : State} {p t vop w : Nat} {i : Inflight} (h : VectorReady s p t vop w i) (op : bits w 63 58 = vop)
    (load : vop = 0x01 ∨ vop = 0x19) (clear : calm s = true) :
    let v := getTile s t
    vecStep s t w = putTile s t (vecAdvance v (vWritten v p t vop w s) (v.vec.pc + 8)) := by
  intro v
  have hstored : vStored v t vop w s = s := by
    obtain rfl | rfl := load <;> exact vCount_other _ _ _ (by decide)
  rw [vecStep_ready h op (by omega), onceRead_calm clear, vecAct_straight _ _ _ _ _ _ (by omega), hstored]

/-- A store writes its bytes, and no register. -/
theorem vecStep_store {s : State} {p t vop w : Nat} {i : Inflight} (h : VectorReady s p t vop w i) (op : bits w 63 58 = vop)
    (store : vop = 0x02 ∨ vop = 0x1A) :
    let v := getTile s t
    vecStep s t w = putTile (vStored v t vop w s) t (vecAdvance v v (v.vec.pc + 8)) := by
  intro v
  have hwritten : vWritten v p t vop w (vStored v t vop w s) = v := by
    generalize vStored v t vop w s = u
    obtain rfl | rfl := store <;> rfl
  have still : vop ∉ [0x00, 0x01, 0x19] := by obtain rfl | rfl := store <;> decide
  rw [vecStep_still h op still, vecAct_straight _ _ _ _ _ _ (by omega), hwritten]

/-- Settles O10: each of the four is its step; a store's bytes outside its run are those of the write of a number. -/
theorem vectorLoadsAndStoresMoveBytes : Obligations.VectorLoadsAndStoresMoveBytes := by
  intro s p t w i v wd at64 at8 pc
  refine ⟨?vld, ?vst, ?sld, ?sst⟩
  case vld =>
    intro h clear
    have hwritten : vWritten v p t 0x01 (wd 0x01) s = putVreg v (vDst (wd 0x01)) (readNat s (at64 0x01) 2048) := by
      rw [vWritten, if_pos rfl, vOffset_vector _ _ (.inl rfl)]
    exact congrArg Host.Outcome.next
      ((vecStep_load h (bits_vWord_opcode _ w (by omega)) (.inl rfl) clear).trans (by rw [hwritten]))
  case vst =>
    intro h
    have hstored : vStored v t 0x02 (wd 0x02) s = writeNat s (at64 0x02) 2048 (vreg v (vA (wd 0x02))) := by
      rw [vStored, if_pos rfl, vOffset_vector _ _ (.inr rfl)]
    refine ⟨_, congrArg Host.Outcome.next (vecStep_store h (bits_vWord_opcode _ w (by omega)) (.inl rfl)), ?_⟩
    rw [hstored]
    exact ⟨rfl, fun k hk => readByte_writeNat_out _ _ _ _ _ hk⟩
  case sld =>
    intro h clear
    have hwritten : vWritten v p t 0x19 (wd 0x19) s = putXreg v (vXs (wd 0x19)) (readNat s (at8 0x19) 8) := by
      rw [vWritten, if_neg (by decide), if_pos rfl, vOffset_scalar _ _ (.inl rfl)]
    exact congrArg Host.Outcome.next
      ((vecStep_load h (bits_vWord_opcode _ w (by omega)) (.inr rfl) clear).trans (by rw [hwritten]))
  case sst =>
    intro h
    have hstored : vStored v t 0x1A (wd 0x1A) s = writeNat s (at8 0x1A) 8 (xreg v (vXs (wd 0x1A))) := by
      rw [vStored, if_neg (by decide), if_pos rfl, vOffset_scalar _ _ (.inr rfl)]
    refine ⟨_, congrArg Host.Outcome.next (vecStep_store h (bits_vWord_opcode _ w (by omega)) (.inr rfl)), ?_⟩
    rw [hstored]
    exact ⟨rfl, fun k hk => readByte_writeNat_out _ _ _ _ _ hk⟩

/-! ## Frames of the vector instructions (R323, R325) -/

/-- The vector instructions that write a register are their words' steps. -/
theorem exec_vectorRegisterForms (s : State) (t : Fin 64) (w : BitVec 58) :
    ∀ e ∈ vectorRegisterForms t w, exec e.2 s = .next (vecStep s t (vWord e.1 w)) := by
  simp only [vectorRegisterForms, List.forall_mem_cons, List.not_mem_nil, false_imp_iff, implies_true, and_true]
  and_intros <;> rfl

/-- Each of them is a load, or an operation on registers alone that counts nothing. -/
theorem vectorRegisterForms_kind (t : Fin 64) (w : BitVec 58) :
    ∀ e ∈ vectorRegisterForms t w, (e.1 = 0x01 ∨ e.1 = 0x19) ∨ e.1 ∉ [0x00, 0x01, 0x02, 0x0F, 0x18, 0x19, 0x1A] := by
  simp [vectorRegisterForms]

/-- Settles O59: each of the instructions is a load's step or an operation on registers, and both write their tile alone. -/
theorem vectorInstructionsChangeOnlyTheirTile : Obligations.VectorInstructionsChangeOnlyTheirTile := by
  intro s u p vop t w i c hc h clear hu
  have hx := exec_vectorRegisterForms s t w _ hc
  have hvop : vop < 64 := by
    have : ∀ e ∈ vectorRegisterForms t w, e.1 < 64 := by simp [vectorRegisterForms]
    exact this _ hc
  have op := bits_vWord_opcode vop w hvop
  obtain ⟨v, hv⟩ : ∃ v, vecStep s t (vWord vop w) = putTile s t v := by
    obtain load | register := vectorRegisterForms_kind t w _ hc
    · exact ⟨_, vecStep_load h op load (clear load)⟩
    · exact ⟨_, vecStep_writes h op register⟩
  obtain rfl : putTile s t v = u := by
    rw [← hv]
    exact Host.Outcome.next.inj (hx.symm.trans hu)
  exact ⟨rfl, fun k hk => getTile_putTile_ne s t k v hk⟩

/-! ## Elements of a register (R324 to R326) -/

theorem upFrom_eq_range' (a n : Nat) : upFrom a n = List.range' a n := by
  induction n generalizing a with
  | zero => rfl
  | succ n ih => rw [upFrom, ih, List.range'_succ]

@[simp] theorem length_upFrom (a n : Nat) : (upFrom a n).length = n := by simp [upFrom_eq_range']

@[simp] theorem getElem_upFrom (a n k : Nat) (h : k < (upFrom a n).length) : (upFrom a n)[k] = a + k := by
  simp [upFrom_eq_range']

@[simp] theorem length_vElems (n r : Nat) : (vElems n r).length = 16384 / n := by simp [vElems]

@[simp] theorem getElem_vElems (n r k : Nat) (h : k < (vElems n r).length) : (vElems n r)[k] = elemBits r n k := by
  simp [vElems]

/-- An element of packed numbers is the number at its place, reduced to the width. -/
theorem elemBits_packBits (n : Nat) (l : List Nat) (k : Nat) (h : k < l.length) :
    elemBits (packBits n l) n k = l[k] % 2 ^ n := by
  induction l generalizing k with
  | nil => simp at h
  | cons a l ih =>
    cases k with
    | zero => simp [elemBits, packBits]
    | succ k =>
      have hshift : packBits n (a :: l) >>> (n * (k + 1)) = packBits n l >>> (n * k) := by
        rw [Nat.mul_succ, Nat.add_comm, Nat.shiftRight_add, packBits, Nat.shiftRight_eq_div_pow _ n,
          Nat.add_mul_div_left _ _ (Nat.two_pow_pos n), Nat.div_eq_of_lt (Nat.mod_lt _ (Nat.two_pow_pos n)), Nat.zero_add]
      have hk : k < l.length := by simpa using h
      rw [elemBits, hshift]
      exact ih k hk

/-- An element-wise operation acts on the elements at the same place. -/
theorem elemBits_vMap3 (n : Nat) (f : Nat → Nat → Nat → Nat) (a b d k : Nat) (h : k < 16384 / n) :
    elemBits (vMap3 n f a b d) n k = f (elemBits a n k) (elemBits b n k) (elemBits d n k) % 2 ^ n := by
  rw [vMap3, elemBits_packBits _ _ _ (by simpa using h)]
  simp

/-- An element-wise operation that looks at va alone. -/
theorem vMap3_unary (n : Nat) (f : Nat → Nat) (a b d : Nat) :
    vMap3 n (fun x _ _ => f x) a b d = packBits n ((vElems n a).map f) := by
  rw [vMap3]
  congr 1
  exact List.ext_getElem (by simp) (by simp)

/-- An FP32-only operation's word that breaks no rule has elements of 32 bits (R325, R332). -/
theorem vTypOk_of_ready {s : State} {p t vop w : Nat} {i : Inflight} (h : VectorReady s p t vop w i) :
    vTypOk vop (vTyp w) = true := by
  have sound := h.sound
  unfold vFault at sound
  by_contra bad
  rw [Bool.not_eq_true] at bad
  simp only [bad, Bool.not_false, Bool.true_or, if_true] at sound
  split at sound <;> simp at sound

/-- An element-wise operation on a tile is the map of its element's operation. -/
theorem vRegOp_elementOps (v : Tile) (t seed w : Nat) :
    ∀ e ∈ elementOps, vTypOk e.1 (vTyp w) = true → vRegOp v t seed e.1 w =
      putVreg v (vDst w) (vMap3 (typWidth (vTyp w)) (e.2.2 (vTyp w)) (vreg v (vA w)) (vreg v (vB w)) (vreg v (vDst w))) := by
  have special : ∀ vop, 0x0B ≤ vop → vop ≤ 0x0E → vTypOk vop (vTyp w) = true → typWidth (vTyp w) = 32 := by
    intro vop lo hi ok
    have htyp : vTyp w = 0 := by simpa [vTypOk, lo, hi] using ok
    rw [htyp]
    rfl
  simp only [elementOps, List.forall_mem_cons]
  refine ⟨fun _ => rfl, fun _ => rfl, fun _ => rfl, fun _ => rfl, fun _ => rfl, fun _ => rfl, fun _ => rfl, fun _ => rfl,
    ?_, ?_, ?_, ?_, by simp⟩
  all_goals
    intro ok
    rw [special _ (by decide) (by decide) ok]
    rfl

theorem exec_elementOps (s : State) (t : Fin 64) (w : BitVec 58) :
    ∀ e ∈ elementOps, exec (e.2.1 t w) s = .next (vecStep s t (vWord e.1 w)) := by
  simp only [elementOps, List.forall_mem_cons, List.not_mem_nil, false_imp_iff, implies_true, and_true]
  and_intros <;> rfl

theorem elementOps_opcode : ∀ e ∈ elementOps, 0x03 ≤ e.1 ∧ e.1 ≤ 0x0E := by
  simp [elementOps]

/-- Settles O11: vd takes the map of the element's operation over the registers' elements. -/
theorem vectorElementOperationsActElementwise : Obligations.VectorElementOperationsActElementwise := by
  intro e he s p t w i v wd n h
  obtain ⟨lo, hi⟩ := elementOps_opcode e he
  have op := bits_vWord_opcode e.1 w (by omega)
  have register : e.1 ∉ [0x00, 0x01, 0x02, 0x0F, 0x18, 0x19, 0x1A] := by simp; omega
  refine ⟨vMap3 n (e.2.2 (vTyp wd)) (vreg v (vA wd)) (vreg v (vB wd)) (vreg v (vDst wd)), ?_,
    fun k hk => elemBits_vMap3 n _ _ _ _ k hk⟩
  rw [exec_elementOps s t w e he, vecStep_writes h op register, vRegOp_elementOps _ _ _ _ e he (vTypOk_of_ready h)]

/-! ## VEXEC and VEND (R323, R325) -/

theorem startClass_vexec (s : State) (p t : Nat) {q : QInstr} (h : wClass q.w = 0x18) :
    startClass s p t q = startVexec s t q := by
  simp only [startClass, h]

/-- Settles O9: VEXEC's start on an idle tile, and VEND's step. -/
theorem vectorProgramsStartAndEnd : Obligations.VectorProgramsStartAndEnd := by
  refine ⟨?vexec, ?vend⟩
  case vexec =>
    intro s p t x w wd s1 hS
    exact congrArg Host.Outcome.next (tileInstr_going hS
      (startClass_vexec s1 p t (q := nextInstr s p t x wd) (wClass_classWord 0x18 w (by omega))))
  case vend =>
    intro s p t w i h
    exact congrArg Host.Outcome.next (vecStep_end h (bits_vWord_opcode 0x00 w (by omega)))

/-! ## Conversion (R119, R120, R325) -/

/-- A conversion clamps as many values, and zeroes as many NaNs, as one that rounds to nearest even. -/
theorem vConvs_counts (src dst : Fmt) (m : Nat → RoundMode) (a : Nat) :
    let cs := vConvs src dst m a
    let ds := vConvs src dst (fun _ => .nearestEven) a
    (cs.filter Conv.clamped).length = (ds.filter Conv.clamped).length ∧
      (cs.filter Conv.nanZeroed).length = (ds.filter Conv.nanZeroed).length := by
  simp only [vConvs, List.filter_map, List.length_map, Function.comp_def, convert_clamped_mode dst (m _) .nearestEven,
    convert_nanZeroed_mode dst (m _) .nearestEven, and_self]

/-- A conversion between two formats, the values that it clamps and the NaNs that it zeroes counted. -/
theorem vecStep_vcvt {s : State} {p t w : Nat} {i : Inflight} {f g : Fmt} (h : VectorReady s p t 0x0F w i)
    (op : bits w 63 58 = 0x0F) (hf : outFmt (bits (vImm w) 11 8) = some f) (hg : outFmt (bits (vImm w) 3 0) = some g) :
    let v := getTile s t
    let m := bits (vImm w) 5 4
    let cs := vConvs f g (fun k => roundOf m (getPart s p).srSeed t v.srCount 0 k) (vreg v (vA w))
    let v' := putVreg v (vDst w) (packBits (fmtWidth g) (cs.map Conv.w))
    vecStep s t w = putTile
      (tileCtr (tileCtr s t 0x24 (cs.filter Conv.clamped).length) t 0x29 (cs.filter Conv.nanZeroed).length) t
      (vecAdvance v (if m = 2 then { v' with srCount := v.srCount + 1 } else v') (v.vec.pc + 8)) := by
  intro v m cs v'
  have hwritten : vRegOp v t (getPart s p).srSeed 0x0F w = if m = 2 then { v' with srCount := v.srCount + 1 } else v' := by
    simp only [vRegOp, hf, hg]
    rfl
  obtain ⟨clamped, zeroed⟩ := vConvs_counts f g (fun k => roundOf m (getPart s p).srSeed t v.srCount 0 k) (vreg v (vA w))
  have hcount : vCount s t 0x0F w = tileCtr (tileCtr s t 0x24 (cs.filter Conv.clamped).length) t 0x29
      (cs.filter Conv.nanZeroed).length := by
    simp only [vCount, hf, hg, if_true]
    rw [← clamped, ← zeroed]
  rw [vecStep_register h op (by decide), hwritten, hcount]

/-! ## Scalars (R325) -/

theorem xreg_lt (v : Tile) (r : Nat) : xreg v r < 2 ^ 64 := by
  unfold xreg
  split
  · decide
  · exact BitVec.isLt _

/-- Adding a sign-extended immediate is the addition of the model, which adds the extension's ones where it is negative. -/
theorem toNat_add_signExtend (x : Nat) (imm : BitVec 32) :
    (BitVec.ofNat 64 x + imm.signExtend 64).toNat =
      (x + (if bitSet imm.toNat 31 then 2 ^ 64 - 2 ^ 32 else 0) + imm.toNat) % 2 ^ 64 := by
  have hlt := imm.isLt
  have hmsb : bitSet imm.toNat 31 = imm.msb := by rw [bitSet, BitVec.msb_eq_getLsbD_last]; rfl
  rw [hmsb, BitVec.toNat_add, BitVec.toNat_ofNat, BitVec.toNat_signExtend, BitVec.toNat_setWidth]
  cases imm.msb <;> simp; omega

theorem toNat_sub_one (x : Nat) : (BitVec.ofNat 64 x - 1).toNat = (x + 2 ^ 64 - 1) % 2 ^ 64 := by
  rw [BitVec.toNat_sub, BitVec.toNat_ofNat]
  show (2 ^ 64 - 1 + x % 2 ^ 64) % 2 ^ 64 = _
  omega

theorem asSigned_toInt (imm : BitVec 32) : asSigned 32 imm.toNat = imm.toInt := by
  rw [asSigned, BitVec.toInt_eq_toNat_cond]
  split <;> split <;> omega

/-- The immediate as a word of 32 bits. -/
theorem toNat_vImm (w : Nat) : (BitVec.ofNat 32 (vImm w)).toNat = vImm w :=
  Nat.mod_eq_of_lt (Nat.mod_lt _ (by decide))

/-! ## What each operation writes (R325) -/

theorem vRegOp_vand (v : Tile) (t seed w : Nat) :
    vRegOp v t seed 0x10 w = putVreg v (vDst w) (vreg v (vA w) &&& vreg v (vB w)) := rfl

theorem vRegOp_vor (v : Tile) (t seed w : Nat) :
    vRegOp v t seed 0x11 w = putVreg v (vDst w) (vreg v (vA w) ||| vreg v (vB w)) := rfl

theorem vRegOp_vxor (v : Tile) (t seed w : Nat) :
    vRegOp v t seed 0x12 w = putVreg v (vDst w) (vreg v (vA w) ^^^ vreg v (vB w)) := rfl

theorem vRegOp_vshl (v : Tile) (t seed w : Nat) :
    vRegOp v t seed 0x13 w =
      putVreg v (vDst w) (packBits 32 ((vElems 32 (vreg v (vA w))).map (vShift (vImm w)))) := by
  rw [← vMap3_unary 32 (vShift (vImm w)) (vreg v (vA w)) (vreg v (vB w)) (vreg v (vDst w))]
  rfl

theorem vRegOp_vbc (v : Tile) (t seed w : Nat) :
    let n := typWidth (vTyp w)
    vRegOp v t seed 0x14 w =
      putVreg v (vDst w) (packBits n (List.replicate (16384 / n) (xreg v (vXs w) % 2 ^ n))) := by
  intro n
  have hmap : (upFrom 0 (16384 / n)).map (fun _ => xreg v (vXs w) % 2 ^ n) =
      List.replicate (16384 / n) (xreg v (vXs w) % 2 ^ n) := by simp
  rw [← hmap]
  rfl

/-- The elements of va, as FP32. -/
def vF32s (v : Tile) (w : Nat) : List W32 :=
  (vElems (typWidth (vTyp w)) (vreg v (vA w))).map (fun e => f32of (fmtDecode (typFmt (vTyp w)) e))

theorem vRegOp_vrsum (v : Tile) (t seed w : Nat) :
    vRegOp v t seed 0x15 w = putXreg v (vXs w) (alignedTotal (vF32s v w)).toNat := rfl

theorem vRegOp_vrmax (v : Tile) (t seed w : Nat) :
    let m := pickWinner true ((vF32s v w).zip (upFrom 0 (vF32s v w).length))
    vRegOp v t seed 0x16 w = putXreg v (vXs w) (m.1.toNat + m.2 * 2 ^ 32) := rfl

theorem vRegOp_swread (v : Tile) (t seed w : Nat) :
    let r := getWatch v v.vec.x (engOf (bits (vImm w) 1 0)) (bits (vImm w) 3 2)
    vRegOp v t seed 0x1B w = putXreg v (vXs w) (if bitSet (vImm w) 4 then r.value else r.status) := rfl

theorem vRegOp_sadd (v : Tile) (t seed w : Nat) :
    vRegOp v t seed 0x17 w = putXreg v (vXs w)
      (BitVec.ofNat 64 (xreg v (vXs w)) + (BitVec.ofNat 32 (vImm w)).signExtend 64).toNat := by
  rw [toNat_add_signExtend, toNat_vImm]
  rfl

theorem vRegOp_sloop (v : Tile) (t seed w : Nat) :
    vRegOp v t seed 0x18 w = putXreg v (vXs w) (BitVec.ofNat 64 (xreg v (vXs w)) - 1).toNat := by
  rw [toNat_sub_one]
  rfl

/-- The write of an operation on registers alone that counts nothing, from what it makes of its tile. -/
theorem vecStep_writes_to {s : State} {p t c : Nat} {w : BitVec 58} {i : Inflight} {v' : Tile}
    (h : VectorReady s p t c (vWord c w) i) (register : c ∉ [0x00, 0x01, 0x02, 0x0F, 0x18, 0x19, 0x1A]) (small : c < 64)
    (effect : ∀ seed, vRegOp (getTile s t) t seed c (vWord c w) = v') :
    vecStep s t (vWord c w) = putTile s t (vecAdvance (getTile s t) v' ((getTile s t).vec.pc + 8)) := by
  rw [vecStep_writes h (bits_vWord_opcode c w small) register, effect]

/-- Where an SLOOP goes on: at the next word once its counter is zero, else imm words on. -/
theorem vNext_sloop (v' : Tile) (pc w : Nat) :
    vNext v' pc 0x18 w =
      if xreg v' (vXs w) ≠ 0 then (pc : Int) + 8 * (BitVec.ofNat 32 (vImm w)).toInt else (pc + 8 : Nat) := by
  rw [← asSigned_toInt, toNat_vImm]
  simp [vNext]

/-- An SLOOP that does not leave the store downwards counts and goes on at its next place. -/
theorem vecStep_sloop {s : State} {p t w : Nat} {i : Inflight} {n : Int} (h : VectorReady s p t 0x18 w i)
    (op : bits w 63 58 = 0x18) :
    let v := getTile s t
    let v' := putXreg v (vXs w) (BitVec.ofNat 64 (xreg v (vXs w)) - 1).toNat
    (if xreg v' (vXs w) ≠ 0 then (v.vec.pc : Int) + 8 * (BitVec.ofNat 32 (vImm w)).toInt else (v.vec.pc + 8 : Nat)) = n →
    0 ≤ n → vecStep s t w = putTile s t (vecAdvance v v' n.toNat) := by
  intro v v' next inside
  have hstored : vStored v t 0x18 w s = s := vCount_other _ _ _ (by decide)
  have hwritten : vWritten v p t 0x18 w s = v' := vRegOp_sloop v t (getPart s p).srSeed w
  rw [vecStep_still h op (by decide), vecAct, hstored, hwritten, vNext_sloop, next, if_neg (Int.not_lt.mpr inside)]

/-- Settles O12: each is its word's step, with the model's equation for its opcode. -/
theorem vectorBitAndScalarOperationsWriteTheirRegister :
    Obligations.VectorBitAndScalarOperationsWriteTheirRegister := by
  refine ⟨?vector, ?scalar⟩
  case vector =>
    intro s p t w i v wd a b res
    refine ⟨?and, ?or, ?xor, ?shift, ?broadcast, ?convert⟩
    case and =>
      intro h
      refine congrArg Host.Outcome.next (vecStep_writes_to h (by decide) (by decide) fun seed => ?_)
      rw [vRegOp_vand, vA_vWord, vB_vWord, ← vA_vWord 0, ← vB_vWord 0]
    case or =>
      intro h
      refine congrArg Host.Outcome.next (vecStep_writes_to h (by decide) (by decide) fun seed => ?_)
      rw [vRegOp_vor, vA_vWord, vB_vWord, ← vA_vWord 0, ← vB_vWord 0]
    case xor =>
      intro h
      refine congrArg Host.Outcome.next (vecStep_writes_to h (by decide) (by decide) fun seed => ?_)
      rw [vRegOp_vxor, vA_vWord, vB_vWord, ← vA_vWord 0, ← vB_vWord 0]
    case shift =>
      intro h
      refine congrArg Host.Outcome.next (vecStep_writes_to h (by decide) (by decide) fun seed => ?_)
      rw [vRegOp_vshl, vA_vWord, ← vA_vWord 0]
    case broadcast =>
      intro h n
      exact congrArg Host.Outcome.next (vecStep_writes_to h (by decide) (by decide) fun seed => vRegOp_vbc _ _ _ _)
    case convert =>
      intro f g h m hf hg cs v'
      refine congrArg Host.Outcome.next ((vecStep_vcvt h (bits_vWord_opcode _ w (by omega)) hf hg).trans ?_)
      rw [vA_vWord, ← vA_vWord 0]
  case scalar =>
    intro s p t w i v wd x elems res imm
    refine ⟨?sum, ?max, ?sadd, ?sloop, ?swread⟩
    case sum =>
      intro h
      refine congrArg Host.Outcome.next (vecStep_writes_to h (by decide) (by decide) fun seed => ?_)
      rw [vRegOp_vrsum, vXs_vWord, ← vXs_vWord 0]
      rfl
    case max =>
      intro h
      refine congrArg Host.Outcome.next (vecStep_writes_to h (by decide) (by decide) fun seed => ?_)
      rw [vRegOp_vrmax, vXs_vWord, ← vXs_vWord 0]
      rfl
    case sadd =>
      intro h
      refine congrArg Host.Outcome.next (vecStep_writes_to h (by decide) (by decide) fun seed => ?_)
      rw [vRegOp_sadd, vXs_vWord, vImm_vWord, ← vXs_vWord 0, ← vImm_vWord 0]
    case sloop =>
      intro h v'
      have op : bits (wd 0x18) 63 58 = 0x18 := bits_vWord_opcode _ w (by omega)
      have hx : vXs (wd 0x18) = x := (vXs_vWord _ w).trans (vXs_vWord 0 w).symm
      have hi : vImm (wd 0x18) = vImm (wd 0) := (vImm_vWord _ w).trans (vImm_vWord 0 w).symm
      have hstep := fun n => vecStep_sloop (n := n) h op
      rw [hx, hi] at hstep
      exact ⟨fun ends => congrArg Host.Outcome.next (hstep _ (if_neg (not_not.mpr ends)) (Int.natCast_nonneg _)),
        fun loops inside => congrArg Host.Outcome.next (hstep _ (if_pos loops) inside)⟩
    case swread =>
      intro h r
      refine congrArg Host.Outcome.next (vecStep_writes_to h (by decide) (by decide) fun seed => ?_)
      rw [vRegOp_swread, vXs_vWord, vImm_vWord, ← vXs_vWord 0, ← vImm_vWord 0]

end Sys2Proof.Machine

/-! Every command answers a next state (17 R390, 20 R458, R462: what is refused with a code is an effect of its own), and no
command changes the queue. Commands whose occasion is looked up first are split along the lookup; the rest answer at once or
behind a condition. -/

namespace Sys2Proof.Machine

/-- An outcome is a next state: neither a fault nor a refusal. -/
def Answers (o : Host.Outcome State Fault Refusal) : Prop := ∃ u, o = .next u

theorem Answers.of_next (s : State) : Answers (.next s) := ⟨s, rfl⟩

theorem Answers.ite {a b : Host.Outcome State Fault Refusal} {c : Prop} [Decidable c] (ha : Answers a) (hb : Answers b) :
    Answers (if c then a else b) := by split <;> assumption

theorem answers_execBankSideOp t line op operand req (s : State) :
    Answers (execBankSideOp t line op operand req s) := by
  unfold execBankSideOp
  repeat' split
  all_goals exact .of_next _

theorem answers_execHubSignalApply k (s : State) : Answers (execHubSignalApply k s) := by
  unfold execHubSignalApply
  repeat' split
  all_goals exact .of_next _

theorem answers_execHeldSignalApply k (s : State) : Answers (execHeldSignalApply k s) := by
  unfold execHeldSignalApply
  repeat' split
  all_goals exact .of_next _

theorem answers_execWatchRegister k (s : State) : Answers (execWatchRegister k s) := by
  unfold execWatchRegister
  repeat' split
  all_goals exact .of_next _

theorem answers_execWatchSlotFreed k (s : State) : Answers (execWatchSlotFreed k s) := by
  unfold execWatchSlotFreed
  repeat' split
  all_goals exact .of_next _

theorem answers_execWatchTimeout list k (s : State) : Answers (execWatchTimeout list k s) := by
  unfold execWatchTimeout; dsimp only
  repeat' split
  all_goals exact .of_next _

theorem answers_execWhistleArrival k (s : State) : Answers (execWhistleArrival k s) := by
  unfold execWhistleArrival; dsimp only
  repeat' split
  all_goals exact .of_next _

theorem answers_execEnqueueSlotFreed k (s : State) : Answers (execEnqueueSlotFreed k s) := by
  unfold execEnqueueSlotFreed
  repeat' split
  all_goals exact .of_next _

theorem answers_execItemOverrun c (s : State) : Answers (execItemOverrun c s) := by
  unfold execItemOverrun
  repeat' split
  all_goals exact .of_next _

theorem answers_execHopClose p (s : State) : Answers (execHopClose p s) := by
  unfold execHopClose
  repeat' split
  all_goals exact .of_next _

theorem answers_execTrailComplete p (s : State) : Answers (execTrailComplete p s) := by
  unfold execTrailComplete
  repeat' split
  all_goals exact .of_next _

theorem answers_execRetrieverRequestComplete k (s : State) : Answers (execRetrieverRequestComplete k s) := by
  unfold execRetrieverRequestComplete; dsimp only
  repeat' split
  all_goals exact .of_next _

theorem answers_execMergeAdd k (s : State) : Answers (execMergeAdd k s) := by
  unfold execMergeAdd
  repeat' split
  all_goals exact .of_next _

theorem answers_execDeferredRowDelivered k (s : State) : Answers (execDeferredRowDelivered k s) := by
  unfold execDeferredRowDelivered
  repeat' split
  all_goals exact .of_next _

theorem answers_execMigrationSwitch k (s : State) : Answers (execMigrationSwitch k s) := by
  unfold execMigrationSwitch
  repeat' split
  all_goals exact .of_next _

theorem answers_execVersionFreed k (s : State) : Answers (execVersionFreed k s) := by
  unfold execVersionFreed
  repeat' split
  all_goals exact .of_next _

theorem answers_execPlanBuilt p (s : State) : Answers (execPlanBuilt p s) := by
  unfold execPlanBuilt
  repeat' split
  all_goals exact .of_next _

theorem answers_execPass1Slice d (s : State) : Answers (execPass1Slice d s) := by
  unfold execPass1Slice
  repeat' split
  all_goals exact .of_next _

theorem answers_execDiePass1Complete p d (s : State) : Answers (execDiePass1Complete p d s) := by
  unfold execDiePass1Complete; dsimp only
  repeat' split
  all_goals exact .of_next _

theorem answers_execNormCombine p gi k (s : State) : Answers (execNormCombine p gi k s) := by
  unfold execNormCombine; dsimp only
  repeat' split
  all_goals exact .of_next _

theorem answers_execPass2Start d (s : State) : Answers (execPass2Start d s) := by
  unfold execPass2Start
  repeat' split
  all_goals exact .of_next _

theorem answers_execPass2SliceDone d (s : State) : Answers (execPass2SliceDone d s) := by
  unfold execPass2SliceDone
  repeat' split
  all_goals exact .of_next _

theorem answers_execGroupUpdateDone p gi (s : State) : Answers (execGroupUpdateDone p gi s) := by
  unfold execGroupUpdateDone; dsimp only
  repeat' split
  all_goals exact .of_next _

theorem answers_execUncorrectableError e req (s : State) : Answers (execUncorrectableError e req s) := by
  unfold execUncorrectableError
  repeat' split
  all_goals exact .of_next _

theorem answers_execRefillArrived k good corrected (s : State) : Answers (execRefillArrived k good corrected s) := by
  unfold execRefillArrived
  repeat' split
  all_goals exact .of_next _

theorem answers_execPageCopyDone k (s : State) : Answers (execPageCopyDone k s) := by
  unfold execPageCopyDone
  repeat' split
  all_goals exact .of_next _

theorem answers_execPatrolScrub line found reads (s : State) : Answers (execPatrolScrub line found reads s) := by
  unfold execPatrolScrub; dsimp only
  repeat' split
  all_goals exact .of_next _

theorem answers_execFarReadTimeout k (s : State) : Answers (execFarReadTimeout k s) := by
  unfold execFarReadTimeout
  repeat' split
  all_goals exact .of_next _

theorem answers_execPrefetchLanded p idx (s : State) : Answers (execPrefetchLanded p idx s) := by
  unfold execPrefetchLanded; dsimp only
  repeat' split
  all_goals exact .of_next _

theorem answers_execLftHelloReceived sub peer mid inc versions youAre (s : State) :
    Answers (execLftHelloReceived sub peer mid inc versions youAre s) := by
  unfold execLftHelloReceived; dsimp only
  repeat' split
  all_goals exact .of_next _

theorem answers_execPeerTimeout peer (s : State) : Answers (execPeerTimeout peer s) := by
  unfold execPeerTimeout; dsimp only
  repeat' split
  all_goals exact .of_next _

theorem answers_execReductionDone k (s : State) : Answers (execReductionDone k s) := by
  unfold execReductionDone
  repeat' split
  all_goals exact .of_next _

theorem answers_execFrameReceived l len check (s : State) : Answers (execFrameReceived l len check s) := by
  unfold execFrameReceived
  repeat' split
  all_goals exact .of_next _

theorem answers_execPtpMessage port m (s : State) : Answers (execPtpMessage port m s) := by
  unfold execPtpMessage; dsimp only
  repeat' split
  all_goals exact .of_next _

theorem answers_execAnnounceTimeout (s : State) : Answers (execAnnounceTimeout s) := by
  unfold execAnnounceTimeout
  repeat' split
  all_goals exact .of_next _

theorem answers_execHealthProbe u answered (s : State) : Answers (execHealthProbe u answered s) := by
  unfold execHealthProbe; dsimp only
  repeat' split
  all_goals exact .of_next _

theorem answers_execReplacementReady t (s : State) : Answers (execReplacementReady t s) := by
  unfold execReplacementReady; dsimp only
  repeat' split
  all_goals exact .of_next _

theorem answers_execSelfTestDone u pass (s : State) : Answers (execSelfTestDone u pass s) := by
  unfold execSelfTestDone; dsimp only
  repeat' split
  all_goals exact .of_next _

theorem answers_execStateEntryDone idx (s : State) : Answers (execStateEntryDone idx s) := by
  unfold execStateEntryDone
  repeat' split
  all_goals exact .of_next _

theorem answers_execPowerEvaluation array (s : State) : Answers (execPowerEvaluation array s) := by
  unfold execPowerEvaluation; dsimp only
  repeat' split
  all_goals exact .of_next _

theorem answers_execThermalReport sensor milliC (s : State) : Answers (execThermalReport sensor milliC s) := by
  unfold execThermalReport; dsimp only
  repeat' split
  all_goals exact .of_next _

theorem answers_execRstNLow (s : State) : Answers (execRstNLow s) := by
  unfold execRstNLow; dsimp only
  repeat' split
  all_goals exact .of_next _

theorem answers_execColdStart slot svc fail detail (s : State) : Answers (execColdStart slot svc fail detail s) := by
  unfold execColdStart
  repeat' split
  all_goals exact .of_next _

theorem answers_execDapKey came ct sig (s : State) : Answers (execDapKey came ct sig s) := by
  unfold execDapKey
  repeat' split
  all_goals exact .of_next _

theorem answers_execHandshakeTimeout sess (s : State) : Answers (execHandshakeTimeout sess s) := by
  unfold execHandshakeTimeout
  repeat' split
  all_goals exact .of_next _

theorem answers_execDapFrameReceived came payload tag (s : State) :
    Answers (execDapFrameReceived came payload tag s) := by
  unfold execDapFrameReceived; dsimp only
  repeat' split
  all_goals exact .of_next _

theorem answers_execReassemblyTimeout sess seq (s : State) : Answers (execReassemblyTimeout sess seq s) := by
  unfold execReassemblyTimeout; dsimp only
  repeat' split
  all_goals exact .of_next _

theorem answers_execIdleTimeout sess (s : State) : Answers (execIdleTimeout sess s) := by
  unfold execIdleTimeout
  repeat' split
  all_goals exact .of_next _

theorem answers_execEventResendTimer sess (s : State) : Answers (execEventResendTimer sess s) := by
  unfold execEventResendTimer
  repeat' split
  all_goals exact .of_next _

theorem answers_execRegisterWrite w (s : State) : Answers (execRegisterWrite w s) := by
  unfold execRegisterWrite
  repeat' split
  all_goals exact .of_next _

theorem answers_execAttReportBuilt sess signed (s : State) : Answers (execAttReportBuilt sess signed s) := by
  unfold execAttReportBuilt
  repeat' split
  all_goals exact .of_next _

theorem answers_execFwBlockProgrammed (s : State) : Answers (execFwBlockProgrammed s) := by
  unfold execFwBlockProgrammed
  repeat' split
  all_goals exact .of_next _

theorem answers_execFwVerifyDone (s : State) : Answers (execFwVerifyDone s) := by
  unfold execFwVerifyDone; dsimp only
  repeat' split
  all_goals exact .of_next _

theorem answers_execModuleRemapWrite d (s : State) : Answers (execModuleRemapWrite d s) := by
  unfold execModuleRemapWrite; dsimp only
  repeat' split
  all_goals exact .of_next _

/-- Every arm of `exec` answers a next state. -/
theorem answers_exec (c : Instr) (s : State) : Answers (exec c s) :=
  match c with
  | .nop .. | .step .. | .jump .. | .endStream .. | .mma .. | .mmaT .. | .bwd2 .. | .drain .. | .load ..
  | .loadt .. | .store .. | .gather .. | .scatterAdd .. | .updP1 .. | .updP2 .. | .vexec .. | .reduceSlotSum ..
  | .reduceSelect .. | .reduceAudit .. | .normrc .. | .smaxrc .. | .signal .. | .watch .. | .wait .. | .vend ..
  | .vld .. | .vst .. | .vadd .. | .vsub .. | .vmul .. | .vfma .. | .vmax .. | .vmin .. | .vcgt .. | .vsel ..
  | .vexp .. | .vlog .. | .vrcp .. | .vrsq .. | .vcvt .. | .vand .. | .vor .. | .vxor .. | .vshl .. | .vbc ..
  | .vrsum .. | .vrmax .. | .sadd .. | .sloop .. | .sld .. | .sst .. | .swread .. | .handOver ..
  | .loadComplete .. | .panelLoadComplete .. | .sideOperandLoaded .. => .of_next _
  | .tokenTimeout .. => .ite (.of_next _) (.of_next _)
  | .bankSideOp t line op operand req => answers_execBankSideOp t line op operand req s
  | .streamRun .. => .of_next _
  | .hubSignalApply k => answers_execHubSignalApply k s
  | .heldSignalApply k => answers_execHeldSignalApply k s
  | .counterAdd .. | .counterMax .. | .counterInit .. => .of_next _
  | .watchRegister k => answers_execWatchRegister k s
  | .watchSlotFreed k => answers_execWatchSlotFreed k s
  | .watchTimeout list k => answers_execWatchTimeout list k s
  | .whistleArrival k => answers_execWhistleArrival k s
  | .syncSelect .. => .ite (.of_next _) (.of_next _)
  | .enqueue .. => .of_next _
  | .enqueueSlotFreed k => answers_execEnqueueSlotFreed k s
  | .itemDispatch .. | .itemReturn .. | .itemFault .. => .of_next _
  | .itemOverrun c => answers_execItemOverrun c s
  | .agingEvaluation .. => .ite (.of_next _) (.of_next _)
  | .houndDoorbell .. => .of_next _
  | .hopClose p => answers_execHopClose p s
  | .trailComplete p => answers_execTrailComplete p s
  | .retrieverRequestComplete k => answers_execRetrieverRequestComplete k s
  | .mergeAdd k => answers_execMergeAdd k s
  | .deferredRowDelivered k => answers_execDeferredRowDelivered k s
  | .migrationSwitch k => answers_execMigrationSwitch k s
  | .publishDoorbell .. => .of_next _
  | .versionFreed k => answers_execVersionFreed k s
  | .maskLoadDoorbell .. => .of_next _
  | .planBuilt p => answers_execPlanBuilt p s
  | .pass1Slice d => answers_execPass1Slice d s
  | .diePass1Complete p d => answers_execDiePass1Complete p d s
  | .normCombine p gi k => answers_execNormCombine p gi k s
  | .pass2Start d => answers_execPass2Start d s
  | .pass2SliceDone d => answers_execPass2SliceDone d s
  | .groupUpdateDone p gi => answers_execGroupUpdateDone p gi s
  | .stepBoundary .. => .ite (.of_next _) (.of_next _)
  | .placementReload .. => .of_next _
  | .uncorrectableError e req => answers_execUncorrectableError e req s
  | .refillArrived k good corrected => answers_execRefillArrived k good corrected s
  | .pageCopyDone k => answers_execPageCopyDone k s
  | .linkCrcFailure .. => .of_next _
  | .retrainDone .. => .ite (.of_next _) (.of_next _)
  | .patrolScrub line found reads => answers_execPatrolScrub line found reads s
  | .farReadTimeout k => answers_execFarReadTimeout k s
  | .windowOpen .. => .ite (.of_next _) (.of_next _)
  | .windowClose .. => .of_next _
  | .progressChange .. => .ite (.of_next _) (.of_next _)
  | .prefetchLanded p idx => answers_execPrefetchLanded p idx s
  | .prefetchCreditsReturned .. => .ite (.of_next _) (.of_next _)
  | .peerTableWrite .. => .of_next _
  | .lftHelloReceived sub peer mid inc versions youAre =>
      answers_execLftHelloReceived sub peer mid inc versions youAre s
  | .lftWriteReceived .. | .lftReadReceived .. | .lftReadDataReceived .. | .lftSignalReceived ..
  | .lftReduceReceived .. | .lftAckReceived .. | .lftNakReceived .. => .of_next _
  | .lftRetransmitTimeout .. | .ackTimer .. | .helloInterval .. => .ite (.of_next _) (.of_next _)
  | .peerTimeout peer => answers_execPeerTimeout peer s
  | .reduceDoorbell .. => .of_next _
  | .reductionDone k => answers_execReductionDone k s
  | .linkUp .. => .ite (.of_next _) (.of_next _)
  | .linkDown .. | .linkHoldExpiry .. => .of_next _
  | .frameReceived l len check => answers_execFrameReceived l len check s
  | .pfcFrameReceived .. | .pfcWatchdog .. | .opticInserted ..
  | .opticRemoved .. => .ite (.of_next _) (.of_next _)
  | .ptpMessage port m => answers_execPtpMessage port m s
  | .announceTimeout => answers_execAnnounceTimeout s
  | .holdoverLimit => .ite (.of_next _) (.of_next _)
  | .form .. | .start .. | .stop .. | .preempt .. | .resume .. | .restart .. | .dissolve ..
  | .partitionRestart .. => .of_next _
  | .healthProbe u answered => answers_execHealthProbe u answered s
  | .replacementReady t => answers_execReplacementReady t s
  | .retireRequest .. | .testRequest .. | .poolTestTimer .. => .of_next _
  | .selfTestDone u pass => answers_execSelfTestDone u pass s
  | .inputSample .. | .inputFault | .kennelSaveDone => .ite (.of_next _) (.of_next _)
  | .idleTimerExpiry .. => .ite (.of_next _) (.ite (.of_next _) (.of_next _))
  | .domainWake .. => .of_next _
  | .stateEntryDone idx => answers_execStateEntryDone idx s
  | .stateExitDone .. => .ite (.of_next _) (.of_next _)
  | .powerEvaluation array => answers_execPowerEvaluation array s
  | .thermalReport sensor milliC => answers_execThermalReport sensor milliC s
  | .coolantSample .. => .of_next _
  | .thermalCritical .. | .pwrEnHigh => .ite (.of_next _) (.of_next _)
  | .pwrEnLow => .of_next _
  | .rstNLow => answers_execRstNLow s
  | .rstNHigh => .ite (.of_next _) (.of_next _)
  | .coldStart slot svc fail detail => answers_execColdStart slot svc fail detail s
  | .gddr7TrainingDone .. => .ite (.of_next _) (.ite (.of_next _) (.of_next _))
  | .ptpWaitExpiry => .of_next _
  | .bootReady => .ite (.of_next _) (.of_next _)
  | .holdupCharged => .of_next _
  | .warmReset .. => .ite (.of_next _) (.of_next _)
  | .devReset .. | .dapHello .. => .of_next _
  | .dapKey came ct sig => answers_execDapKey came ct sig s
  | .handshakeTimeout sess => answers_execHandshakeTimeout sess s
  | .dapFrameReceived came payload tag => answers_execDapFrameReceived came payload tag s
  | .reassemblyTimeout sess seq => answers_execReassemblyTimeout sess seq s
  | .read .. | .write .. | .commit .. | .discard .. | .confirm .. | .subscribe .. | .eventAck .. | .ping ..
  | .close .. => .of_next _
  | .idleTimeout sess => answers_execIdleTimeout sess s
  | .eventResendTimer sess => answers_execEventResendTimer sess s
  | .alertClear .. => .of_next _
  | .registerWrite w => answers_execRegisterWrite w s
  | .attNonce .. => .of_next _
  | .attReportBuilt sess signed => answers_execAttReportBuilt sess signed s
  | .fwUpdateBegin .. | .fwUpdateBlock .. => .ite (.of_next _) (.of_next _)
  | .fwBlockProgrammed => answers_execFwBlockProgrammed s
  | .fwUpdateManifest .. | .fwUpdateActivate .. => .ite (.of_next _) (.of_next _)
  | .fwVerifyDone => answers_execFwVerifyDone s
  | .fwActivation => .ite (.of_next _) (.ite (.of_next _) (.of_next _))
  | .fwUpdateAbort .. | .romRecovery => .ite (.of_next _) (.of_next _)
  | .moduleRemapWrite d => answers_execModuleRemapWrite d s
  | .identifyWrite .. => .ite (.of_next _) (.of_next _)
  | .identifyExpiry | .removalRequest | .removalCancel => .of_next _
  | .removalSafe | .quiesceRequest | .quiesced => .ite (.of_next _) (.of_next _)
  | .ledTest .. | .alarmClear .. => .of_next _
  | .traceArm .. | .svcShortPress => .ite (.of_next _) (.of_next _)
  | .svcHold => .ite (.of_next _) (.ite (.of_next _) (.of_next _))
  | .handlePadTouch .. | .leverOpen | .leverClosed | .handlingSample .. | .liveInsertion | .flashSettingsProgram
  | .opticMonitorRead .. => .ite (.of_next _) (.of_next _)
  | .pauseIgnoreExpiry .. | .ledTestExpiry | .mergeDirectoryCleared .. => .of_next _
  | .svcPowerUpRelease => .ite (.of_next _) (.of_next _)
  | .managementPortLinkUp | .managementPortLinkDown => .of_next _

/-- Settles O55: one law for each arm of `exec`. -/
theorem everyCommandAnswersANextState : Obligations.EveryCommandAnswersANextState := answers_exec

/-- Settles O56: every arm of `exec` keeps the queue. -/
theorem commandsLeaveTheQueueAlone : Obligations.CommandsLeaveTheQueueAlone :=
  fun c s u h => ((keeps_exec c s).next u h).queue

end Sys2Proof.Machine

/-! Three rules stated whole: a warm reset of a hot module is refused (19 R446), the debug objects vanish once debug is
disabled (20 R466), and what a cold start leaves (19 R443, R447). -/

namespace Sys2Proof.Machine

/-- A hot module in CRITICAL_OFF refuses a request for a warm reset. -/
theorem requestReset_hot {s : State} (why : Nat) (hp : s.dev.phase = .critical) (hc : allCool s = false) :
    requestReset s why = raise s 0x0B03 0xFF 0 [0, 0] := by
  simp [requestReset, hp, hc]

/-- Settles O52: both requests end in `requestReset`, which a hot module refuses with event 0x0B03. -/
theorem warmResetIsRefusedWhileHot : Obligations.WarmResetIsRefusedWhileHot := by
  intro s hp hc
  refine ⟨?devReset, ?rstN⟩
  case devReset =>
    have h1 : devReset s 1 = requestReset s 3 := by simp [devReset, hp]
    exact congrArg Host.Outcome.next (h1.trans (requestReset_hot 3 hp hc))
  case rstN =>
    let s1 := putDev s { s.dev with rstN := false }
    have h1 : exec .rstNLow s = .next (raise s1 0x0B03 0xFF 0 [0, 0]) := by
      rw [← requestReset_hot (s := s1) 2 hp hc]
      show execRstNLow s = _
      simp only [execRstNLow, putDev_dev, hp, s1]
    obtain ⟨hnext, e, hlast, hcode, -, hargs⟩ := raise_log s1 0x0B03 0xFF 0 [0, 0]
    exact ⟨_, h1, hp, rfl, hnext, e, hlast, hcode, by rw [hargs]; rfl⟩

/-- Once debug is disabled there is no object from 0x8000 up but those at 0x8100. -/
theorem objFor_debugOff {s : State} (h : debugOff s = true) {idx : Nat} (hlo : 0x8000 ≤ idx) (hne : idx ≠ 0x8100) (sub : Nat)
    (w : Bool) : objFor s idx sub w = none := by
  simp [objFor, h, hlo, hne]

/-- The subindices of 0x8100 are there, read-only or read-write. -/
theorem objInfo_syncProbe : ∀ sub < 11, ∃ r, objInfo 0x8100 sub = some r ∧ r.acc < 2 := by
  have h : ∀ sub < 11, ((objInfo 0x8100 sub).any fun r => decide (r.acc < 2)) = true := by decide +kernel
  intro sub hs
  simpa [Option.any_eq_true] using h sub hs

/-- An item whose object is there, and may be read, reads with status 0. -/
theorem readItem_found {s : State} (x : Session) (i : ReadItem) {r : ObjRow}
    (hr : objFor s i.index.toNat i.sub.toNat false = some r) (ha : r.acc < 2) : (readItem s x i).1 = 0 := by
  have h2 : r.acc ≠ 2 := by omega
  have h3 : r.acc ≠ 3 := by omega
  simp only [readItem, hr, h2, h3, if_false]
  split <;> simp

/-- Settles O53: `objFor` answers none for the debug objects, and the rows of 0x8100 are readable. -/
theorem debugObjectsVanishOnceDisabled : Obligations.DebugObjectsVanishOnceDisabled := by
  intro s x hoff
  refine ⟨?reads, ?writes, ?probe⟩
  case reads =>
    intro i hlo hne
    simp only [readItem, objFor_debugOff hoff hlo hne]
  case writes =>
    intro n idx sub data hlo hne
    simp only [writeObj, objFor_debugOff hoff hlo hne]
    cases getSession s n <;> rfl
  case probe =>
    intro i hp hidx hsub
    obtain ⟨r, hr, ha⟩ := objInfo_syncProbe i.sub.toNat (by omega)
    exact readItem_found x i (r := r) (by simpa [objFor, hp, hidx] using hr) ha

/-- Settles O58: the reset state is empty, and every lookup in it answers the default. -/
theorem resetIsReadyEmptyAndWellFormed : Obligations.ResetIsReadyEmptyAndWellFormed :=
  ⟨Sys2Proof.Tests.witness_inv, rfl, rfl, fun _ => rfl, fun _ => rfl, fun _ => rfl, rfl, rfl⟩

end Sys2Proof.Machine

/-! The housekeeping commands leave training alone (21 R488; 22 R498; 16 R382): memory, tiles, partitions and counters are
one value here, `training`, that each function behind these commands keeps. -/

namespace Sys2Proof.Machine

/-- What training sees: device memory, the tiles, the partitions and the counters at their hubs. -/
def training (s : State) : Map (BitVec 8) × Map Tile × Map Part × Sync := (s.mem, s.tiles, s.parts, s.sync)

/-- An outcome leaves the training of `s` as it is. -/
def Spares (s : State) (o : Host.Outcome State Fault Refusal) : Prop := ∀ u, o = .next u → training u = training s

theorem Spares.of_next {s u : State} (h : training u = training s) : Spares s (.next u) := by
  rintro _ ⟨⟩
  exact h

theorem Spares.same (s : State) : Spares s (.next s) := .of_next rfl

theorem Spares.ite {s : State} {a b : Host.Outcome State Fault Refusal} {c : Prop} [Decidable c] (ha : Spares s a)
    (hb : Spares s b) : Spares s (if c then a else b) := by
  split <;> assumption

/-- Two ways to go on that keep training keep it together. -/
theorem training_ite {s a b : State} {c : Prop} [Decidable c] (ha : training a = training s) (hb : training b = training s) :
    training (if c then a else b) = training s := by
  split <;> assumption

/-! ## The operations of the state -/

@[simp] theorem training_putFront (s : State) (v : FrontPanel) : training (putFront s v) = training s := rfl
@[simp] theorem training_putDev (s : State) (v : Dev) : training (putDev s v) = training s := rfl
@[simp] theorem training_putTrace (s : State) (v : Trace) : training (putTrace s v) = training s := rfl
@[simp] theorem training_putFw (s : State) (v : Firmware) : training (putFw s v) = training s := rfl
@[simp] theorem training_putPower (s : State) (v : Power) : training (putPower s v) = training s := rfl
@[simp] theorem training_putTime (s : State) (v : Time) : training (putTime s v) = training s := rfl
@[simp] theorem training_putDap (s : State) (v : Dap) : training (putDap s v) = training s := rfl
@[simp] theorem training_putPorts (s : State) (v : Ports) : training (putPorts s v) = training s := rfl
@[simp] theorem training_putLog (s : State) (v : EventLog) : training (putLog s v) = training s := rfl
@[simp] theorem training_putSettings (s : State) (v : Settings) : training (putSettings s v) = training s := rfl
@[simp] theorem training_addCtr (s : State) (i k n : Nat) : training (addCtr s i k n) = training s := rfl
@[simp] theorem training_raise (s : State) (c p u : Nat) (l : List Nat) : training (raise s c p u l) = training s := rfl
@[simp] theorem training_freshFree (s : State) : training (freshFree s).2 = training s := rfl
@[simp] theorem training_putSession (s : State) (x : Session) : training (putSession s x) = training s := rfl
@[simp] theorem training_putOptic (s : State) (p : Nat) (o : Optic) : training (putOptic s p o) = training s := rfl
@[simp] theorem training_putPtp (s : State) (v : PtpExchange) : training (putPtp s v) = training s := rfl
@[simp] theorem training_portCtr (s : State) (p k n : Nat) : training (portCtr s p k n) = training s := rfl
@[simp] theorem training_shiftTime (s : State) (d : Int) : training (shiftTime s d) = training s := rfl
@[simp] theorem training_servoCorr (s : State) : training (servoCorr s) = training s := rfl

@[simp] theorem training_wakeDomain (s : State) (i : Nat) : training (wakeDomain s i) = training s := by
  obtain ⟨c, w, h, -⟩ := wakeDomain_eq s i
  rw [h]
  rfl

@[simp] theorem training_stepDone (s : State) (b k : Nat) : training (stepDone s b k) = training s := by
  unfold stepDone
  split <;> rfl

@[simp] theorem training_beginCold (s : State) (why : Nat) : training (beginCold s why) = training s := rfl

/-! ## The panel, the input and the optics -/

@[simp] theorem training_setIdentify (s : State) (v : Nat) : training (setIdentify s v) = training s := by
  unfold setIdentify
  split <;> simp

@[simp] theorem training_ledTest (s : State) (v : Nat) : training (ledTest s v) = training s := by
  unfold ledTest
  split <;> simp

@[simp] theorem training_traceArm (s : State) (v : Nat) : training (traceArm s v).1 = training s := by
  unfold traceArm
  split_ifs <;> simp

@[simp] theorem training_alarmClear (s : State) (p v : Nat) : training (alarmClear s p v) = training s := by
  unfold alarmClear
  split <;> simp

@[simp] theorem training_alertClear (s : State) (v : Nat) : training (alertClear s v) = training s := by
  unfold alertClear
  split <;> simp

@[simp] theorem training_setStage (s : State) (st : Nat) : training (setStage s st) = training s := by
  unfold setStage
  dsimp only
  split <;> simp

@[simp] theorem training_inputBands (s : State) (mv : Nat) : training (inputBands s mv) = training s := by
  unfold inputBands
  dsimp only
  split_ifs <;> simp

theorem spares_execHandlingSample (mg : BitVec 16) (s : State) : Spares s (execHandlingSample mg s) := by
  exact .ite (.of_next rfl) (.of_next (training_ite (training_raise ..) rfl))

theorem spares_execOpticMonitorRead (p : Fin 4) (temp supply : BitVec 32) (lanes : List Byte) (r : OpticReading)
    (s : State) : Spares s (execOpticMonitorRead p temp supply lanes r s) :=
  .ite (.same s) (.of_next (by simp))

theorem spares_execHoldupCharged (s : State) : Spares s (execHoldupCharged s) := by
  refine .of_next ?_
  dsimp only
  split_ifs <;> simp

theorem spares_execCoolantSample (flow : BitVec 32) (inlet : Int) (s : State) : Spares s (execCoolantSample flow inlet s) := by
  refine .of_next ?_
  dsimp only
  split_ifs <;> simp

theorem spares_execInputSample (mv ma : BitVec 32) (s : State) : Spares s (execInputSample mv ma s) := by
  unfold execInputSample
  dsimp only
  with_reducible refine .ite (.of_next (training_ite ?cold ?sampled)) (.of_next (training_ite ?stage ?kept))
  case cold => exact training_beginCold ..
  case sampled => exact training_putDev ..
  case stage =>
    rw [training_setStage]
    with_reducible exact training_ite ((training_putPower ..).trans (training_inputBands ..)) (training_inputBands ..)
  case kept =>
    with_reducible exact training_ite ((training_putPower ..).trans (training_inputBands ..)) (training_inputBands ..)

/-! ## The update -/

@[simp] theorem training_refuseUpdate (s : State) (c : Nat) : training (refuseUpdate s c) = training s := rfl
@[simp] theorem training_setSlotState (s : State) (k v : Nat) : training (setSlotState s k v) = training s := rfl
@[simp] theorem training_dropUpdate (s : State) : training (dropUpdate s) = training s := rfl
@[simp] theorem training_rejectImage (s : State) (k c b : Nat) : training (rejectImage s k c b) = training s := rfl

@[simp] theorem training_handover (s : State) : training (handover s) = training s := by
  unfold handover
  split <;> simp

@[simp] theorem training_fwBegin (s : State) (n k len : Nat) : training (fwBegin s n k len).1 = training s := by
  unfold fwBegin
  split_ifs <;> simp

@[simp] theorem training_fwBlock (s : State) (n b h c : Nat) (data : List Byte) :
    training (fwBlock s n b h c data).1 = training s := by
  unfold fwBlock
  iterate 5 (split; · simp)
  dsimp only
  split
  · simp
  · split_ifs <;> simp

@[simp] theorem training_fwManifest (s : State) (n : Nat) (m : List Byte) : training (fwManifest s n m).1 = training s := by
  unfold fwManifest
  split <;> simp

@[simp] theorem training_fwActivate (s : State) (n v : Nat) : training (fwActivate s n v).1 = training s := by
  unfold fwActivate
  iterate 2 (split; · simp)
  split
  · split <;> simp
  · simp
  · rfl

@[simp] theorem training_fwAbort (s : State) (n v : Nat) : training (fwAbort s n v).1 = training s := by
  unfold fwAbort
  split_ifs <;> simp

theorem spares_execFwBlockProgrammed (s : State) : Spares s (execFwBlockProgrammed s) := by
  unfold execFwBlockProgrammed
  split
  · exact .same s
  · exact .of_next (by simp)

theorem spares_execFwVerifyDone (s : State) : Spares s (execFwVerifyDone s) := by
  refine .ite (.same s) ?_
  dsimp only
  split <;> exact .of_next (by simp)

/-! ## Device time -/

@[simp] theorem training_ptpSend (s : State) (port len : Nat) : training (ptpSend s port len) = training s := by
  unfold ptpSend
  split <;> simp

@[simp] theorem training_announced (s : State) (c : PtpParent) : training (announced s c) = training s := by
  unfold announced
  dsimp only
  split_ifs <;> simp

@[simp] theorem training_enterLocked (s : State) (d : Int) : training (enterLocked s d) = training s := by
  simp [enterLocked]

@[simp] theorem training_measured (s : State) (d : Int) : training (measured s d) = training s := by
  unfold measured
  dsimp only
  split
  · split_ifs <;> simp
  · split_ifs <;> simp
  · simp

@[simp] theorem training_useDelay (s : State) (d : Int) : training (useDelay s d) = training s := by
  unfold useDelay
  dsimp only
  split <;> simp

@[simp] theorem training_askDelay (s : State) (port len : Nat) : training (askDelay s port len) = training s := by
  simp [askDelay]

@[simp] theorem training_synced (s : State) (port : Nat) (t1 t2 : Int) : training (synced s port t1 t2) = training s := by
  unfold synced
  dsimp only
  split
  · simp
  · rw [training_askDelay]
    split <;> simp

@[simp] theorem training_ptpExchange (s : State) (port : Nat) (m : PtpMsg) : training (ptpExchange s port m) = training s := by
  unfold ptpExchange
  dsimp only
  split
  case h_1 => split_ifs <;> simp
  case h_2 => split <;> [split_ifs <;> simp; rfl]
  case h_3 => split_ifs <;> [rfl; (split <;> simp)]
  case h_4 => split_ifs <;> simp
  case h_5 => split_ifs <;> simp
  case h_6 => split <;> [split_ifs <;> simp; rfl]
  case h_7 => rfl
  case h_8 => rfl

theorem spares_execPtpMessage (port : Fin 129) (m : PtpMsg) (s : State) : Spares s (execPtpMessage port m s) := by
  refine .ite (.same s) ?_
  split <;> exact .of_next (by simp)

theorem spares_execAnnounceTimeout (s : State) : Spares s (execAnnounceTimeout s) := by
  unfold execAnnounceTimeout
  split <;> exact .of_next rfl

theorem spares_execHoldoverLimit (s : State) : Spares s (execHoldoverLimit s) := .ite (.of_next rfl) (.same s)

/-! ## The dictionary's handshakes -/

@[simp] theorem training_sendDap (s : State) (o : DapOut) : training (sendDap s o) = training s := by
  unfold sendDap
  split
  · rfl
  · dsimp only
    split <;> simp

@[simp] theorem training_endSession (s : State) (n : Nat) : training (endSession s n) = training s := by
  unfold endSession
  dsimp only
  split <;> simp

@[simp] theorem training_endHandshake (s : State) (via : Nat) (src : DapSource) (n t c : Nat) (l : List Byte) :
    training (endHandshake s via src n t c l) = training s :=
  training_sendDap ..

@[simp] theorem training_helloMsg (s : State) (via : Nat) (src : DapSource) (nonce versions role : Nat) (key : List Byte) :
    training (helloMsg s via src nonce versions role key) = training s := by
  unfold helloMsg
  dsimp only
  split_ifs <;> simp

@[simp] theorem training_refuseKey (s : State) (x : Session) (status : Nat) : training (refuseKey s x status) = training s := by
  unfold refuseKey
  dsimp only
  split <;> simp

@[simp] theorem training_keyMsg (s : State) (x : Session) (ct sig : List Byte) : training (keyMsg s x ct sig) = training s := by
  unfold keyMsg
  dsimp only
  split_ifs <;> simp

theorem spares_execDapKey (came : DapArrival) (ct sig : List Byte) (s : State) : Spares s (execDapKey came ct sig s) := by
  unfold execDapKey
  split
  · exact .same s
  · exact .of_next (by simp)

theorem spares_execHandshakeTimeout (sess : BitVec 32) (s : State) : Spares s (execHandshakeTimeout sess s) := by
  unfold execHandshakeTimeout
  split
  · exact .ite (.same s) (.of_next (by simp))
  · exact .same s

theorem spares_execIdleTimeout (sess : BitVec 32) (s : State) : Spares s (execIdleTimeout sess s) := by
  unfold execIdleTimeout
  split
  · exact .ite (.of_next (by simp)) (.same s)
  · exact .same s

theorem spares_execReassemblyTimeout (sess seq : BitVec 32) (s : State) : Spares s (execReassemblyTimeout sess seq s) := by
  unfold execReassemblyTimeout
  dsimp only
  split <;> exact .of_next (by simp)

@[simp] theorem training_attNonce (s : State) (n : Nat) (l : List Byte) : training (attNonce s n l) = training s := by
  unfold attNonce
  split <;> simp

theorem spares_execAttReportBuilt (sess : BitVec 32) (signed : Bool) (s : State) :
    Spares s (execAttReportBuilt sess signed s) := by
  unfold execAttReportBuilt
  split
  · exact .same s
  · exact .ite (.same s) (.ite (.of_next (by simp)) (.of_next (by simp)))

/-! ## All of them -/

/-- Every housekeeping command leaves training as it is. -/
theorem spares_housekeeping {c : Instr} (h : isHousekeeping c = true) (s : State) : Spares s (exec c s) := by
  cases c
  case identifyWrite v => exact .ite (.of_next (by simp)) (.same s)
  case identifyExpiry => exact .of_next rfl
  case ledTest v => exact .of_next (training_ledTest ..)
  case ledTestExpiry => exact .of_next rfl
  case svcShortPress => exact .ite (.of_next (by simp)) (.same s)
  case handlingSample mg => exact spares_execHandlingSample mg s
  case leverClosed => exact .ite (.of_next rfl) (.same s)
  case liveInsertion => exact .ite (.of_next rfl) (.same s)
  case managementPortLinkDown => exact .of_next rfl
  case traceArm v => exact .ite (.same s) (.of_next (by simp))
  case alarmClear p v => exact .of_next (training_alarmClear ..)
  case opticMonitorRead p te su la r => exact spares_execOpticMonitorRead p te su la r s
  case alertClear v => exact .of_next (training_alertClear ..)
  case attNonce n nonce => exact .of_next (training_attNonce ..)
  case attReportBuilt n signed => exact spares_execAttReportBuilt n signed s
  case flashSettingsProgram => exact .ite (.same s) (.of_next rfl)
  case holdupCharged => exact spares_execHoldupCharged s
  case fwUpdateBegin n k len => exact .ite (.of_next (by simp)) (.same s)
  case fwUpdateBlock n b hf crc data => exact .ite (.of_next (by simp)) (.same s)
  case fwUpdateManifest n m => exact .ite (.of_next (by simp)) (.same s)
  case fwUpdateActivate n v => exact .ite (.of_next (by simp)) (.same s)
  case fwUpdateAbort n v => exact .ite (.of_next (by simp)) (.same s)
  case fwBlockProgrammed => exact spares_execFwBlockProgrammed s
  case fwVerifyDone => exact spares_execFwVerifyDone s
  case ptpMessage port m => exact spares_execPtpMessage port m s
  case announceTimeout => exact spares_execAnnounceTimeout s
  case holdoverLimit => exact spares_execHoldoverLimit s
  case coolantSample flow inlet => exact spares_execCoolantSample flow inlet s
  case inputSample mv ma => exact spares_execInputSample mv ma s
  case dapHello via src nonce v role key => exact .of_next (training_helloMsg ..)
  case dapKey came ct sig => exact spares_execDapKey came ct sig s
  case handshakeTimeout n => exact spares_execHandshakeTimeout n s
  case idleTimeout n => exact spares_execIdleTimeout n s
  case reassemblyTimeout n seq => exact spares_execReassemblyTimeout n seq s
  all_goals exact absurd h Bool.false_ne_true

/-- Settles O60: `training` is the same before and after. -/
theorem housekeepingCommandsTouchNoTraining : Obligations.HousekeepingCommandsTouchNoTraining := by
  intro c s u hc hu
  simpa [training] using spares_housekeeping hc s u hu

end Sys2Proof.Machine

/-! Power (18): input samples and the input fault, the cap and the hold-up store, heat; and why an entry that ends may wake
another domain. -/

namespace Sys2Proof.Machine

/-! ## What the shut-down leaves -/

/-- Every domain but MGMT is OFF once the switched domains are. -/
theorem getDom_domainsOff (s : State) (mgmt : Bool) {i : Nat} (hi : i < 48) (hm : i = 46 → mgmt = false) :
    getDom (domainsOff s mgmt) i = 4 := by
  have h : ∀ b : Bool, ∀ i < 48, (i = 46 → b = false) →
      mget 0 ((upFrom 0 48).filterMap fun i => if i = 46 && b then none else some (i, 4)) i = 4 := by decide +kernel
  exact h mgmt i hi hm

theorem getDom_putDev (s : State) (v : Dev) (i : Nat) : getDom (putDev s v) i = getDom s i := rfl

/-- What a sample writes and its bands, its cause and the stage leave: voltage, current, their runs, and the start-up
record. -/
def sampleOf (s : State) : Nat × Nat × Nat × Nat × Dev :=
  (s.power.mv, s.power.ma, s.power.lowRun, s.power.overRun, s.dev)

theorem sampleOf_eq {s u : State} (h : sampleOf u = sampleOf s) : u.power.mv = s.power.mv ∧ u.power.ma = s.power.ma ∧
    u.power.lowRun = s.power.lowRun ∧ u.power.overRun = s.power.overRun ∧ u.dev = s.dev := by
  simpa only [sampleOf, Prod.mk.injEq] using h

/-- The parts of an unchanged training. -/
theorem training_eq {s u : State} (h : training u = training s) :
    u.mem = s.mem ∧ u.tiles = s.tiles ∧ u.parts = s.parts ∧ u.sync = s.sync := by
  simpa only [training, Prod.mk.injEq] using h

theorem sampleOf_setStage (s : State) (st : Nat) : sampleOf (setStage s st) = sampleOf s := by
  unfold setStage
  dsimp only
  split <;> rfl

theorem sampleOf_inputBands (s : State) (mv : Nat) : sampleOf (inputBands s mv) = sampleOf s := by
  unfold inputBands
  dsimp only
  split_ifs <;> simp [sampleOf]

/-! ## Input samples and the input fault (R411 to R413) -/

/-- The state with a sample taken, before its bands and its cause. -/
def sampled (s : State) (v a : Nat) : State :=
  let l := s.power.samples ++ [(v, a)]
  let s := putPower s { s.power with
    mv := v, ma := a, samples := l.drop (l.length - 100)
    lowRun := if v < 39000 then s.power.lowRun + 1 else 0
    overRun := if 120000 < a then s.power.overRun + 1 else 0 }
  let ok := decide (40000 ≤ v) && decide (v ≤ 54000)
  let s := putPower s { s.power with okRun := if ok then s.power.okRun + 1 else 0 }
  putDev s { s.dev with
    inputOk := ok, lastReset := if ok && !s.dev.inputOk && !poweredOn s then 0 else s.dev.lastReset }

/-- The state with the cause of an input fault that the samples show. -/
def causeKept (s : State) (v a : Nat) : State :=
  let c := inputCause s
  if c ≠ 0 && s.power.faultCause = 0 then
    putPower s { s.power with faultCause := c, faultValue := if c = 3 then a else v }
  else s

/-- The stage that the average current asks for (R427). -/
def stageAsked (s : State) : State :=
  let total := sumOf (s.power.samples.map Prod.snd)
  if s.power.samples.length = 100 && decide (110000 * 100 < total) && decide (s.power.stage < 3) then setStage s 3 else s

theorem exec_inputSample_powered {s : State} (h : poweredOn s = true) (mv ma : BitVec 32) :
    exec (.inputSample mv ma) s =
      .next (stageAsked (causeKept (inputBands (sampled s mv.toNat ma.toNat) mv.toNat) mv.toNat ma.toNat)) := by
  have hn : ¬ (!poweredOn (sampled s mv.toNat ma.toNat)) = true := by
    rw [show poweredOn (sampled s mv.toNat ma.toNat) = true from h]
    decide
  exact if_neg hn

theorem sampleOf_causeKept (s : State) (v a : Nat) :
    sampleOf (causeKept s v a) = sampleOf s ∧ training (causeKept s v a) = training s := by
  unfold causeKept
  dsimp only
  split <;> exact ⟨rfl, rfl⟩

theorem sampleOf_stageAsked (s : State) : sampleOf (stageAsked s) = sampleOf s ∧ training (stageAsked s) = training s := by
  unfold stageAsked
  dsimp only
  split
  · exact ⟨sampleOf_setStage .., training_setStage ..⟩
  · exact ⟨rfl, rfl⟩

/-- A flash write that completes changes the firmware record alone. -/
theorem finishFlash_eq (s : State) : ∃ v, finishFlash s = putFw s v := by
  unfold finishFlash
  split
  · exact ⟨_, rfl⟩
  · exact ⟨s.fw, rfl⟩

/-- It depends on the firmware record alone. -/
theorem finishFlash_congr {s t : State} (h : t.fw = s.fw) : (finishFlash t).fw = (finishFlash s).fw := by
  unfold finishFlash
  rw [h]
  split
  · rfl
  · exact h

theorem exec_inputFault {s : State} (hc : s.power.faultCause ≠ 0) (hp : poweredOn s = true) :
    let t := raise (addCtr s 0x4F00 7 1) 0x0103 0xFF 0 [s.power.faultCause, s.power.faultValue]
    exec .inputFault s =
      .next (shutDown (putPower t { t.power with faultCause := 0, lowRun := 0, overRun := 0, faulted := true })) := by
  have hn : ¬ (decide (s.power.faultCause = 0) || !poweredOn s) = true := by simp [hc, hp]
  exact if_neg hn

/-- The state at the end of the kennel save. -/
def saveDone (s : State) : State :=
  let s := domainsOff s false
  putDev (putDap s { s.dap with sessions := [], out := [] }) { s.dev with phase := .off }

theorem exec_kennelSaveDone {s : State} (hs : s.dev.phase = .saving) (hcold : (s.dev.pwrEn && s.dev.inputOk) = false) :
    exec .kennelSaveDone s = .next (saveDone s) := by
  have hstay : ¬ mayStart (saveDone s) = true := by
    have h : mayStart (saveDone s) = ((s.dev.pwrEn && s.dev.inputOk) &&
      (!s.power.faulted || decide (spanSamples 100000 ≤ s.power.okRun))) := rfl
    simp [h, hcold]
  exact (if_pos hs).trans (congrArg Host.Outcome.next (if_neg hstay))

/-- Settles O37: the sample, the fault and the end of the save, each by what its functions keep. -/
theorem inputIsSampledAndItsFaultsShutDown : Obligations.InputIsSampledAndItsFaultsShutDown := by
  refine ⟨?sample, ?fault, ?saved⟩
  case sample =>
    intro s mv ma hp
    let t := inputBands (sampled s mv.toNat ma.toNat) mv.toNat
    let u := stageAsked (causeKept t mv.toNat ma.toNat)
    obtain ⟨hcause, htcause⟩ := sampleOf_causeKept t mv.toNat ma.toNat
    obtain ⟨hstage, htstage⟩ := sampleOf_stageAsked (causeKept t mv.toNat ma.toNat)
    have hs : sampleOf u = sampleOf (sampled s mv.toNat ma.toNat) := (hstage.trans hcause).trans (sampleOf_inputBands ..)
    have ht : training u = training s := (htstage.trans htcause).trans (training_inputBands ..)
    obtain ⟨hmv, hma, hlow, hover, hdev⟩ := sampleOf_eq hs
    obtain ⟨hmem, -, hparts, -⟩ := training_eq ht
    exact ⟨u, exec_inputSample_powered hp mv ma, hmv, hma, hlow, hover, congrArg Dev.inputOk hdev, hmem, hparts⟩
  case fault =>
    intro s hc hp
    refine ⟨_, exec_inputFault hc hp, ?_⟩
    generalize ht : putPower _ _ = t
    have hfw : t.fw = s.fw := by simp [← ht]
    have hlog : t.log.next = s.log.next + 1 := by
      rw [← ht, putPower_log]
      exact (raise_log ..).1
    have hcause : t.power.faultCause = 0 := by rw [← ht, putPower_power]
    obtain ⟨v, hv⟩ := finishFlash_eq t
    refine ⟨rfl, rfl, rfl, ?_, fun i hi hne => ?_, ?_, finishFlash_congr hfw⟩
    · show (finishFlash t).power.faultCause = 0
      rw [hv, putFw_power, hcause]
    · exact getDom_domainsOff (wipe (finishFlash t)) true hi (fun h => absurd h hne)
    · show (finishFlash t).log.next = _
      rw [hv, putFw_log, hlog]
  case saved =>
    intro s hs hcold
    exact ⟨_, exec_kennelSaveDone hs hcold, rfl, rfl, rfl, fun i hi => getDom_domainsOff s false hi (fun _ => rfl), rfl⟩

/-! ## The cap and the hold-up store (R426 to R428, R443) -/

/-- The runs of an evaluation: how long the module was above its cap, and could step up. -/
def evaluated (s : State) : State :=
  let above := decide (capMw s < inputMw s)
  let v := s.power
  putPower s { v with
    overCap := if above then v.overCap + 1 else 0
    underCap := if v.stage ≠ 0 && mayStepUp s then v.underCap + 1 else 0, sinceStep := v.sinceStep + 1
    unmet := if above && v.stage = 3 then v.unmet + 1 else 0
    unmetRaised := v.unmetRaised && above && v.stage = 3 }

/-- An evaluation that is due for a step down of the stage takes it. -/
theorem exec_powerEvaluation_down (s : State) (a : BitVec 32) :
    let t := evaluated (putPower s { s.power with arrayMw := a.toNat })
    10 ≤ t.power.overCap → t.power.stage < 3 → 10 ≤ t.power.sinceStep →
      exec (.powerEvaluation a) s = .next (setStage t (t.power.stage + 1)) := by
  intro t ho hst hs
  have hdue : (decide (10 ≤ t.power.overCap) && decide (t.power.stage < 3) && decide (10 ≤ t.power.sinceStep)) = true := by
    simp [ho, hst, hs]
  exact if_pos hdue

/-- An evaluation that is due for nothing leaves its runs. -/
theorem exec_powerEvaluation_stay (s : State) (a : BitVec 32) :
    let t := evaluated (putPower s { s.power with arrayMw := a.toNat })
    t.power.overCap = 0 → t.power.underCap = 0 → t.power.unmet = 0 → exec (.powerEvaluation a) s = .next t := by
  intro t ho hu hm
  have h1 : ¬ (decide (10 ≤ t.power.overCap) && decide (t.power.stage < 3) && decide (10 ≤ t.power.sinceStep)) = true := by
    simp [ho]
  have h2 : ¬ 1000 ≤ t.power.underCap := by omega
  have h3 : ¬ (decide (100 ≤ t.power.unmet) && !t.power.unmetRaised) = true := by simp [hm]
  exact (if_neg h1).trans ((if_neg h2).trans (if_neg h3))

/-- The power record of a stage that is set. -/
theorem setStage_power (s : State) (st : Nat) :
    (setStage s st).power = { s.power with stage := st, overCap := 0, underCap := 0, sinceStep := 0 } := by
  unfold setStage
  dsimp only
  split <;> rfl

/-- The hold-up store with at least 85 %. -/
def charged (s : State) : State :=
  if s.power.holdup < 85 then putPower s { s.power with holdup := 85, holdupAt := s.ao } else s

/-- The settings that wait are in flash. -/
def flashWritten (s : State) : State :=
  if s.settings.flashWaiting.isEmpty then s
  else addCtr (putSettings s { s.settings with flashWaiting := [] }) 0x4000 5 1

theorem flashWritten_keeps (s : State) : (flashWritten s).power = s.power ∧ (flashWritten s).settings.flashWaiting = [] ∧
    (flashWritten s).settings.committed = s.settings.committed ∧ (flashWritten s).mem = s.mem := by
  unfold flashWritten
  split
  next h => exact ⟨rfl, List.isEmpty_iff.mp h, rfl, rfl⟩
  next => exact ⟨rfl, rfl, rfl, rfl⟩

theorem charged_keeps (s : State) : (charged s).power.holdup = max 85 s.power.holdup ∧
    (charged s).settings = s.settings ∧ (charged s).mem = s.mem := by
  unfold charged
  split
  next h => exact ⟨(Nat.max_eq_left h.le).symm, rfl, rfl⟩
  next h => exact ⟨(Nat.max_eq_right (Nat.not_lt.mp h)).symm, rfl, rfl⟩

/-- Settles O38: which branch of the evaluation is due follows from its runs. -/
theorem theCapSetsTheStage : Obligations.TheCapSetsTheStage := by
  refine ⟨fun s a => ⟨?above, ?below⟩, ?charged⟩
  case above =>
    intro hcap hover hsince hst
    have hrun : (evaluated (putPower s { s.power with arrayMw := a.toNat })).power.overCap = s.power.overCap + 1 := by
      simp [evaluated, hcap]
    have he := exec_powerEvaluation_down s a (by omega) hst (show 10 ≤ s.power.sinceStep + 1 by omega)
    have hpow := setStage_power (evaluated (putPower s { s.power with arrayMw := a.toNat })) (s.power.stage + 1)
    obtain ⟨hmem, htiles, -⟩ := training_eq
      (training_setStage (evaluated (putPower s { s.power with arrayMw := a.toNat })) (s.power.stage + 1))
    exact ⟨_, he, congrArg Power.stage hpow, congrArg Power.overCap hpow, congrArg Power.sinceStep hpow, hmem, htiles⟩
  case below =>
    intro hcap hup
    have hnot : ¬ capMw (putPower s { s.power with arrayMw := a.toNat }) <
      inputMw (putPower s { s.power with arrayMw := a.toNat }) := by omega
    have ho : (evaluated (putPower s { s.power with arrayMw := a.toNat })).power.overCap = 0 := by simp [evaluated, hnot]
    have hu : (evaluated (putPower s { s.power with arrayMw := a.toNat })).power.underCap = 0 := by simp [evaluated, hup]
    have hm : (evaluated (putPower s { s.power with arrayMw := a.toNat })).power.unmet = 0 := by simp [evaluated, hnot]
    exact ⟨_, exec_powerEvaluation_stay s a ho hu hm, rfl, ho, hu, rfl, rfl⟩
  case charged =>
    intro s
    obtain ⟨hpow, hdue, hset, hmem⟩ := flashWritten_keeps (charged s)
    obtain ⟨hhold, hset', hmem'⟩ := charged_keeps s
    exact ⟨flashWritten (charged s), rfl, (congrArg Power.holdup hpow).trans hhold, hdue,
      hset.trans (congrArg Settings.committed hset'), hmem.trans hmem'⟩

/-! ## Heat (R430 to R432, R444) -/

/-- A die's level once it is set. -/
theorem setLevel_level (s : State) (d l : Nat) (c : Int) :
    mget 0 (setLevel s d l c).power.level d = l ∧ training (setLevel s d l c) = training s := by
  unfold setLevel
  dsimp only
  split_ifs <;> simp [mget_mset_same]

theorem exec_thermalReport_rise {s : State} {d : Fin 51} {c th : Int} (hd : d.val < 11)
    (hl : (levelAt d)[mget 0 s.power.level d]? = some th) (hc : th ≤ c) :
    exec (.thermalReport d c) s = .next (setLevel
      (putPower s { s.power with dieC := mset 0 s.power.dieC d c, coolRun := coolRuns s d c }) d
      (mget 0 s.power.level d + 1) c) := by
  show execThermalReport d c s = _
  simp only [execThermalReport, Nat.not_le.mpr hd, if_false, putPower_power, hl, if_pos hc]

theorem exec_thermalCritical {s : State} {k : Fin 3} {n : Fin 64} (hon : poweredOn s = true) (hp : s.dev.phase ≠ .critical)
    (hc : isCritical s k n = true) :
    let t := raise s 0x0205 0xFF 0 [k.val + 1, if k.val = 2 then 0 else n.val]
    exec (.thermalCritical k n) s = .next (putDev (domainsOff (wipe t) true) { s.dev with
      phase := if s.dev.phase = .failed || s.dev.phase = .failedRom then s.dev.phase else .critical }) := by
  have hn : ¬ (!poweredOn s || decide (s.dev.phase = .critical) || !isCritical s k n) = true := by simp [hon, hp, hc]
  exact if_neg hn

/-- Settles O40: each report by the branch of its function that its premises choose. -/
theorem heatIsReportedAndLimited : Obligations.HeatIsReportedAndLimited := by
  refine ⟨?device, ?rise, ?coolant, ?critical⟩
  case device =>
    intro s d c hd
    exact if_pos hd
  case rise =>
    intro s d c th hd l hl hc
    obtain ⟨hlev, htr⟩ := setLevel_level
      (putPower s { s.power with dieC := mset 0 s.power.dieC d c, coolRun := coolRuns s d c }) d (l + 1) c
    exact ⟨_, exec_thermalReport_rise hd hl hc, hlev, (training_eq htr).1, (training_eq htr).2.1⟩
  case coolant =>
    intro s f c
    refine ⟨_, rfl, ?_⟩
    dsimp only
    split_ifs <;> simp
  case critical =>
    intro s k n hon hp hc
    refine ⟨_, exec_thermalCritical hon hp hc, rfl, by simp,
      fun i hi hne => ?_, (raise_log ..).1⟩
    rw [getDom_putDev]
    exact getDom_domainsOff _ true hi (fun h => absurd h hne)

/-! ## An entry that wakes another domain (R421, R492) -/

/-- An entry that no wake raced only completes. -/
theorem exec_stateEntryDone_quiet {s : State} {i : Fin 48} {st : Nat} (he : mfind s.power.entering i = some st)
    (hw : s.power.woken.contains i.val = false) : exec (.stateEntryDone i) s = .next (completeEntry s i st) := by
  show execStateEntryDone i s = _
  simp only [execStateEntryDone, he, hw, Bool.false_eq_true, if_false]

/-- Domain 0 is about to end its entry into DOZE, its change of state is traced, and the trace ring lies in the memory of
domain 24, which is in DOZE. -/
def tracedEntry : State := { State.reset with
  power := { State.reset.power with entering := [(0, 1)], dom := [(24, 1)] }
  trace := { state := 1, records := 0, lost := 0 }
  settings := { State.reset.settings with
    committed := [(objKey 0x8000 1, .num 8), (objKey 0x8000 4, .num 65536)] } }

/-- The write of the trace record starts the exit of the domain where the ring lies. -/
theorem tracedEntry_wakes : (completeEntry tracedEntry (0 : Fin 48) 1).power.exiting = [24] := by decide +kernel

/-- Refutes O39: the record of the entry's end is written to the trace ring, which starts the exit of the ring's domain, so
that `exiting` does not stay as it was. -/
theorem not_domainsEnterAndLeaveTheirStates : ¬ Obligations.DomainsEnterAndLeaveTheirStates := by
  intro h
  obtain ⟨-, -, -, hentering, -⟩ := h tracedEntry 0
  obtain ⟨-, u, hu, -, -, -, -, hquiet, -⟩ := hentering 1 rfl
  have he := exec_stateEntryDone_quiet (s := tracedEntry) (i := 0) (st := 1) rfl rfl
  have hkept := hquiet rfl
  rw [← Host.Outcome.next.inj (he.symm.trans hu), tracedEntry_wakes] at hkept
  exact List.cons_ne_nil _ _ hkept

end Sys2Proof.Machine

/-! Start-up and reset (19): the sideband pins and the warm reset; and why ROM recovery may raise two events. -/

namespace Sys2Proof.Machine

/-- What every pass of a fold keeps, the fold keeps. -/
theorem foldl_keeps {α β : Type} (g : State → β) {f : State → α → State} (h : ∀ s a, g (f s a) = g s) (l : List α)
    (s : State) : g (l.foldl f s) = g s := by
  induction l generalizing s with
  | nil => rfl
  | cons a l ih => exact (ih _).trans (h s a)

/-- The end of service changes the sessions and the firmware record alone. -/
theorem endService_keeps {β : Type} (g : State → β) (hfw : ∀ s v, g (putFw s v) = g s) (hdap : ∀ s v, g (putDap s v) = g s)
    (s : State) : g (endService s) = g s := by
  obtain ⟨v, hv⟩ := finishFlash_eq s
  have hempty : ∀ s k, g (if slotState s k = 1 || slotState s k = 2 then emptySlot s k else s) = g s := by
    intro s k
    split
    · exact (hfw _ _).trans (hfw _ _)
    · rfl
  unfold endService
  rw [hv]
  exact (foldl_keeps g hempty _ _).trans ((hfw _ _).trans ((hdap _ _).trans (hfw _ _)))

/-- What a warm reset leaves of memory, partitions and the request. -/
theorem warmOff_leaves (s : State) : (warmOff s).mem = [] ∧ (warmOff s).parts = [] ∧
    (warmOff s).dev.lastReset = s.dev.resetDue ∧ (warmOff s).dev.resetDue = 0 ∧
    (warmOff s).dev.phase = (if s.dev.rstN then .sensed else .heldReset) ∧ (warmOff s).dev.warm = true := by
  have hend := endService_keeps (fun s => (s.mem, s.parts, s.dev)) (fun _ _ => rfl) (fun _ _ => rfl)
    (domainsOff (wipe s) false)
  simp only [Prod.mk.injEq] at hend
  obtain ⟨hmem, hparts, hdev⟩ := hend
  have hoff : (domainsOff (wipe s) false).mem = [] ∧ (domainsOff (wipe s) false).parts = [] ∧
      (domainsOff (wipe s) false).dev = s.dev := ⟨rfl, rfl, rfl⟩
  unfold warmOff
  dsimp only
  split <;> simp [enterHoldover, freshFree, hmem, hparts, hdev, hoff]

/-- A cold start may begin once the pins and the input allow it. -/
theorem mayStart_iff (s : State) : mayStart s = true ↔ s.dev.pwrEn = true ∧ s.dev.inputOk = true ∧
    (s.power.faulted = false ∨ 10001 ≤ s.power.okRun) := by
  have h : spanSamples 100000 = 10001 := rfl
  unfold mayStart
  rw [h]
  simp [and_assoc]

theorem exec_pwrEnHigh {s : State} (hen : s.dev.pwrEn = false) (hoff : s.dev.phase = .off) (hin : s.dev.inputOk = true)
    (hf : s.power.faulted = false ∨ 10001 ≤ s.power.okRun) :
    exec .pwrEnHigh s = .next (beginCold (putDev s { s.dev with pwrEn := true, lastReset := 1 }) 1) := by
  have hon : poweredOn s = false := by simp [poweredOn, hoff]
  have hmay : (decide (s.dev.phase = .off) && mayStart (putDev s { s.dev with pwrEn := true, lastReset := 1 })) = true := by
    rw [Bool.and_eq_true, mayStart_iff]
    exact ⟨decide_eq_true hoff, rfl, hin, hf⟩
  show execPwrEnHigh s = _
  simp only [execPwrEnHigh, hen, hon, Bool.false_eq_true, if_false, putDev_dev]
  rw [if_pos hmay]

/-- Settles O41: each pin by the branch of its function that the module's phase chooses. -/
theorem pinsAndWarmResetsAct : Obligations.PinsAndWarmResetsAct := by
  refine ⟨fun s => ⟨?up, ?down, ?low, ?high⟩, ?request, ?warm⟩
  case up =>
    intro hen hoff hin hf
    exact ⟨_, exec_pwrEnHigh hen hoff hin hf, rfl, rfl, rfl, rfl, rfl⟩
  case down =>
    intro hon
    obtain ⟨v, hv⟩ := finishFlash_eq (putDev s { s.dev with pwrEn := false })
    refine ⟨shutDown (putDev s { s.dev with pwrEn := false }), ?_, rfl, ?_, rfl, ?_⟩
    · show execPwrEnLow s = _
      simp only [execPwrEnLow, hon, if_true]
    · show (finishFlash (putDev s { s.dev with pwrEn := false })).dev.pwrEn = false
      rw [hv, putFw_dev, putDev_dev]
    · show (finishFlash (putDev s { s.dev with pwrEn := false })).log = s.log
      rw [hv, putFw_log, putDev_log]
  case low =>
    intro hp
    have he : exec .rstNLow s = .next (putDev s { s.dev with rstN := false, resetDue := 2 }) := by
      show execRstNLow s = _
      simp [execRstNLow, requestReset, hp]
      rfl
    exact ⟨_, he, rfl, rfl, hp, rfl, rfl⟩
  case high =>
    intro hp
    exact ⟨_, if_pos hp, rfl, rfl, rfl⟩
  case request =>
    intro s hp
    show Host.Outcome.next (devReset s 1) = _
    simp [devReset, requestReset, hp]
  case warm =>
    intro s slot svc fail detail hdue hrst
    obtain ⟨hmem, hparts, hlast, hdone, hphase, hwarm⟩ := warmOff_leaves s
    refine ⟨hmem, hparts, hlast, hdone, ?_⟩
    show execWarmReset slot svc fail detail s = _
    simp [execWarmReset, hdue, hphase, hwarm, hrst]

/-! ## ROM recovery with an optic that is refused (R362, R502) -/

theorem exec_romRecovery {s : State} (h : s.dev.phase = .heldSvc) : exec .romRecovery s = .next (enterRecovery s 2) := if_pos h

/-- SVC holds the start, and cage 0 has a copper cable without an Application of mode 0. -/
def svcHeldWithCable : State := { State.reset with
  dev := { State.reset.dev with phase := .heldSvc }
  ports := { State.reset.ports with optics := [(0, { Optic.reset with medium := 1, state := 3 })] } }

/-- Recovery is raised, and so is the refusal of the cable. -/
theorem svcHeldWithCable_raises :
    (enterRecovery svcHeldWithCable 2).log.next = svcHeldWithCable.log.next + 2 := by decide +kernel

/-- Refutes O42: recovery powers E0, whose optic is looked at anew, and a refused one is raised beside the recovery. -/
theorem not_theStartSequenceReachesReady : ¬ Obligations.TheStartSequenceReachesReady := by
  intro h
  obtain ⟨-, hheld, -⟩ := h
  obtain ⟨-, u, hu, -, hlog, -⟩ := hheld svcHeldWithCable rfl
  have he : exec .romRecovery svcHeldWithCable = .next (enterRecovery svcHeldWithCable 2) := exec_romRecovery rfl
  rw [← Host.Outcome.next.inj (he.symm.trans hu), svcHeldWithCable_raises] at hlog
  exact absurd hlog (by omega)

end Sys2Proof.Machine

/-! The management dictionary's protocol (20): handshakes, frames, messages in turn, register writes, attestation; the waiting
flash settings and remap rows (20 R462; 21 R482; 22 R506). -/

namespace Sys2Proof.Machine

/-! ## Handshakes (R452 to R455) -/

/-- A message on its way out leaves the sessions alone. -/
@[simp] theorem sendDap_sessions (s : State) (o : DapOut) : (sendDap s o).dap.sessions = s.dap.sessions ∧
    (sendDap s o).dap.nextSession = s.dap.nextSession ∧ (sendDap s o).mem = s.mem := by
  unfold sendDap
  split
  · exact ⟨rfl, rfl, rfl⟩
  · dsimp only
    split
    · obtain ⟨c, w, h, -⟩ := wakeDomain_eq (putDap s { s.dap with out := s.dap.out ++ [o] }) (28 + o.route.via / 8)
      rw [h]
      exact ⟨rfl, rfl, rfl⟩
    · exact ⟨rfl, rfl, rfl⟩

/-- The handshake that an acceptable HELLO opens. -/
def helloSession (s : State) (via : Nat) (src : DapSource) (nonce versions role : Nat) (key : List Byte) : Session :=
  let ack := toBytesBE 32 (freshFree s).1 ++ toBytesBE 2 (setting s 0x1100 1) ++ toBytesBE 1 1 ++ Config.kemPublic s.free ++
    identityKey
  newSession s.dap.nextSession via src role key
    ((toBytesBE 32 nonce ++ toBytesBE 2 versions ++ toBytesBE 1 role ++ key) ++ ack) s.free

/-- An acceptable HELLO adds its handshake, takes the next number and is answered. -/
theorem helloMsg_accepted {s : State} {via : Nat} {src : DapSource} {versions : Nat} {key : List Byte} (nonce role : Nat)
    (hserved : dapServed s = true) (hvia : viaServed s via src = true) (hkey : key.length = 2592)
    (hvers : versions &&& setting s 0x1100 1 ≠ 0) (hopen : openCount s < setting s 0x1100 0x0C)
    (hhalf : (s.dap.sessions.filter (fun x => !x.ready)).length < 16) :
    ∃ o, helloMsg s via src nonce versions role key =
      sendDap (putDap (freshFree s).2 { s.dap with
        sessions := s.dap.sessions ++ [helloSession s via src nonce versions role key]
        nextSession := (s.dap.nextSession + 1) % 2 ^ 32 }) o := by
  have h1 : ¬ (!dapServed s || !viaServed s via src || decide (key.length ≠ 2592)) = true := by simp [hserved, hvia, hkey]
  have h2 : ¬ (decide (setting s 0x1100 0x0C ≤ openCount s) ||
      decide (16 ≤ (s.dap.sessions.filter (fun x => !x.ready)).length)) = true := by
    simp only [Bool.or_eq_true, decide_eq_true_eq]
    omega
  exact ⟨_, (if_neg h1).trans ((if_neg hvers).trans (if_neg h2))⟩

/-- Settles O43: each message by the branch of its function that the premises choose. -/
theorem handshakesOpenSessions : Obligations.HandshakesOpenSessions := by
  refine ⟨?hello, ?key, fun s n x hx => ⟨?handshake, ?idle⟩⟩
  case hello =>
    intro s via src nonce vs role key hserved hvia hkey hvers hopen hhalf
    obtain ⟨o, ho⟩ := helloMsg_accepted nonce.toNat role.toNat hserved hvia hkey hvers hopen hhalf
    have he : exec (.dapHello via src nonce vs role key) s = _ := congrArg Host.Outcome.next ho
    obtain ⟨hsess, hnext, hmem⟩ := sendDap_sessions (putDap (freshFree s).2 { s.dap with
      sessions := s.dap.sessions ++ [helloSession s via src nonce.toNat vs.toNat role.toNat key]
      nextSession := (s.dap.nextSession + 1) % 2 ^ 32 }) o
    exact ⟨_, helloSession s via src nonce.toNat vs.toNat role.toNat key, he, hsess, rfl, rfl, rfl, rfl, rfl, rfl, rfl, rfl,
      hnext, hmem⟩
  case key =>
    intro s came ct sig x hx hct h e hopen y
    have he : exec (.dapKey came ct sig) s = .next (keyMsg s x ct sig) := by
      show execDapKey came ct sig s = _
      rw [execDapKey, hx]
    have hroom : ¬ setting s 0x1100 0x0C ≤ openCount s := Nat.not_le.mpr hopen
    rw [he, keyMsg, if_neg (not_not_intro hct), if_neg hroom]
    by_cases hok : Config.verifies "LZ-DAP-1" x.key h sig = true ∧ e ≠ 0
    · rw [if_pos hok, if_neg (by simpa [h, e] using hok)]
    · rw [if_neg hok, if_pos (by simpa [h, e] using not_and_or.mp hok)]
  case handshake =>
    intro hr
    show execHandshakeTimeout n s = _
    simp only [execHandshakeTimeout, hx, hr, Bool.false_eq_true, if_false]
  case idle =>
    intro hr
    show execIdleTimeout n s = _
    simp only [execIdleTimeout, hx, hr, if_true]

/-! ## Frames (R450, R451, R469) -/

/-- A sealed frame of an open session joins its message if its tag opens. -/
theorem exec_dapFrameReceived_sealed {s : State} {x : Session} {came : DapArrival} {payload tag : List Byte}
    (hhead : headOk came.header.toNat payload.length = true) (hx : getSession s (bits came.header.toNat 95 64) = some x)
    (hready : x.ready = true) (hserved : dapServed s = true) (hvia : viaServed s came.via came.src = true)
    (hver : bits came.header.toNat 127 124 = x.version) (hsealed : bits came.header.toNat 16 16 = 1) :
    exec (.dapFrameReceived came payload tag) s = .next
      (((Config.gcmOpen (x.keys.take 32) (gcmNonce 0 came.header.toNat) (toBytesBE 16 came.header.toNat) payload tag).map
        (joinSegment s { x with via := came.via.val, src := came.src } came.header.toNat)).getD (tagFailed s x)) := by
  show execDapFrameReceived came payload tag s = _
  have hone : ¬ bits came.header.toNat 16 16 = 0 := by rw [hsealed]; decide
  simp only [execDapFrameReceived, hhead, hone, hx, hready, hserved, hvia, hver, Bool.not_true, Bool.false_or, ne_eq,
    not_true_eq_false, decide_false, Bool.false_eq_true, if_false]
  cases Config.gcmOpen _ _ _ _ _ <;> rfl

/-- A frame without a seal belongs to a handshake. -/
theorem exec_dapFrameReceived_open {s : State} {came : DapArrival} {payload : List Byte} (tag : List Byte)
    (hhead : headOk came.header.toNat payload.length = true) (hopen : bits came.header.toNat 16 16 = 0) :
    exec (.dapFrameReceived came payload tag) s = .next (openFrame s came payload) := by
  show execDapFrameReceived came payload tag s = _
  simp only [execDapFrameReceived, hhead, hopen, Bool.not_true, Bool.false_eq_true, if_false, if_true]

/-- Settles O44: a frame by its header, the two timers by the session that they name. -/
theorem framesJoinTheirMessages : Obligations.FramesJoinTheirMessages := by
  intro s x
  refine ⟨fun came payload tag => ?frame, ?reassembly, ?resend⟩
  case frame =>
    intro h hhead
    refine ⟨fun hx hready hserved hvia hver hsealed => ?_, exec_dapFrameReceived_open tag hhead⟩
    rw [exec_dapFrameReceived_sealed hhead hx hready hserved hvia hver hsealed]
    generalize Config.gcmOpen _ _ _ _ _ = o
    cases o <;> rfl
  case reassembly =>
    intro n q hx
    let t := putDap s { s.dap with
      segs := s.dap.segs.filter (fun g => bits g.1.header.toNat 95 32 != n.toNat * 2 ^ 32 + q.toNat) }
    have ht : getSession t n.toNat = some x := hx
    have he : exec (.reassemblyTimeout n q) s =
        .next (putSession t { x with segs := x.segs.filter (fun g => g.1 != q.toNat) }) := by
      show execReassemblyTimeout n q s = _
      unfold execReassemblyTimeout
      dsimp only
      rw [ht]
    refine ⟨_, he, getSession_putSession ht (show x.number = _ from getSession_number hx), fun g hg => ?_⟩
    simpa using (List.mem_filter.mp hg).2
  case resend =>
    intro n u hx hu
    show execEventResendTimer n s = _
    simp only [execEventResendTimer, hx, Option.bind_some, hu]

/-! ## Messages in turn (R455 to R457) -/

theorem deliverMsg_inTurn {s : State} {n seq : Nat} {x : Session} (h : InTurn s n seq x) (m : DapMsg) :
    deliverMsg s n seq m = drainHeld 8 (runInSession s n seq m) n := by
  obtain ⟨hx, hready, hserved, hturn⟩ := h
  simp only [deliverMsg, hx, hready, hserved, hturn, Bool.not_true, Bool.or_self, Bool.false_eq_true, if_false, if_true]

/-- A session that a CLOSE reaches is gone. -/
theorem getSession_runInSession_close (s : State) (n seq : Nat) : getSession (runInSession s n seq .close) n = none := by
  unfold runInSession
  split
  next hx => exact hx
  next x hx =>
    dsimp only
    split
    next hgone => exact hgone
    next => exact getSession_endSession ..
    next y hy hne => exact (hne rfl).elim

/-- Settles O45: a message in turn runs at once; what the four messages do is read off `runMsg`. -/
theorem messagesInTurnAreExecuted : Obligations.MessagesInTurnAreExecuted := by
  intro s n q x h runs
  have hruns : ∀ m, Host.Outcome.next (deliverMsg s n.toNat q.toNat m) =
      (.next (drainHeld 8 (runInSession s n.toNat q.toNat m) n.toNat) : Host.Outcome State Fault Refusal) :=
    fun m => congrArg Host.Outcome.next (deliverMsg_inTurn h m)
  refine ⟨fun l => hruns _, fun l => hruns _, hruns _, hruns _, fun t => hruns _, fun m v f => hruns _, fun a => hruns _,
    hruns _, hruns _, ?read, ?discard, rfl, getSession_runInSession_close ..⟩
  case read =>
    intro l hne hlen
    have hform : ¬ (l.isEmpty || decide (64 < l.length)) = true := by simp [hne, Nat.not_lt.mpr hlen]
    simp only [runMsg, if_neg hform, List.flatMap_map, and_self]
  case discard =>
    intro hr
    simp only [runMsg, if_neg (Nat.not_lt.mpr hr)]

/-! ## Writes of objects (R458, R462, R463) -/

/-- What a setting's write leaves: the dictionary's protocol, memory and the log. -/
def outsideSettings (s : State) : Dap × Map (BitVec 8) × EventLog × Map Value := (s.dap, s.mem, s.log, s.settings.committed)

theorem outsideSettings_eq {s u : State} (h : outsideSettings u = outsideSettings s) :
    u.dap = s.dap ∧ u.mem = s.mem ∧ u.log = s.log ∧ u.settings.committed = s.settings.committed := by
  simpa only [outsideSettings, Prod.mk.injEq] using h

theorem outsideSettings_restDomains (s : State) (cls : Nat) : outsideSettings (restDomains s cls) = outsideSettings s := rfl

/-- An applied setting stands among the committed ones, and changes nothing else there. -/
theorem applySetting_eq (s : State) (idx sub pers : Nat) (v : Value) :
    ∃ t w, applySetting s idx sub pers v = putSettings t { t.settings with
        committed := mput t.settings.committed (objKey idx sub) v, flashWaiting := w } ∧
      outsideSettings t = outsideSettings s := by
  have hheld : outsideSettings ((boundaryUnits s idx sub).foldl (holdOld idx sub v) s) = outsideSettings s :=
    foldl_keeps outsideSettings (f := holdOld idx sub v) (fun _ _ => rfl) _ _
  refine ⟨_, _, rfl, ?_⟩
  split
  · exact (outsideSettings_restDomains ..).trans hheld
  · exact hheld

/-- The tests of a write that is let through. -/
structure Writable (s : State) (n idx sub : Nat) (data : List Byte) (x : Session) (r : ObjRow) : Prop where
  session : getSession s n = some x
  object : objFor s idx sub true = some r
  role : roleMay x.role idx = true
  length : lengthFits r.typ data = true
  range : rangeOk r idx sub (decodeVal r.typ data) = true

/-- A write that is let through acts by the access class of its object. -/
theorem writeObj_writable {s : State} {n idx sub : Nat} {data : List Byte} {x : Session} {r : ObjRow}
    (h : Writable s n idx sub data x r) :
    (r.acc = 1 → (writeObj s n idx sub data).1 = (rwWrite s r idx sub (decodeVal r.typ data)).1) ∧
      (r.acc = 3 → (writeObj s n idx sub data).1 = stageWrite s x idx sub (decodeVal r.typ data)) := by
  obtain ⟨hx, hr, hrole, hlen, hrange⟩ := h
  unfold lengthFits at hlen
  refine ⟨fun ha => ?_, fun ha => ?_⟩
  all_goals
    simp only [writeObj, hx, hr, ha, hrole, hrange]
    cases hT : typeLen r.typ with
    | some k => simp_all
    | none =>
      have hfits : ¬ (r.typ = 10 ∧ 255 < data.length) := by
        simp only [hT, Bool.or_eq_true, bne_iff_ne, decide_eq_true_eq] at hlen
        omega
      simp [hfits]

/-- A write of a plain setting is its application. -/
theorem rwWrite_setting {s : State} (r : ObjRow) {idx sub : Nat} (v : Value) (h8 : idx ≠ 0x8000) (h81 : idx ≠ 0x8100)
    (h6 : objKey idx sub ≠ objKey 0x6000 1) : (rwWrite s r idx sub v).1 = applySetting s idx sub r.pers v := by
  unfold rwWrite
  split
  next => exact absurd rfl h6
  next => exact absurd rfl h81
  next => simp [h8]

theorem exec_registerWrite_entry {s : State} {t : Fin 64} (x : Stream) (a : BitVec 64) (present : tilePresent s t = true)
    (stopped : jobStopped s t = true) : exec (.registerWrite (.entry t x a)) s =
      .next (putTile s t (putCtl (getTile s t) x { getCtl (getTile s t) x with entry := a.toNat })) :=
  congrArg Host.Outcome.next (if_pos (by simp [present, stopped]))

theorem exec_registerWrite_firstStep {s : State} {t : Fin 64} (x : Stream) (v : BitVec 64) (present : tilePresent s t = true)
    (stopped : jobStopped s t = true) : exec (.registerWrite (.firstStep t x v)) s =
      .next (putTile s t (putCtl (getTile s t) x { getCtl (getTile s t) x with firstStep := v.toNat })) :=
  congrArg Host.Outcome.next (if_pos (by simp [present, stopped]))

theorem exec_registerWrite_faultValid {s : State} {t : Fin 64} (stopped : jobStopped s t = true) :
    exec (.registerWrite (.faultValid t false)) s =
      .next (putTile s t { getTile s t with fault := { (getTile s t).fault with valid := false } }) :=
  if_neg (by simp [stopped])

/-- Settles O46: a write by its object's access class, a report by the state of its session. -/
theorem registersAndReportsTakeTheirWrites : Obligations.RegistersAndReportsTakeTheirWrites := by
  refine ⟨?object, ?stream, fun s => rfl, ?report⟩
  case object =>
    intro s n idx sub data x r hx hr hrole hlen hrange k
    obtain ⟨hrw, hstaged⟩ := writeObj_writable (s := s) (n := n.toNat) ⟨hx, hr, hrole, hlen, hrange⟩
    refine ⟨fun ha h8 h81 h6 => ?_, fun ha => ?_⟩
    · obtain ⟨t, w, happ, hout⟩ := applySetting_eq s idx.toNat sub.toNat r.pers (decodeVal r.typ data)
      obtain ⟨hdap, hmem, hlog, hset⟩ := outsideSettings_eq hout
      have he : exec (.registerWrite (.object n idx sub data)) s = _ :=
        congrArg Host.Outcome.next ((hrw ha).trans ((rwWrite_setting r _ h8 h81 h6).trans happ))
      refine ⟨_, he, ?_, hdap, hmem, hlog, fun k' hk => ?_⟩
      · rw [putSettings_settings, mfind_mput, if_pos rfl]
      · rw [putSettings_settings, mfind_mput, if_neg hk, hset]
    · have he : exec (.registerWrite (.object n idx sub data)) s = _ := congrArg Host.Outcome.next (hstaged ha)
      refine ⟨_, _, he, getSession_putSession hx (show x.number = _ from getSession_number hx), ?_, rfl, rfl⟩
      rw [mfind_mput, if_pos rfl]
  case stream =>
    intro s t x a v present stopped c
    exact ⟨exec_registerWrite_entry x a present stopped, exec_registerWrite_firstStep x v present stopped,
      exec_registerWrite_faultValid stopped⟩
  case report =>
    intro s n nonce x hx
    refine ⟨?_, fun ha => ?_⟩
    · show Host.Outcome.next (attNonce s n.toNat (toBytesBE 32 nonce.toNat)) = _
      rw [attNonce, hx]
    · show execAttReportBuilt n true s = _
      simp only [execAttReportBuilt, hx, ha, ne_eq, not_true_eq_false, if_false, Bool.not_true, Bool.false_eq_true]

/-! ## Flash and fuse rows (R462, R482, R506) -/

/-- Settles O47: the settings and the oldest retirement of a die, each when its premises let it through. -/
theorem flashAndFuseRowsAreProgrammed : Obligations.FlashAndFuseRowsAreProgrammed := by
  refine ⟨?settings, ?remap⟩
  case settings =>
    intro s hw hcharge
    exact if_neg (by simp [hw, Nat.not_lt.mpr hcharge])
  case remap =>
    intro s d x hx old hleft hbit hcharge hmv
    show execModuleRemapWrite d s = _
    simp only [execModuleRemapWrite, hx]
    rw [if_neg (by simp [hleft, show bitSet (setting s 0x1303 (d + 1)) (x % 32) = false from hbit]), if_neg (by simp [Nat.not_lt.mpr, hcharge, hmv])]

end Sys2Proof.Machine

/-! The firmware update (22), the front panel and tracing (21, 23), quiesce and removal (23): each step by the branch of its
function that its premises choose. -/

namespace Sys2Proof.Machine

/-! ## The update (R498 to R500) -/

/-- No condition of the module speaks of the firmware record. -/
@[simp] theorem updateRefusal_putFw (s : State) (v : Firmware) : updateRefusal (putFw s v) = updateRefusal s := rfl

@[simp] theorem updateRefusal_setSlotState (s : State) (k v : Nat) :
    updateRefusal (setSlotState s k v) = updateRefusal s := rfl

/-- A slot's state is what the list of states says. -/
theorem slotState_of_states {s : State} {m : Map Nat} {k v : Nat} (h : s.fw.states = mset 0 m k v) : slotState s k = v := by
  rw [slotState, h, mget_mset_same]

/-- A slot's state once it is set. -/
@[simp] theorem slotState_setSlotState (s : State) (k v : Nat) : slotState (setSlotState s k v) k = v :=
  slotState_of_states rfl

/-- The session that owns the update, or any while none runs, may go on. -/
theorem notOwnUpdate_false {s : State} {n : Nat} (h : s.fw.update = 0 ∨ s.fw.owner = n) : notOwnUpdate s n = false := by
  obtain h | h := h <;> simp [notOwnUpdate, h]

theorem fwBegin_accepted {s : State} {slot len : Nat} (n : Nat) (href : updateRefusal s = 0) (hupd : s.fw.update = 0)
    (hslot : slot < 2) (hother : slot ≠ s.fw.active) (hmin : 65536 ≤ len) (hmax : len ≤ 31457280) (hmul : len % 65536 = 0) :
    (fwBegin s n slot len).1 = setSlotState (putFw s { s.fw with
      update := 1, target := slot, length := len, owner := n, halves := [], queue := [], counted := []
      manifest := [] }) slot 1 := by
  have h1 : ¬ 1 < slot := by omega
  have h2 : ¬ len < 65536 := by omega
  have h3 : ¬ 31457280 < len := by omega
  simp [fwBegin, href, hupd, hother, hmul, h1, h2, h3]

/-- A half of a block that the update takes: the other half tells what becomes of it. -/
theorem fwBlock_taken {s : State} {n block half : Nat} {data : List Byte} (crc : Nat) (href : updateRefusal s = 0)
    (hown : notOwnUpdate s n = false) (hupd : s.fw.update = 1) (hlen : data.length = 32768) (hhalf : half < 2)
    (hblock : block < s.fw.length / 65536) (hqueue : s.fw.queue.length < 8) :
    (mfind s.fw.halves (2 * block + (1 - half)) = none → (fwBlock s n block half crc data).1 =
      putFw s { s.fw with halves := mput s.fw.halves (2 * block + half) (crc, data) }) ∧
    (∀ first, mfind s.fw.halves (2 * block + (1 - half)) = some (crc, first) → half = 1 → crc32c (first ++ data) = crc →
      (fwBlock s n block half crc data).1 = putFw s { s.fw with
        halves := mdel (mdel s.fw.halves (2 * block + (1 - half))) (2 * block + half)
        queue := s.fw.queue ++ [(block, first ++ data)] }) := by
  have h1 : ¬ 1 < half := by omega
  have h2 : ¬ s.fw.length / 65536 ≤ block := by omega
  have h3 : ¬ 8 ≤ s.fw.queue.length := by omega
  constructor
  · intro hnone
    simp [fwBlock, href, hown, hupd, hlen, h1, h2, h3, hnone]
  · rintro first hsome rfl hcrc
    simp only [Nat.sub_self, Nat.add_zero] at hsome
    simp [fwBlock, href, hown, hupd, hlen, h2, h3, hsome, hcrc]

/-- What the owner's steps do to the update. -/
theorem ownerSteps {s : State} (href : updateRefusal s = 0) {n : BitVec 32} (hn : isOwner s n.toNat = true)
    (how : s.fw.update = 0 ∨ s.fw.owner = n.toNat) :
    (∀ m, s.fw.update = 1 → exec (.fwUpdateManifest n m) s = .next (putFw s { s.fw with manifest := m })) ∧
    (s.fw.update = 1 → exec (.fwUpdateActivate n 1) s =
      .next (setSlotState (putFw s { s.fw with update := 2 }) s.fw.target 2)) ∧
    (s.fw.update = 3 → exec (.fwUpdateActivate n 1) s = .next (putFw s { s.fw with update := 4 })) ∧
    (s.fw.update = 1 ∨ s.fw.update = 2 ∨ s.fw.update = 3 → exec (.fwUpdateAbort n 1) s = .next (dropUpdate s)) := by
  have hown := notOwnUpdate_false how
  refine ⟨fun m hu => ?_, fun hu => ?_, fun hu => ?_, fun hu => ?_⟩
  · show execFwUpdateManifest n m s = _
    simp [execFwUpdateManifest, hn, fwManifest, hown, hu]
  · show execFwUpdateActivate n 1 s = _
    simp [execFwUpdateActivate, hn, fwActivate, hown, hu, href]
  · show execFwUpdateActivate n 1 s = _
    simp [execFwUpdateActivate, hn, fwActivate, hown, hu, handover, href]
  · show execFwUpdateAbort n 1 s = _
    have h0 : s.fw.update ≠ 0 := by omega
    have h4 : s.fw.update ≠ 4 := by omega
    simp [execFwUpdateAbort, hn, fwAbort, hown, h0, h4]

/-- The firmware record once an image is verified and handed over. -/
def verifiedFw (v : Firmware) : Firmware := { v with
  update := 4, manifests := mput v.manifests v.target v.manifest
  versions := mset 0 v.versions v.target (bits (manHead v.manifest) 127 96), states := mset 0 v.states v.target 3 }

/-- The answer of the verification of the update's image. -/
def verifyAnswer (s : State) : Nat × Nat :=
  imageCheck s s.fw.target s.fw.manifest (some s.fw.length) s.fw.counted.length

/-- A verification that passes goes on to the handover. -/
theorem exec_fwVerifyDone_passes {s : State} {b : Nat} (href : updateRefusal s = 0) (hu : s.fw.update = 2)
    (h : verifyAnswer s = (0, b)) : exec .fwVerifyDone s = .next (putFw s (verifiedFw s.fw)) := by
  show execFwVerifyDone s = _
  unfold verifyAnswer at h
  simp only [execFwVerifyDone, hu, ne_eq, not_true_eq_false, if_false, h, handover, updateRefusal_setSlotState,
    updateRefusal_putFw, href]
  rfl

/-- A verification that a block fails waits for that block again. -/
theorem exec_fwVerifyDone_block {s : State} {b : Nat} (hu : s.fw.update = 2) (h : verifyAnswer s = (7, b)) :
    let t := rejectImage s s.fw.target 7 b
    exec .fwVerifyDone s = .next (putFw t { t.fw with update := 1, counted := t.fw.counted.filter (· != b) }) := by
  show execFwVerifyDone s = _
  unfold verifyAnswer at h
  simp only [execFwVerifyDone, hu, ne_eq, not_true_eq_false, if_false, h]

/-- A verification that fails otherwise abandons the update. -/
theorem exec_fwVerifyDone_fails {s : State} {c b : Nat} (hu : s.fw.update = 2) (h : verifyAnswer s = (c, b)) (h0 : c ≠ 0)
    (h7 : c ≠ 7) :
    let t := rejectImage s s.fw.target c 0
    exec .fwVerifyDone s =
      .next (putFw t { t.fw with update := 0, halves := [], queue := [], counted := [], manifest := [] }) := by
  show execFwVerifyDone s = _
  unfold verifyAnswer at h
  simp only [execFwVerifyDone, hu, ne_eq, not_true_eq_false, if_false, h]

/-- A rejected image is raised, and its slot has failed. -/
theorem rejectImage_eq (s : State) (k c b : Nat) : (rejectImage s k c b).log.next = s.log.next + 1 ∧
    (rejectImage s k c b).fw.active = s.fw.active ∧ (rejectImage s k c b).fw.states = mset 0 s.fw.states k 4 :=
  ⟨(raise_log ..).1, rfl, rfl⟩

/-- The boot record names the new slot, whose firmware runs. -/
def activated (s : State) : State := runSlot (putFw s { writeBootRecord s.fw s.fw.target with update := 0 }) s.fw.target

theorem exec_fwActivation {s : State} (hu : s.fw.update = 4) (hp : s.dev.phase ≠ .recovery) :
    exec .fwActivation s = .next (endSessions (raise (activated s) 0x0B09 0xFF 0
      [s.fw.target, (activated s).fw.mgmtVer, (activated s).fw.ucodeVer])) := by
  show execFwActivation s = _
  simp only [execFwActivation, hu, ne_eq, not_true_eq_false, if_false]
  exact if_neg hp

/-- A boot record names its slot. -/
theorem writeBootRecord_active (v : Firmware) (k : Nat) : (writeBootRecord v k).active = k := by
  unfold writeBootRecord
  dsimp only
  split <;> rfl

/-- Sessions that end while no update runs are all that changes. -/
theorem endSessions_idle {s : State} (h : s.fw.update = 0) : endSessions s = putDap s { s.dap with sessions := [] } := by
  simp [endSessions, h]

/-- Settles O48: the steps of an update, one lemma for each. -/
theorem firmwareIsReceivedVerifiedAndActivated : Obligations.FirmwareIsReceivedVerifiedAndActivated := by
  intro s href
  refine ⟨fun n hn how => ?owner, ?programmed, ?verified, ?activation⟩
  case owner =>
    obtain ⟨hman, hact, hhand, habort⟩ := ownerSteps href hn how
    refine ⟨?begin, ?block, hman, fun hu => ⟨_, hact hu, rfl, slotState_setSlotState .., rfl⟩, hhand,
      fun hu => ⟨_, habort hu, rfl, rfl, rfl, rfl, rfl⟩⟩
    case begin =>
      intro slot len hupd hslot hother hmin hmax hmul
      have he : exec (.fwUpdateBegin n slot len) s = _ :=
        (if_pos hn).trans (congrArg Host.Outcome.next (fwBegin_accepted n.toNat href hupd hslot hother hmin hmax hmul))
      exact ⟨_, he, rfl, rfl, rfl, rfl, slotState_setSlotState .., rfl, rfl⟩
    case block =>
      intro block half crc data hupd hlen hhalf hblock hqueue
      obtain ⟨hfirst, hsecond⟩ :=
        fwBlock_taken crc.toNat href (notOwnUpdate_false how) hupd hlen hhalf hblock hqueue
      have hrun : exec (.fwUpdateBlock n block half crc data) s =
        .next (fwBlock s n.toNat block.toNat half.toNat crc.toNat data).1 := if_pos hn
      exact ⟨fun hnone => hrun.trans (congrArg Host.Outcome.next (hfirst hnone)),
        fun first hone hsome hcrc => ⟨_, hrun.trans (congrArg Host.Outcome.next (hsecond first hsome hone hcrc)), rfl, rfl⟩⟩
  case programmed =>
    intro b data rest hq
    have he : exec .fwBlockProgrammed s = .next (putFw s { s.fw with
        queue := rest, blocks := mput s.fw.blocks (512 * s.fw.target + b) data
        counted := insertNew s.fw.counted b }) := by
      show execFwBlockProgrammed s = _
      rw [execFwBlockProgrammed, hq]
    refine ⟨_, he, rfl, ?_, ?_, rfl⟩
    · rw [putFw_fw, mfind_mput, if_pos rfl]
    · show b ∈ insertNew s.fw.counted b
      unfold insertNew
      split <;> simp_all
  case verified =>
    intro hu why
    obtain ⟨⟨c, b⟩, hc⟩ : ∃ a, verifyAnswer s = a := ⟨_, rfl⟩
    have hwhy : why = c := congrArg Prod.fst hc
    rw [hwhy]
    by_cases h0 : c = 0
    · subst h0
      refine ⟨_, exec_fwVerifyDone_passes href hu hc, rfl, fun _ => ⟨rfl, slotState_of_states rfl, ?_⟩,
        fun h => (h rfl).elim⟩
      rw [putFw_fw, verifiedFw, mfind_mput, if_pos rfl]
    · by_cases h7 : c = 7
      · subst h7
        obtain ⟨hlog, hactive, hstates⟩ := rejectImage_eq s s.fw.target 7 b
        exact ⟨_, exec_fwVerifyDone_block hu hc, hactive, fun h => (h0 h).elim,
          fun _ => ⟨slotState_of_states hstates, rfl, hlog⟩⟩
      · obtain ⟨hlog, hactive, hstates⟩ := rejectImage_eq s s.fw.target c 0
        exact ⟨_, exec_fwVerifyDone_fails hu hc h0 h7, hactive, fun h => (h0 h).elim,
          fun _ => ⟨slotState_of_states hstates, (if_neg h7).symm, hlog⟩⟩
  case activation =>
    intro hu hp
    refine ⟨_, (exec_fwActivation hu hp).trans (congrArg Host.Outcome.next (endSessions_idle ?_)), ?_⟩
    · rw [raise_fw]
      rfl
    · simp [activated, runSlot, writeBootRecord_active]

/-! ## The front panel and tracing (R488, R491, R512, R516, R518, R520) -/

/-- A handling sample above its limit is kept, raised or not. -/
theorem exec_handlingSample_above {s : State} {mg : BitVec 16} (h : setting s 0x6000 0x0A < mg.toNat) :
    ∃ u, exec (.handlingSample mg) s = .next u ∧ u.panel.handling = true ∧ u.panel.handledNs = some (10 * s.ao) ∧
      u.panel.removal = s.panel.removal ∧ u.mem = s.mem := by
  refine ⟨_, if_neg (Nat.not_le.mpr h), ?_⟩
  dsimp only
  split_ifs <;> simp

/-- Settles O49: each command of the panel, the ports and the trace. -/
theorem panelPortAndTraceCommandsAct : Obligations.PanelPortAndTraceCommandsAct := by
  intro s
  refine ⟨?identify, rfl, rfl, ?press, rfl, rfl, fun mg h => exec_handlingSample_above h, fun h => if_pos h, ?linkUp, rfl, ?trace⟩
  case identify =>
    intro v hlo hhi
    have he : exec (.identifyWrite v) s = .next (raise (putFront s { s.panel with
        identify := s.ao + 100000000 * v.toNat }) 0x0C01 0xFF 0 [v.toNat]) :=
      (if_pos hhi).trans (congrArg Host.Outcome.next (if_neg (by omega)))
    exact ⟨_, he, rfl, (raise_log ..).1, rfl⟩
  case press =>
    intro hrun hbit
    have he : exec .svcShortPress s = .next (setIdentify s (if identifyLeft s = 0 then 60 else 0)) :=
      if_pos (by simp [hrun, hbit])
    refine ⟨_, he, ?_⟩
    split <;> simp [setIdentify]
  case linkUp =>
    obtain ⟨c, w, h, -⟩ := wakeDomain_eq (putDev s { s.dev with mgmtLink := true }) 46
    refine ⟨_, congrArg Host.Outcome.next h, rfl, rfl, rfl⟩
  case trace =>
    intro hoff hring
    show execTraceArm 1 s = _
    simp [execTraceArm, hoff, traceArm, hring]

/-! ## Quiesce and removal (R518 to R523) -/

theorem mem_upFrom {a n k : Nat} : k ∈ upFrom a n ↔ a ≤ k ∧ k < a + n := by
  rw [upFrom_eq_range', List.mem_range'_1]

/-- A fold whose passes change nothing changes nothing. -/
theorem foldl_same {α : Type} {f : State → α → State} {s : State} {l : List α} (h : ∀ a ∈ l, f s a = s) :
    l.foldl f s = s := by
  induction l with
  | nil => rfl
  | cons a l ih =>
    rw [List.foldl_cons, h a List.mem_cons_self]
    exact ih fun b hb => h b (List.mem_cons_of_mem a hb)

/-- With no partition RUNNING a request reaches none. -/
theorem pushPreempts_none {s : State} (h : ∀ p, p < 16 → (getPart s p).state ≠ .running) (who : Nat) :
    pushPreempts s who = s := by
  refine foldl_same fun p hp => ?_
  have hrest : ((getPart s p).state == .running) = false := by simpa using h p (by simpa using (mem_upFrom.mp hp).2)
  simp only [hrest, Bool.false_and, Bool.false_eq_true, if_false]

/-- A quiesce without a partition RUNNING, and without a removal, has nothing to follow up. -/
theorem followRequests_quiesce {s : State} (h : ∀ p, p < 16 → (getPart s p).state ≠ .running) (hr : s.panel.removal = 0) :
    followRequests s = s := by
  simp only [followRequests, pushPreempts_none h, ite_self, hr, if_true]

/-- A removal with every partition UNFORMED, and without a quiesce, goes on to its second state. -/
theorem followRequests_removal {s : State} (h : ∀ p, p < 16 → (getPart s p).state = .unformed) (hq : s.panel.quiesce = 0)
    (hr : s.panel.removal = 1) : followRequests s = putFront s { s.panel with removal := 2 } := by
  have hrun : ∀ p, p < 16 → (getPart s p).state ≠ .running := fun p hp hc => by rw [h p hp] at hc; exact nomatch hc
  simp only [followRequests, hq, ne_eq, not_true_eq_false, if_false, hr, one_ne_zero, pushPreempts_none hrun, decide_true,
    Bool.true_and]
  refine if_pos ?_
  rw [Bool.not_eq_true', List.any_eq_false]
  intro p hp
  rw [h p (by simpa using (mem_upFrom.mp hp).2)]
  decide

/-- Settles O50: each request by its guard, and what follows one that finds nothing to pause. -/
theorem quiesceAndRemovalArePursued : Obligations.QuiesceAndRemovalArePursued := by
  intro s
  refine ⟨fun hq => ⟨if_pos hq, ?hold, ?quiesce⟩, ?quiesced, fun hr => ⟨rfl, ?pad, ?removal⟩, ?safe, ?cancel, ?opened, ?closed⟩
  case hold =>
    intro hrun hbit
    exact (if_neg (by simp [hrun, hbit])).trans (if_pos hq)
  case quiesce =>
    intro hrest hr
    exact followRequests_quiesce hrest hr
  case quiesced =>
    intro hq hrest
    exact if_pos (by simp [hq, hrest])
  case pad =>
    intro hrun hbit
    exact if_pos (by simp [hrun, hbit])
  case removal =>
    intro hrest hq why
    exact (if_neg (not_not_intro hr)).trans (followRequests_removal hrest hq rfl)
  case safe =>
    intro hr hok
    exact if_pos (by simp [hr, hok])
  case cancel =>
    intro hr
    exact congrArg Host.Outcome.next (if_neg hr)
  case opened =>
    intro hl
    exact if_neg (by simp [hl])
  case closed =>
    intro hl
    exact if_pos hl

end Sys2Proof.Machine

/-! Front optics (16 R362; 21 R487) and device time (16 R380, R382). -/

namespace Sys2Proof.Machine

/-! ## Front optics -/

@[simp] theorem wakeDomain_ports (s : State) (i : Nat) : (wakeDomain s i).ports = s.ports := by
  obtain ⟨c, w, h, -⟩ := wakeDomain_eq s i
  rw [h]
  rfl

@[simp] theorem wakeDomain_settings (s : State) (i : Nat) : (wakeDomain s i).settings = s.settings := by
  obtain ⟨c, w, h, -⟩ := wakeDomain_eq s i
  rw [h]
  rfl

@[simp] theorem wakeDomain_dev (s : State) (i : Nat) : (wakeDomain s i).dev = s.dev := by
  obtain ⟨c, w, h, -⟩ := wakeDomain_eq s i
  rw [h]
  rfl

/-- The optic of a cage once it is written. -/
@[simp] theorem optic_putOptic (s : State) (p : Nat) (o : Optic) :
    mget Optic.reset (putOptic s p o).ports.optics p = o := mget_mset_same _ _ _ _

@[simp] theorem putOptic_links (s : State) (p : Nat) (o : Optic) : (putOptic s p o).ports.links = s.ports.links := rfl

theorem portSet_congr {s u : State} (h : u.settings = s.settings) (p k : Nat) : portSet u p k = portSet s p k :=
  setting_congr h _ _

theorem portMode_congr {s u : State} (h : u.settings = s.settings) (hd : u.dev = s.dev) (p : Nat) :
    portMode u p = portMode s p := by
  rw [portMode, portMode, hd, portSet_congr h]

/-- The enabled sub-ports depend on the settings and the phase alone. -/
theorem subMask_congr {s u : State} (h : u.settings = s.settings) (hd : u.dev = s.dev) (p : Nat) : subMask u p = subMask s p := by
  have hon : subOn u = subOn s := by
    funext l
    rw [subOn, subOn, hd, portMode_congr h hd, portSet_congr h]
  rw [subMask, subMask, hon]

/-- The optic that an optic's insertion puts into the cage. -/
def insertedOptic (mw apps : Nat) (vendor part serial : List Byte) : Optic := { Optic.reset with
  medium := 2, state := 1, powerMw := mw, apps := apps, vendor := cmisName vendor, part := part, serial := serial }

/-- An optic within the cage's power, with an Application of the port's mode, is powered up. -/
theorem selectApp_inserted_ok {t : State} {p mw apps : Nat} {ve pa se : List Byte}
    (h : mget Optic.reset t.ports.optics p = insertedOptic mw apps ve pa se) (hpow : mw ≤ 1000 * portSet t p 9)
    (happ : bitSet apps (portMode t p) = true) :
    selectApp t p = putOptic t p { insertedOptic mw apps ve pa se with state := 2 } := by
  have hpow' : ¬ 1000 * portSet t p 9 < mw := Nat.not_lt.mpr hpow
  simp [selectApp, h, insertedOptic, hpow', happ]
  rfl

/-- Another optic is refused. -/
theorem selectApp_inserted_refused {t : State} {p mw apps : Nat} {ve pa se : List Byte}
    (h : mget Optic.reset t.ports.optics p = insertedOptic mw apps ve pa se)
    (hno : ¬ (mw ≤ 1000 * portSet t p 9 ∧ bitSet apps (portMode t p) = true)) :
    ∃ r, selectApp t p = refuseOptic t p r (insertedOptic mw apps ve pa se) := by
  by_cases hpow : 1000 * portSet t p 9 < mw
  · exact ⟨1, by simp [selectApp, h, insertedOptic, hpow]⟩
  · have happ : bitSet apps (portMode t p) = false := by simpa [Nat.not_lt.mp hpow] using hno
    exact ⟨2, by simp [selectApp, h, insertedOptic, hpow, happ]⟩

/-- What the selection of its Application makes of an inserted optic. -/
theorem selectApp_inserted {t : State} {p mw apps : Nat} {ve pa se : List Byte}
    (h : mget Optic.reset t.ports.optics p = insertedOptic mw apps ve pa se) :
    (selectApp t p).ports.links = t.ports.links ∧ mget Optic.reset (selectApp t p).ports.optics p =
      { insertedOptic mw apps ve pa se with
        state := if mw ≤ 1000 * portSet t p 9 ∧ bitSet apps (portMode t p) = true then 2 else 6 } := by
  by_cases hok : mw ≤ 1000 * portSet t p 9 ∧ bitSet apps (portMode t p) = true
  · rw [selectApp_inserted_ok h hok.1 hok.2, if_pos hok]
    exact ⟨rfl, optic_putOptic ..⟩
  · obtain ⟨r, hr⟩ := selectApp_inserted_refused h hok
    rw [hr, if_neg hok, refuseOptic, raise_ports]
    exact ⟨rfl, optic_putOptic ..⟩

/-- An insertion, where the cage is empty and its port not OFF. -/
theorem exec_opticInserted {s : State} {p : Fin 4} (mw : BitVec 32) (apps : BitVec 4) (ve pa se : List Byte)
    (hempty : (mget Optic.reset s.ports.optics p).medium = 0) (hon : getDom s (28 + p) < 4) :
    exec (.opticInserted p false mw apps ve pa se) s = .next (selectApp (raise (putOptic (wakeDomain s (28 + p)) p
      (insertedOptic mw.toNat apps.toNat ve pa se)) 0x0904 0xFF 0 [p.val, mw.toNat]) p) := by
  refine (if_neg ?_).trans rfl
  simp [hempty, Nat.not_le.mpr hon]

/-- Settles O32: each clause by the equation of its command. -/
theorem opticsAreIdentifiedAndMonitored : Obligations.OpticsAreIdentifiedAndMonitored := by
  intro s p o
  refine ⟨?inserted, fun ho => if_neg ho, ?monitor, ?clear⟩
  case inserted =>
    intro mw apps ve pa se hempty hon
    let t := raise (putOptic (wakeDomain s (28 + p)) p (insertedOptic mw.toNat apps.toNat ve pa se)) 0x0904 0xFF 0
      [p.val, mw.toNat]
    have hset : t.settings = s.settings := wakeDomain_settings s _
    have hdev : t.dev = s.dev := wakeDomain_dev s _
    obtain ⟨hlinks, hoptic⟩ := selectApp_inserted (t := t) (p := p) (optic_putOptic ..)
    refine ⟨_, exec_opticInserted mw apps ve pa se hempty hon, ?_, ?_⟩
    · rw [hlinks, raise_ports, putOptic_links, wakeDomain_ports]
    · rw [portSet_congr hset, portMode_congr hset hdev] at hoptic
      exact hoptic
  case monitor =>
    intro te su la r ho hon st
    refine ⟨_, if_neg (by simpa [o] using ⟨ho, hon⟩), ?_⟩
    rw [optic_putOptic, subMask_congr (wakeDomain_settings s _) (wakeDomain_dev s _)]
    simp only [Bool.or_eq_true, decide_eq_true_eq, or_assoc]
    rfl
  case clear =>
    intro _
    exact ⟨_, congrArg Host.Outcome.next (if_pos rfl), optic_putOptic .., rfl⟩

/-! ## Device time -/

/-- A message that is heard is taken. -/
theorem exec_ptpMessage_announce {s : State} {port : Fin 129} {h : PtpHead} (hh : Heard s port h) (c : PtpClock) :
    exec (.ptpMessage port (.announce h c)) s = .next (announced s ⟨port, h.source.toNat, c⟩) := by
  obtain ⟨hon, hserved, hdom, htr⟩ := hh
  refine (if_neg ?_).trans rfl
  simp [ptpHead, hon, hserved, hdom, htr]

theorem exec_ptpMessage_exchange {s : State} {port : Fin 129} {h : PtpHead} (hh : Heard s port h) {m : PtpMsg}
    (hm : ptpHead m = h) (hne : ∀ c, m ≠ .announce h c) : exec (.ptpMessage port m) s = .next (ptpExchange s port m) := by
  obtain ⟨hon, hserved, hdom, htr⟩ := hh
  refine (if_neg ?_).trans ?_
  · simp [hm, hon, hserved, hdom, htr]
  · cases m
    case announce h' c =>
      obtain rfl : h' = h := hm
      exact absurd rfl (hne c)
    all_goals rfl

/-- Where none is selected, an Announce selects its sender and grandmaster. -/
theorem announced_first {s : State} (h : s.time.parent = none) (q : PtpParent) :
    announced s q = putTime s { s.time with
      ptp := { PtpExchange.reset with seq := s.time.ptp.seq }, parent := some q, gm := q.clock.gm.toNat
      state := if s.time.state = 2 && s.time.gm = q.clock.gm.toNat then 2 else 1 } := by
  simp only [announced, h, Bool.not_false, Bool.not_true, Bool.and_false, Bool.false_eq_true, if_false]
  rfl

/-- The answer to the Delay_Req that is out, from the selected time transmitter in the end-to-end profile. -/
theorem ptpExchange_delayResp {s : State} {port : Fin 129} {h : PtpHead} {received asker : BitVec 80} {q : PtpParent}
    {t1 t2 t3 : Int} (hq : s.time.parent = some q) (hport : q.port = port.val) (hsource : q.source = h.source.toNat)
    (he2e : setting s 0x1200 7 = 0) (hasked : s.time.ptp.asked = some (h.seq.toNat, t3)) (hasker : asker.toNat = ptpPort port)
    (hsync : s.time.ptp.sync = some (t1, t2)) :
    ptpExchange s port (.delayResp h received asker) =
      useDelay (putPtp s { s.time.ptp with asked := none })
        (((t2 - t1) + (stampTime received - corrOf h + asymmetry s port - t3)) / 2) := by
  simp [ptpExchange, hq, hport, hsource, he2e, hasked, hasker, hsync]

/-- Settles O33: an Announce, the exchange, and the two losses. -/
theorem deviceTimeFollowsItsGrandmaster : Obligations.DeviceTimeFollowsItsGrandmaster := by
  intro s
  refine ⟨fun port h hh => ⟨fun c => ⟨exec_ptpMessage_announce hh c, ?first⟩, ?exchange, ?delay⟩, ?holdover, ?limit⟩
  case first =>
    intro hnone
    have he := (exec_ptpMessage_announce hh c).trans (congrArg Host.Outcome.next (announced_first hnone _))
    refine ⟨_, he, rfl, rfl, ?_, rfl⟩
    simp
  case exchange => exact fun m hm hne => exec_ptpMessage_exchange hh hm hne
  case delay =>
    intro received asker q t1 t2 t3 hq hport hsource he2e hasked hasker hsync t4
    rw [exec_ptpMessage_exchange hh rfl (fun c => PtpMsg.noConfusion),
      ptpExchange_delayResp hq hport hsource he2e hasked hasker hsync]
  case holdover =>
    intro hs
    have he : exec .announceTimeout s = .next (enterHoldover (dropParent s) 1) := by
      show execAnnounceTimeout s = _
      simp only [execAnnounceTimeout, hs]
    exact ⟨_, he, rfl, rfl, rfl, rfl, rfl⟩
  case limit =>
    intro hs
    exact ⟨_, if_pos hs, rfl, rfl, rfl, rfl, rfl⟩

end Sys2Proof.Machine

/-! The Ethernet sub-ports (16 R359 to R361, R385): links that come up and go down, frames, priority flow control. What the
loss of a path does to peers and to the memory behind their reads leaves the ports alone. -/

namespace Sys2Proof.Machine

/-! ## What leaves the ports alone -/

/-- Two ways to go on that keep the ports keep them together. -/
theorem ports_ite {s a b : State} {c : Prop} [Decidable c] (ha : a.ports = s.ports) (hb : b.ports = s.ports) :
    (if c then a else b).ports = s.ports := by
  split <;> assumption

@[simp] theorem addCause_ports (s : State) (p c : Nat) : (addCause s p c).ports = s.ports := by
  unfold addCause
  dsimp only
  split <;> simp

@[simp] theorem addHold_ports (s : State) (p c : Nat) : (addHold s p c).ports = s.ports := addCause_ports ..

@[simp] theorem causeOrHold_ports (s : State) (p c k a b : Nat) : (causeOrHold s p c k a b).ports = s.ports :=
  ports_ite (addHold_ports ..) ((addCause_ports ..).trans (putPart_ports ..))

@[simp] theorem retireLine_ports (s : State) (a : Nat) : (retireLine s a).ports = s.ports := by
  unfold retireLine
  dsimp only
  split
  · exact ports_ite rfl (ports_ite (raise_ports ..) rfl)
  · exact ports_ite (raise_ports ..) rfl
  · exact ports_ite (raise_ports ..) rfl
  · rfl

@[simp] theorem dropOne_ports (l : Nat) (s : State) (r : Parked) : (dropOne l s r).ports = s.ports := by
  unfold dropOne
  split
  · exact ports_ite rfl rfl
  · rfl

@[simp] theorem deliverPoison_ports (s : State) (l : Nat) : (deliverPoison s l).ports = s.ports := ports_ite rfl rfl

@[simp] theorem failRefill_ports (s : State) (l : Nat) : (failRefill s l).ports = s.ports := by
  have hctr : ∀ (c : Prop) [Decidable c] (i k : Nat), (if c then addCtr s i k 1 else s).ports = s.ports :=
    fun _ _ _ _ => ports_ite (addCtr_ports ..) rfl
  have hdrop : ∀ (l : Nat) (rs : List Parked) (s : State), (rs.foldl (dropOne l) s).ports = s.ports :=
    fun l rs s => foldl_keeps State.ports (fun s r => dropOne_ports l s r) rs s
  unfold failRefill
  dsimp only
  split <;> simp [hdrop, takeParked, hctr]

@[simp] theorem seekRefill_ports (s : State) (l : Nat) : (seekRefill s l).ports = s.ports := by
  unfold seekRefill
  split
  · exact failRefill_ports ..
  · refine ports_ite rfl ?_
    split
    · rfl
    · exact failRefill_ports ..

@[simp] theorem notePoison_ports (s : State) (l : Nat) : (notePoison s l).ports = s.ports := by
  refine ports_ite rfl ?_
  dsimp only
  split
  · rfl
  · exact ports_ite rfl rfl

@[simp] theorem poisonLine_ports (s : State) (l : Nat) : (poisonLine s l).ports = s.ports :=
  (seekRefill_ports ..).trans (notePoison_ports ..)

@[simp] theorem meetError_ports (s : State) (l : Nat) (r : MemReq) : (meetError s l r).ports = s.ports :=
  ports_ite rfl (ports_ite rfl ((poisonLine_ports ..).trans (putMemErr_ports ..)))

@[simp] theorem failRead_ports (s : State) (r : FarRead) : (failRead s r).ports = s.ports :=
  ports_ite (raise_ports ..) ((foldl_keeps State.ports (fun s a => meetError_ports s a .read) _ _).trans (raise_ports ..))

@[simp] theorem failReads_ports (s : State) (n : Nat) : (failReads s n).ports = s.ports :=
  foldl_keeps State.ports failRead_ports _ s

@[simp] theorem admitKept_ports (s : State) : (admitKept s).ports = s.ports := by
  obtain ⟨k, x, y, h, -⟩ := admitKept_frame s
  rw [h, putSync_ports, putCtrs_ports]

@[simp] theorem dropHeld_ports (s : State) (n : Nat) : (dropHeld s n).ports = s.ports :=
  (admitKept_ports ..).trans ((putSync_ports ..).trans (putLft_ports ..))

@[simp] theorem putPeer_ports (s : State) (n : Nat) (v : Peer) : (putPeer s n v).ports = s.ports := putLft_ports ..

@[simp] theorem setPeerState_ports (s : State) (n st : Nat) : (setPeerState s n st).ports = s.ports := putPeer_ports ..

@[simp] theorem emitPkt_ports (s : State) (o : OutPkt) : (emitPkt s o).ports = s.ports := putLft_ports ..

@[simp] theorem lftCtr_ports (s : State) (k n : Nat) : (lftCtr s k n).ports = s.ports := addCtr_ports ..

@[simp] theorem putFlow_ports (s : State) (n p : Nat) (f : Flow) : (putFlow s n p f).ports = s.ports := putLft_ports ..

@[simp] theorem peerLost_ports (s : State) (n r : Nat) : (peerLost s n r).ports = s.ports := by
  refine (foldl_keeps State.ports (fun s p => ports_ite (addCause_ports ..) rfl) _ _).trans ?_
  rw [failReads_ports, dropHeld_ports, raise_ports, lftCtr_ports, putLft_ports, setPeerState_ports]

@[simp] theorem resend_ports (s : State) (n p : Nat) (f : OutPkt → Bool) : (resend s n p f).ports = s.ports := by
  refine foldl_keeps State.ports (fun s o => ?_) _ _
  dsimp only
  split
  · rfl
  · rw [emitPkt_ports, lftCtr_ports, putFlow_ports]

@[simp] theorem removePath_ports (s : State) (l n : Nat) : (removePath s l n).ports = s.ports := by
  have hput : ∀ v, (lftCtr (putPeer s n v) 7 1).ports = s.ports := fun v => by rw [lftCtr_ports, putPeer_ports]
  exact ports_ite rfl (ports_ite (ports_ite ((peerLost_ports ..).trans (hput _)) (hput _))
    ((foldl_keeps State.ports (fun s p => resend_ports ..) _ _).trans (hput _)))

/-! ## Links (R360) -/

theorem training_emitPkt (s : State) (o : OutPkt) : training (emitPkt s o) = training s := rfl

theorem training_putPeer (s : State) (n : Nat) (v : Peer) : training (putPeer s n v) = training s := rfl

theorem training_setPeerState (s : State) (n st : Nat) : training (setPeerState s n st) = training s := training_putPeer ..

@[simp] theorem stepDone_ports (s : State) (b k : Nat) : (stepDone s b k).ports = s.ports := by
  unfold stepDone
  split <;> rfl

/-- What the peers of a sub-port that came up are sent leaves the ports and training alone. -/
theorem sendHellos_keeps (l : List Nat) (n : Nat) (s : State) :
    (l.foldl (fun s p => sendHello (if peerFld s p 33 32 = 0 then setPeerState s p 1 else s) p n) s).ports = s.ports ∧
      training (l.foldl (fun s p => sendHello (if peerFld s p 33 32 = 0 then setPeerState s p 1 else s) p n) s) =
        training s := by
  constructor
  · refine foldl_keeps State.ports (fun s p => ?_) l s
    exact (emitPkt_ports ..).trans (ports_ite (setPeerState_ports ..) rfl)
  · refine foldl_keeps training (fun s p => ?_) l s
    exact (training_emitPkt ..).trans (training_ite (training_setPeerState ..) rfl)

/-- A sub-port that comes up joins the links. -/
theorem exec_linkUp {s : State} {l : Fin 128} (hdown : s.ports.links.contains l.val = false) (hon : subOn s l = true)
    (hfree : s.ports.holding.contains l.val = false) (hready : mediumReady s l = true) (hdom : getDom s (28 + l / 8) < 4) :
    ∃ u, exec (.linkUp l) s = .next u ∧ u.ports.links = s.ports.links ++ [l.val] ∧ training u = training s := by
  refine ⟨_, if_neg (by rw [hdown, hfree]; simp [hon, hready, Nat.not_le.mpr hdom]), ?_, ?_⟩
  · rw [(sendHellos_keeps _ _ _).1, stepDone_ports, raise_ports, wakeDomain_ports]
    rfl
  · rw [(sendHellos_keeps _ _ _).2, training_stepDone, training_raise, training_wakeDomain]
    rfl

/-- A sub-port that goes down leaves the links, and its priorities are neither paused nor ignored. -/
theorem linkLost_ports {s : State} {n : Nat} (hup : s.ports.links.contains n = true) :
    (linkLost s n).ports.links = s.ports.links.filter (· != n) ∧
      (linkLost s n).ports.paused = s.ports.paused.filter (fun x => x / 8 != n) := by
  have hfold : ∀ t : State, ((peersOn t n).foldl (fun s p =>
      let s := removePath s n p
      if peerFld s p 33 32 = 1 then setPeerState s p (idlePeerState s p) else s) t).ports = t.ports :=
    fun t => foldl_keeps State.ports (fun s p => ports_ite (a := setPeerState (removePath s n p) p _)
      ((setPeerState_ports ..).trans (removePath_ports ..)) (removePath_ports ..)) _ t
  unfold linkLost
  simp only [hup, Bool.not_true, Bool.false_eq_true, if_false]
  rw [hfold, raise_ports]
  split <;> exact ⟨rfl, rfl⟩

/-! ## Priority flow control (R361) -/

/-- What a PFC frame does to the paused priorities for priority `k`. -/
def pauseOne (l enable times : Nat) (ignored m : List Nat) (k : Nat) : List Nat :=
  let x := prioKey l k
  if !bitSet enable k || ignored.contains x then m
  else if bitSet times k then insertNew m x else m.filter (· != x)

/-- Another priority's turn changes nothing. -/
theorem mem_pauseOne_ne {l enable times j k : Nat} {ignored m : List Nat} (h : k ≠ j) :
    prioKey l j ∈ pauseOne l enable times ignored m k ↔ prioKey l j ∈ m := by
  have hne : prioKey l j ≠ prioKey l k := by simp [prioKey]; omega
  unfold pauseOne insertNew
  dsimp only
  split_ifs <;> simp [hne]

/-- A priority that the frame names is paused by its time; one that it does not name stays as it is. -/
theorem mem_pauseOne_same {l enable times k : Nat} {ignored m : List Nat} :
    (bitSet enable k = true → prioKey l k ∉ ignored →
      (prioKey l k ∈ pauseOne l enable times ignored m k ↔ bitSet times k = true)) ∧
    (bitSet enable k = false → (prioKey l k ∈ pauseOne l enable times ignored m k ↔ prioKey l k ∈ m)) := by
  refine ⟨fun hen hig => ?_, fun hen => ?_⟩
  · unfold pauseOne insertNew
    dsimp only
    split_ifs <;> simp_all
  · simp [pauseOne, hen]

/-- The frame leaves a priority that it does not name, or whose turn does not come. -/
theorem mem_pauses_other {l enable times k : Nat} {ignored : List Nat} (js m : List Nat)
    (h : bitSet enable k = false ∨ k ∉ js) :
    prioKey l k ∈ js.foldl (pauseOne l enable times ignored) m ↔ prioKey l k ∈ m := by
  induction js generalizing m with
  | nil => rfl
  | cons j js ih =>
    rw [List.foldl_cons, ih _ (h.imp_right fun hk hj => hk (List.mem_cons_of_mem j hj))]
    by_cases hj : j = k
    · subst hj
      exact mem_pauseOne_same.2 (h.resolve_right fun hk => hk List.mem_cons_self)
    · exact mem_pauseOne_ne hj

/-- The frame pauses a priority that it names by its time. -/
theorem mem_pauses_named {l enable times k : Nat} {ignored : List Nat} (js m : List Nat) (hen : bitSet enable k = true)
    (hig : prioKey l k ∉ ignored) (hk : k ∈ js) :
    prioKey l k ∈ js.foldl (pauseOne l enable times ignored) m ↔ bitSet times k = true := by
  induction js generalizing m with
  | nil => exact absurd hk List.not_mem_nil
  | cons j js ih =>
    rw [List.foldl_cons]
    by_cases hjs : k ∈ js
    · exact ih _ hjs
    · obtain rfl : k = j := (List.mem_cons.mp hk).resolve_right hjs
      rw [mem_pauses_other js _ (.inr hjs)]
      exact mem_pauseOne_same.1 hen hig

theorem exec_pfcFrameReceived {s : State} {l : Fin 128} (enable times : BitVec 8) (hup : s.ports.links.contains l.val = true)
    (hp : s.dev.phase ≠ .recovery) : exec (.pfcFrameReceived l enable times) s =
      .next (putPorts (portCtr s (l / 8) 8 1) { s.ports with
        paused := (upFrom 0 8).foldl (pauseOne l enable.toNat times.toNat s.ports.ignored) s.ports.paused }) := by
  have hn : ¬ (!s.ports.links.contains l.val || decide (s.dev.phase = .recovery)) = true := by rw [hup]; simp [hp]
  exact if_neg hn

theorem exec_pfcWatchdog {s : State} {l : Fin 128} {k : Fin 8} (h : prioKey l k ∈ s.ports.paused) :
    exec (.pfcWatchdog l k) s = .next (raise (portCtr (putPorts s { s.ports with
      paused := s.ports.paused.filter (· != prioKey l k), ignored := insertNew s.ports.ignored (prioKey l k) })
      (l / 8) 0x0B 1) 0x0903 0xFF 0 [l.val, k.val]) := by
  have hn : ¬ (!s.ports.paused.contains (prioKey l k)) = true := by simp [h]
  exact if_neg hn

theorem mem_insertNew {α : Type} [DecidableEq α] (l : List α) (a : α) : a ∈ insertNew l a := by
  unfold insertNew
  split <;> simp_all

/-- Settles O31: links by what keeps the ports, priorities by their turns. -/
theorem linksCarryFramesAndHonourPauses : Obligations.LinksCarryFramesAndHonourPauses := by
  refine ⟨fun s l => ⟨?up, ?down, ⟨_, rfl, rfl, rfl⟩, ?frame⟩, fun s l k => ⟨?pfc, ?watchdog, ?expiry⟩⟩
  case up =>
    intro hdown hon hfree hready hdom
    obtain ⟨u, hu, hlinks, htr⟩ := exec_linkUp hdown hon hfree hready hdom
    obtain ⟨hmem, htiles, -⟩ := training_eq htr
    exact ⟨u, hu, hlinks, hmem, htiles⟩
  case down =>
    intro hup
    obtain ⟨hlinks, hpaused⟩ := linkLost_ports (s := wakeDomain s (28 + l.val / 8)) (n := l) (by rwa [wakeDomain_ports])
    rw [wakeDomain_ports] at hlinks hpaused
    refine ⟨_, rfl, hlinks, fun k hk => ?_⟩
    rw [hpaused, List.mem_filter] at hk
    have hport : prioKey l k / 8 = l.val := by unfold prioKey; omega
    simp [hport] at hk
  case frame =>
    intro len c hup p s1
    have hn : ¬ (!s.ports.links.contains l.val) = true := by rw [hup]; decide
    refine (if_neg hn).trans ?_
    by_cases hlong : 9216 < len.toNat
    · rw [if_pos hlong, if_pos hlong]
    · rw [if_neg hlong, if_neg hlong]
      cases hfcs : c.fcsOk <;> rfl
  case pfc =>
    intro enable times hup hp
    have hk : k.val ∈ upFrom 0 8 := mem_upFrom.mpr (by omega)
    exact ⟨_, exec_pfcFrameReceived enable times hup hp, fun hen hig => mem_pauses_named _ _ hen hig hk,
      fun hen => mem_pauses_other _ _ (.inl hen), rfl⟩
  case watchdog =>
    intro h
    refine ⟨_, exec_pfcWatchdog h, ?_, ?_, (raise_log ..).1⟩
    · rw [raise_ports]
      exact fun hm => by simpa using (List.mem_filter.mp hm).2
    · rw [raise_ports]
      exact mem_insertNew ..
  case expiry => exact ⟨_, rfl, fun hm => by simpa using (List.mem_filter.mp hm).2, rfl⟩

end Sys2Proof.Machine

/-! The fabric (16 R366 to R376): packets that reach their flow, acknowledgements, reductions. -/

namespace Sys2Proof.Machine

/-! ## Packets (R366, R367, R371 to R374) -/

/-- The state once a packet has woken the network dies and is counted. -/
def arrived (s : State) : State := lftCtr (wakeDomain (wakeDomain s 44) 45) 2 1

theorem arrived_lft (s : State) : (arrived s).lft = s.lft := (packetArrives_keeps s).1

/-- A packet that is received from an enabled peer goes on to its flow. -/
theorem fromPeer_received {s : State} {h : LftPacket} (hr : Received s h) (hon : peerOn (arrived s) h.srcPeer = true)
    (f : State → State) : fromPeer s h f = f (arrived s) := by
  obtain ⟨hserved, hcrc, hver, htyp⟩ := hr
  have hgood : (decide (h.version = 1) && decide (h.typ.toNat < 8) && peerOn (arrived s) h.srcPeer) = true := by
    simp [hver, htyp, hon]
  have hcrc' : ¬ (!h.crcOk) = true := by simp [hcrc]
  exact (if_neg hserved).trans ((if_neg hcrc').trans (if_pos hgood))

/-- One whose CRC-32C fails is dropped and counted. -/
theorem fromPeer_badCrc {s : State} {h : LftPacket} (hserved : s.dev.phase ≠ .recovery) (hcrc : h.crcOk = false)
    (f : State → State) : fromPeer s h f = lftCtr (arrived s) 6 1 := by
  have hcrc' : (!h.crcOk) = true := by simp [hcrc]
  exact (if_neg hserved).trans (if_pos hcrc')

/-- One of an unknown version or type, or of a peer that is not enabled, is dropped and counted. -/
theorem fromPeer_unknown {s : State} {h : LftPacket} (hserved : s.dev.phase ≠ .recovery) (hcrc : h.crcOk = true)
    (hbad : h.version ≠ 1 ∨ 8 ≤ h.typ.toNat ∨ peerOn (arrived s) h.srcPeer = false) (f : State → State) :
    fromPeer s h f = lftCtr (arrived s) 5 1 := by
  have hcrc' : ¬ (!h.crcOk) = true := by simp [hcrc]
  have hno : ¬ (decide (h.version = 1) && decide (h.typ.toNat < 8) && peerOn (arrived s) h.srcPeer) = true := by
    obtain hv | ht | hp := hbad
    · rw [decide_eq_false hv, Bool.false_and, Bool.false_and]
      exact Bool.false_ne_true
    · simp [Nat.not_lt.mpr ht]
    · simp [hp]
  exact (if_neg hserved).trans ((if_neg hcrc').trans (if_neg hno))

/-- What the commands of the transport do with a packet that is let through. -/
def lftCommands (h : LftPacket) : List Instr :=
  [.lftWriteReceived h, .lftReadReceived h, .lftSignalReceived h, .lftReadDataReceived h, .lftAckReceived h, .lftNakReceived h]

/-- Each command of the transport takes its packet through `fromPeer`. -/
theorem exec_lftCommand {h : LftPacket} {c : Instr} (hc : c ∈ lftCommands h) (s : State) :
    ∃ f, exec c s = .next (fromPeer s h f) := by
  simp only [lftCommands, List.mem_cons, List.not_mem_nil, or_false] at hc
  rcases hc with rfl | rfl | rfl | rfl | rfl | rfl <;> exact ⟨_, rfl⟩

/-- A read of this module that its answer completes takes its bytes. -/
theorem takeReadData_good {s : State} {n p seq st : Nat} {bs : List Byte} {r : FarRead}
    (hr : s.lft.reads.find? (fun r => r.peer == n && r.part == p && !r.failed && r.seq == some seq) = some r)
    (hst : st % 256 = 0) (hlen : bs.length = r.bytes) :
    takeReadData s n p seq st bs = settleWindows (putLft s { s.lft with
      reads := s.lft.reads.filter (· != r), far := pokeBytes s.lft.far (r.owner * 2 ^ 64 + r.src) bs }) := by
  simp only [takeReadData, hr, hst, hlen, decide_true, Bool.and_self, if_true]

/-- Settles O28: every packet by `fromPeer`. -/
theorem fabricPacketsReachTheirFlow : Obligations.FabricPacketsReachTheirFlow := by
  intro s h s1 n
  refine ⟨fun hr hon => ⟨?write, ?read, ?signal, ?data⟩, ?dropped⟩
  case write => exact congrArg Host.Outcome.next (fromPeer_received hr hon _)
  case read => exact congrArg Host.Outcome.next (fromPeer_received hr hon _)
  case signal => exact congrArg Host.Outcome.next (fromPeer_received hr hon _)
  case data =>
    intro r hfind hst hlen
    refine congrArg Host.Outcome.next ((fromPeer_received hr hon _).trans ?_)
    exact takeReadData_good (by rw [arrived_lft]; exact hfind) hst hlen
  case dropped =>
    intro hserved c hc
    obtain ⟨f, hf⟩ := exec_lftCommand (h := h) hc s
    exact ⟨fun hcrc => hf.trans (congrArg Host.Outcome.next (fromPeer_badCrc hserved hcrc f)),
      fun hcrc hbad => hf.trans (congrArg Host.Outcome.next (fromPeer_unknown hserved hcrc hbad f))⟩

/-! ## Acknowledgements (R372, R373) -/

/-- Settles O29: an ACK and a NAK by `fromPeer`, the timers by their guards. -/
theorem acknowledgementsSettlePackets : Obligations.AcknowledgementsSettlePackets := by
  refine ⟨fun s h => ?packet, ?retransmit, ?timer⟩
  case packet =>
    intro s1 n p wm f hr hon
    refine ⟨congrArg Host.Outcome.next (fromPeer_received hr hon _), fun o ho => ?_⟩
    refine congrArg Host.Outcome.next ((fromPeer_received hr hon _).trans ?_)
    dsimp only
    rw [show (getFlow (arrived s) h.srcPeer.val h.dstPart.val).unacked.find? (fun o => o.p.seq == h.seq.toNat) = some o from ho]
    rfl
  case retransmit =>
    intro s n p q hup hself
    exact if_pos (by simp [hup, hself])
  case timer =>
    intro s n p hdue hon
    exact if_neg (by simp [hdue, hon])

/-! ## Reductions (R375, R376) -/

/-- A state with another next free value. -/
def withFree (s : State) (n : Nat) : State := { s with free := n }

theorem withFree_ite (c : Prop) [Decidable c] (a b : State) (n : Nat) :
    withFree (if c then a else b) n = if c then withFree a n else withFree b n := by
  split <;> rfl

theorem wakeDomain_withFree (s : State) (n i : Nat) : wakeDomain (withFree s n) i = withFree (wakeDomain s i) n := by
  have hspell : endSpell (withFree s n) i = withFree (endSpell s i) n := by
    unfold endSpell
    rw [withFree_ite]
    rfl
  unfold wakeDomain
  rw [hspell, withFree_ite, withFree_ite, withFree_ite]
  rfl

theorem wakeRun_withFree (s : State) (n a k : Nat) : wakeRun (withFree s n) a k = withFree (wakeRun s a k) n := by
  unfold wakeRun
  rw [withFree_ite]
  congr 1
  exact List.foldl_hom (fun s => withFree s n) (fun s i => wakeDomain_withFree s n i)

/-- What is written does not depend on the next free value. -/
theorem writeBytes_withFree (s : State) (n a : Nat) (bs : List Byte) :
    writeBytes (withFree s n) a bs = withFree (writeBytes s a bs) n := by
  unfold writeBytes
  dsimp only
  rw [wakeRun_withFree, withFree_ite]
  congr 1
  refine List.foldl_hom (fun s => withFree s n) (fun s l => ?_)
  unfold writePiece
  rw [withFree_ite]
  rfl

/-- One value of a result: that of the reduction, or a free one. -/
def resultStep (r : Reduction) (acc : List Nat × State) (i : Nat) : List Nat × State :=
  if bits r.ops (4 * i + 3) (4 * i) = 0 then
    let f := freshFree acc.2
    (acc.1 ++ [f.1 % 2 ^ 64], f.2)
  else (acc.1 ++ [r.vals.getD i 0], acc.2)

theorem resultVals_steps (s : State) (r : Reduction) : resultVals s r = (upFrom 0 8).foldl (resultStep r) ([], s) := rfl

theorem resultSteps_eq (r : Reduction) (js l : List Nat) (s : State) (n : Nat) :
    ∃ m, (js.foldl (resultStep r) (l, withFree s n)).2 = withFree s m ∧
      (js.foldl (resultStep r) (l, withFree s n)).1.length = l.length + js.length := by
  induction js generalizing l n with
  | nil => exact ⟨n, rfl, rfl⟩
  | cons j js ih =>
    have hstep : ∃ x m, resultStep r (l, withFree s n) j = (l ++ [x], withFree s m) := by
      unfold resultStep
      split <;> exact ⟨_, _, rfl⟩
    obtain ⟨x, m, hxm⟩ := hstep
    obtain ⟨k, hk, hlen⟩ := ih (l ++ [x]) m
    rw [List.foldl_cons, hxm]
    refine ⟨k, hk, hlen.trans ?_⟩
    simp only [List.length_append, List.length_cons, List.length_nil]
    omega

/-- A result has eight values, and takes nothing but free ones. -/
theorem resultVals_eq (s : State) (r : Reduction) :
    ∃ n, (resultVals s r).2 = withFree s n ∧ (resultVals s r).1.length = 8 :=
  resultSteps_eq r (upFrom 0 8) [] s s.free

/-- The bytes of eight values. -/
theorem length_resultBytes {l : List Nat} (h : l.length = 8) : (l.flatMap (toBytes 8)).length = 64 := by
  simp [List.length_flatMap, toBytes_length, h]

/-- The state after a reduction's result. -/
def resultWritten (s : State) (k : Nat) (r : Reduction) : State :=
  let t := writeBytes (resultVals s r).2 r.result ((resultVals s r).1.flatMap (toBytes 8))
  lftCtr (putLft t { t.lft with reductions := dropAt t.lft.reductions k }) 9 1

theorem exec_reductionDone {s : State} {k : Nat} {r : Reduction} (hr : s.lft.reductions[k]? = some r)
    (hdone : (redMoves r.members.length r.rank).length ≤ r.round) :
    exec (.reductionDone k) s = .next (signalOne (resultWritten s k r) r.part r.done
      (unitId 0 6 0 (selfPeer (resultWritten s k r)))) := by
  show execReductionDone k s = _
  simp only [execReductionDone, hr, if_neg (Nat.not_lt.mpr hdone)]
  rfl

@[simp] theorem signalOne_lft (s : State) (p n u : Nat) : (signalOne s p n u).lft = s.lft := by
  unfold signalOne sendSignal
  split <;> rfl

@[simp] theorem signalOne_mem (s : State) (p n u : Nat) : (signalOne s p n u).mem = s.mem := by
  unfold signalOne sendSignal
  split <;> rfl

/-- The reduction that a descriptor starts (R375). -/
def startedRed (s : State) (p d : Nat) : Reduction :=
  { part := p, tag := bits d 383 320, ops := bits d 287 256, rank := bits d 239 230
    members := (upFrom 0 (bits d 255 240)).map (fun i => readNat s (bits d 511 448 + 2 * i) 2)
    result := bits d 447 384, done := bits d 319 288, round := 0
    vals := (upFrom 0 8).map (fun i => bits d (512 + 64 * i + 63) (512 + 64 * i)), early := [] }

/-- REDUCE_DOORBELL with a sound descriptor whose tag is free, while no contribution waits. -/
theorem exec_reduceDoorbell {s : State} {c : Fin 96} {p : Fin 16} {addr : BitVec 64} (h : Rings s 2 c p)
    (hok : redOk s p addr.toNat (readNat s addr.toNat 128) = true)
    (hfree : s.lft.reductions.any (fun x => x.part == p.val && x.tag == bits (readNat s addr.toNat 128) 383 320) = false)
    (hearly : s.lft.early = []) :
    let r := startedRed s p (readNat s addr.toNat 128)
    exec (.reduceDoorbell ⟨c, p⟩ addr) s =
      .next (runRed redFuel (putLft s { s.lft with reductions := s.lft.reductions ++ [r] }) r) := by
  intro r
  show Host.Outcome.next (byCore s c p (reduceStore p addr.toNat)) = _
  rw [byCore_rings h, reduceStore]
  dsimp only
  rw [atDoorbell_rings h, hok, hfree, hearly]
  rfl

/-- A contribution that passes the flow's check reaches its reduction (R376). -/
theorem exec_lftReduceReceived {s : State} {h : LftPacket} (ops : BitVec 32) (hr : Received s h)
    (hon : peerOn (arrived s) h.srcPeer = true)
    (hnew : isOld (getFlow (arrived s) h.srcPeer h.dstPart) (packetOf 5 h).seq = false)
    (hheld : isHeldSeq (arrived s) h.srcPeer (packetOf 5 h) = false)
    (hcode : refusalCode (arrived s) h.srcPeer (packetOf 5 h) = 0) :
    exec (.lftReduceReceived h ops) s = .next (contribute (receiveSeq (arrived s) h.srcPeer (packetOf 5 h)) h.dstPart
      (packetOf 5 h).addr h.srcPeer ((packetOf 5 h).aux % 65536)
      ((upFrom 0 8).map (fun i => ofBytesBE ((h.payload.drop (8 * i)).take 8)) ++ [ops.toNat])) := by
  refine congrArg Host.Outcome.next ((fromPeer_received hr hon _).trans ?_)
  dsimp only
  rw [hnew, hheld, hcode]
  rfl

/-- Settles O30: the doorbell, a contribution, and the end of a reduction. -/
theorem reductionsStartCombineAndEnd : Obligations.ReductionsStartCombineAndEnd := by
  refine ⟨?start, ?contribution, ?done⟩
  case start =>
    intro s c p addr d tag hrings hok hfree hearly
    refine ⟨startedRed s p d, rfl, rfl, rfl, rfl, rfl, ?_, rfl, exec_reduceDoorbell hrings hok hfree hearly⟩
    simp [startedRed]
  case contribution =>
    intro s h ops s1 k n hr hon hnew hheld hcode
    exact exec_lftReduceReceived ops hr hon hnew hheld hcode
  case done =>
    intro s k r hr hdone
    obtain ⟨n, hn, hlen⟩ := resultVals_eq s r
    have hbytes : (writeBytes (resultVals s r).2 r.result ((resultVals s r).1.flatMap (toBytes 8))).mem =
        (writeBytes s r.result ((resultVals s r).1.flatMap (toBytes 8))).mem := by
      rw [hn, writeBytes_withFree]
      rfl
    have hmem : (signalOne (resultWritten s k r) r.part r.done (unitId 0 6 0 (selfPeer (resultWritten s k r)))).mem =
        (writeBytes s r.result ((resultVals s r).1.flatMap (toBytes 8))).mem := (signalOne_mem ..).trans hbytes
    refine ⟨_, exec_reductionDone hr hdone, ?_, fun a ha => ?_, hmem⟩
    · rw [signalOne_lft]
      show dropAt (writeBytes ..).lft.reductions k = _
      rw [writeBytes_lft, hn]
      rfl
    · rw [readByte_congr hmem]
      exact readByte_writeBytes_out _ _ _ _ (by rw [length_resultBytes hlen]; exact ha)

end Sys2Proof.Machine

/-! The commands of a partition (17 R390, R391, R406): what FORM, START, STOP, PREEMPT, RESUME, RESTART and DISSOLVE do in
the states that allow them. -/

namespace Sys2Proof.Machine

/-! ## What leaves the partitions alone -/

theorem training_wakeGroups (s : State) (q : Part) : training (wakeGroups s q) = training s :=
  foldl_keeps training training_wakeDomain _ s

@[simp] theorem wakeGroups_parts (s : State) (q : Part) : (wakeGroups s q).parts = s.parts :=
  (training_eq (training_wakeGroups s q)).2.2.1

@[simp] theorem wakeGroups_mem (s : State) (q : Part) : (wakeGroups s q).mem = s.mem :=
  (training_eq (training_wakeGroups s q)).1

@[simp] theorem getPart_wakeGroups (s : State) (q : Part) (p : Nat) : getPart (wakeGroups s q) p = getPart s p :=
  getPart_congr (wakeGroups_parts s q) p

/-! ## FORM, START, STOP and DISSOLVE (R390, R391) -/

theorem exec_form {s : State} {p : Fin 16} (hr : cmdReady s = true) (hs : (getPart s p).state = .unformed)
    (hf : mayForm s p (committedPart s p) = true) : exec (.form p) s = .next (beginForm s p (committedPart s p)) :=
  congrArg Host.Outcome.next (if_pos (by rw [hr, hs, hf]; rfl))

/-- A command that names tables is carried out at once where they can be read and none of its kind waits. -/
theorem atDoorbell_calm {s : State} {kind p : Nat} (hc : calm s = true)
    (hd : s.sched.doorbells.any (fun x => x.1 == kind && x.2.1 == p) = false) (v : Nat)
    (levels : List (List (Nat × Nat))) (f : State → State) : atDoorbell s kind p v levels f = f s := by
  obtain ⟨hm, hu⟩ : memClean s = true ∧ domsUp s = true := by simpa [calm] using hc
  simp [atDoorbell, wakeRuns, hd, hm, hu]

/-- Tables that can be read and are accepted start the job at the step that the streams agree on. -/
theorem startTables_accepted {s s1 s2 : State} {p s0 : Nat} (hu : readUpdTable s p = (s1, true))
    (hl : loadTable s1 p = (s2, true)) (ha : agreedFirst s (getPart s p) = some s0) :
    startTables p s = startJob s2 p s0 := by
  simp [startTables, hu, hl, ha]

theorem exec_start {s s1 s2 : State} {p : Fin 16} {s0 : Nat} (hr : cmdReady s = true) (hs : (getPart s p).state = .stopped)
    (hp : s.panel.removal = 0) (hc : calm s = true)
    (hd : s.sched.doorbells.any (fun x => x.1 == 4 && x.2.1 == p.val) = false) (hu : readUpdTable s p = (s1, true))
    (hl : loadTable s1 p = (s2, true)) (ha : agreedFirst s (getPart s p) = some s0) :
    exec (.start p) s = .next (startJob s2 p s0) := by
  refine congrArg Host.Outcome.next ((if_neg (by simp [hr, hs, hp])).trans ?_)
  rw [atDoorbell_calm hc hd, startTables_accepted hu hl ha]

/-- STOP leaves the partition STOPPED, with no cause waiting. -/
theorem getPart_stopPart (s : State) (p : Nat) :
    (getPart (stopPart s p) p).state = .stopped ∧ (getPart (stopPart s p) p).causes = [] := by
  unfold stopPart
  rw [getPart_wakeGroups, getPart_putPart]
  exact ⟨rfl, rfl⟩

theorem exec_stop {s : State} {p : Fin 16} (hr : cmdReady s = true)
    (hs : (getPart s p).state = .running ∨ (getPart s p).state = .preempted ∨ (getPart s p).state = .held) :
    exec (.stop p) s = .next (stopPart s p) := by
  refine congrArg Host.Outcome.next ?_
  rcases hs with h | h | h <;> simp [stopCmd, h, hr]

theorem exec_dissolve {s : State} {p : Fin 16} (hr : cmdReady s = true) (hs : (getPart s p).state = .stopped) :
    exec (.dissolve p) s = .next (dissolvePart s p) :=
  congrArg Host.Outcome.next (if_pos (by rw [hr, hs]; rfl))

/-! ## PREEMPT and RESUME (R406) -/

/-- What asked a partition to pause stands when it becomes PREEMPTED, and memory is as it was. -/
theorem tryPreempt_asked (s : State) (p : Nat) :
    (getPart (tryPreempt s p) p).preemptAsked = (getPart s p).preemptAsked ∧
      (getPart (tryPreempt s p) p).preemptBy = (getPart s p).preemptBy ∧ (tryPreempt s p).mem = s.mem := by
  unfold tryPreempt
  dsimp only
  split
  · rw [getPart_putPart]
    exact ⟨rfl, rfl, by simp⟩
  · exact ⟨rfl, rfl, rfl⟩

theorem getPart_askPreempt (s : State) (p who : Nat) :
    (getPart (askPreempt s p who) p).preemptAsked = true ∧
      (getPart (askPreempt s p who) p).preemptBy = insertNew (getPart s p).preemptBy who := by
  unfold askPreempt
  rw [getPart_putPart]
  exact ⟨rfl, rfl⟩

theorem exec_preempt {s : State} {p : Fin 16} (hr : cmdReady s = true) (hs : (getPart s p).state = .running) :
    ∃ u, exec (.preempt p) s = .next u ∧ (getPart u p).preemptAsked = true ∧ 0 ∈ (getPart u p).preemptBy ∧
      u.mem = s.mem := by
  obtain ⟨hasked, hby⟩ := getPart_askPreempt s p 0
  obtain ⟨tasked, tby, tmem⟩ := tryPreempt_asked (wakeGroups (askPreempt s p 0) (getPart s p)) p
  refine ⟨tryPreempt (wakeGroups (askPreempt s p 0) (getPart s p)) p, congrArg Host.Outcome.next
    (if_pos (by rw [hr, hs]; rfl)), ?_, ?_, ?_⟩
  · rw [tasked, getPart_wakeGroups, hasked]
  · rw [tby, getPart_wakeGroups, hby]
    exact mem_insertNew _ _
  · rw [tmem, wakeGroups_mem]
    exact putPart_mem ..

/-- What the end of a quiesce leaves of a partition: its state, its step and whether it is asked to pause. -/
def runOf (s : State) (p : Nat) : PartState × Bool × Nat :=
  ((getPart s p).state, (getPart s p).preemptAsked, (getPart s p).step)

theorem runOf_unaskPreempt (who : Nat) (s : State) (a p : Nat) : runOf (unaskPreempt who s a) p = runOf s p := by
  unfold runOf unaskPreempt
  by_cases h : p = a
  · subst h
    rw [getPart_putPart]
  · rw [getPart_putPart_ne _ _ h]

theorem runOf_endQuiesce (s : State) (p : Nat) : runOf (endQuiesce s) p = runOf s p :=
  foldl_keeps (fun s => runOf s p) (fun s a => runOf_unaskPreempt 1 s a p) _ _

theorem endQuiesce_mem (s : State) : (endQuiesce s).mem = s.mem :=
  foldl_keeps State.mem (fun s a => putPart_mem s a _) _ _

theorem runOf_resumePart (s : State) (p : Nat) : runOf (resumePart s p) p = (.running, false, (getPart s p).step) := by
  unfold runOf resumePart
  rw [getPart_wakeGroups, getPart_putPart]

theorem exec_resume {s : State} {p : Fin 16} (hr : cmdReady s = true) (hs : (getPart s p).state = .preempted)
    (hp : s.panel.removal = 0) :
    ∃ u, exec (.resume p) s = .next u ∧ (getPart u p).state = .running ∧ (getPart u p).preemptAsked = false ∧
      (getPart u p).step = (getPart s p).step ∧ u.mem = s.mem := by
  have hrun : runOf (endQuiesce (resumePart s p)) p = (.running, false, (getPart s p).step) := by
    rw [runOf_endQuiesce, runOf_resumePart]
  obtain ⟨hstate, hask, hstep⟩ : _ ∧ _ ∧ _ := by simpa [runOf] using hrun
  refine ⟨endQuiesce (resumePart s p), congrArg Host.Outcome.next (if_pos (by simp [hr, hs, hp])), hstate, hask, hstep, ?_⟩
  rw [endQuiesce_mem]
  exact (wakeGroups_mem ..).trans (putPart_mem ..)

/-! ## RESTART (R390) -/

/-- A cause that arises for a RUNNING partition waits at it. -/
theorem addCause_running {s : State} {p : Nat} (h : (getPart s p).state = .running) (code : Nat) :
    (getPart (addCause s p code) p).causes = (getPart s p).causes ++ [code] ∧ (addCause s p code).mem = s.mem := by
  simp only [addCause, h]
  rw [getPart_putPart]
  exact ⟨rfl, putPart_mem ..⟩

theorem exec_restart_running {s : State} {p : Fin 16} (hr : cmdReady s = true) (hs : (getPart s p).state = .running) :
    ∃ u code, exec (.restart p) s = .next u ∧ (getPart u p).causes = (getPart s p).causes ++ [code] ∧ code < 65536 ∧
      u.mem = s.mem := by
  have hpart : getPart (wakeGroups (freshFree s).2 (getPart s p)) p = getPart s p := getPart_wakeGroups ..
  have hex : exec (.restart p) s =
      .next (addCause (wakeGroups (freshFree s).2 (getPart s p)) p ((freshFree s).1 % 65536)) :=
    congrArg Host.Outcome.next (by simp only [restartCmd, hs, hr, if_true])
  obtain ⟨hcauses, hmem⟩ := addCause_running (by rw [hpart, hs]) ((freshFree s).1 % 65536)
  refine ⟨_, _, hex, hcauses.trans (by rw [hpart]), Nat.mod_lt _ (by decide), ?_⟩
  rw [hmem, wakeGroups_mem]
  rfl

theorem exec_restart_held {s : State} {p : Fin 16} (hr : cmdReady s = true) (hs : (getPart s p).state = .held) :
    ∃ u, exec (.restart p) s = .next u ∧ (getPart u p).state = .restarting ∧ (getPart u p).attempts = 0 ∧
      u.mem = s.mem := by
  have hex : exec (.restart p) s = .next (putPart (endQuiesce (wakeGroups (freshFree s).2 (getPart s p))) p
      { getPart s p with state := .restarting, attempts := 0, causes := [(freshFree s).1 % 65536] }) :=
    congrArg Host.Outcome.next (by simp only [restartCmd, hs, hr, if_true])
  refine ⟨_, hex, ?_, ?_, ?_⟩
  · rw [getPart_putPart]
  · rw [getPart_putPart]
  · rw [putPart_mem, endQuiesce_mem, wakeGroups_mem]
    rfl

/-- Settles O34: each command is one branch of its function, in a state of the partition that allows it. -/
theorem partitionCommandsChangeItsState : Obligations.PartitionCommandsChangeItsState := by
  unfold Obligations.PartitionCommandsChangeItsState
  refine ⟨fun s p hr => ⟨exec_form hr, fun s1 s2 s0 hs hp hc hd hu hl ha => exec_start hr hs hp hc hd hu hl ha,
    fun hs => ⟨_, exec_stop hr hs, rfl, getPart_stopPart s p⟩, exec_dissolve hr⟩,
    fun s p hr => ⟨exec_preempt hr, exec_resume hr, exec_restart_running hr, exec_restart_held hr⟩⟩

end Sys2Proof.Machine

/-! Restarts, holds and step boundaries of a partition (17 R393, R395; 01 R21 to R24). -/

namespace Sys2Proof.Machine

/-! ## Restarts and holds (R393, R395) -/

/-- Causes that none of them holds, within the attempts, make one restart. -/
theorem actOnCauses_restart {s : State} {p c : Nat} {l : List Nat} (hs : (getPart s p).state = .running)
    (hc : (getPart s p).causes = c :: l) (hall : (getPart s p).causes.all (fun c => decide (c < 65536)) = true)
    (hl : (getPart s p).attempts + 1 ≤ settingAt s (1 + p) 0x3007 (p + 1)) : actOnCauses s p = restartPart s p c := by
  have hnone : (getPart s p).causes.find? (fun c => decide (65536 ≤ c)) = none := by
    simpa [List.find?_eq_none] using hall
  rw [hc] at hnone
  have hlim : ¬ settingAt s (1 + p) 0x3007 (p + 1) < (getPart s p).attempts + 1 := Nat.not_lt.mpr hl
  simp [actOnCauses, hc, hs, hnone, hlim]

/-- Causes that none of them holds, above the limit of attempts, hold the partition under the first. -/
theorem actOnCauses_limit {s : State} {p c : Nat} {l : List Nat} (hs : (getPart s p).state = .running)
    (hc : (getPart s p).causes = c :: l) (hall : (getPart s p).causes.all (fun c => decide (c < 65536)) = true)
    (hl : settingAt s (1 + p) 0x3007 (p + 1) < (getPart s p).attempts + 1) : actOnCauses s p = holdPart s p c := by
  have hnone : (getPart s p).causes.find? (fun c => decide (65536 ≤ c)) = none := by
    simpa [List.find?_eq_none] using hall
  rw [hc] at hnone
  simp [actOnCauses, hc, hs, hnone, hl]

/-- A cause that holds the partition does so, whatever waits beside it. -/
theorem actOnCauses_hold {s : State} {p h : Nat} (hs : (getPart s p).state = .running)
    (hh : (getPart s p).causes.find? (fun c => decide (65536 ≤ c)) = some h) : actOnCauses s p = holdPart s p h := by
  cases hc : (getPart s p).causes with
  | nil => simp [hc] at hh
  | cons c l =>
    rw [hc] at hh
    simp [actOnCauses, hc, hs, hh]

/-- Without a cause there is nothing to act on. -/
theorem actOnCauses_none {s : State} {p : Nat} (hc : (getPart s p).causes = []) : actOnCauses s p = s := by
  simp only [actOnCauses, hc]

/-- A partition that is not RESTARTING has no restart to go on with. -/
theorem finishRestart_idle {s : State} {p : Nat} (h : (getPart s p).state ≠ .restarting) : finishRestart s p = s :=
  if_pos (by simp [h])

/-- The watches that stay armed are those of other partitions. -/
theorem armed_cancelWatches {s : State} {p : Nat} {w : Watch} (h : w ∈ (cancelWatches s p).sync.armed) : w.part ≠ p := by
  unfold cancelWatches at h
  exact bne_iff_ne.mp (List.mem_filter.mp h).2

/-- What a hold leaves of a partition, and that none of its watches is armed. -/
theorem holdPart_held (s : State) (p c : Nat) :
    (getPart (holdPart s p c) p).state = .held ∧ (getPart (holdPart s p c) p).causes = [] ∧
      (getPart (holdPart s p c) p).lastCause = c % 65536 ∧ (getPart (holdPart s p c) p).preemptAsked = false ∧
      ∀ w ∈ (holdPart s p c).sync.armed, w.part ≠ p := by
  have hfold : ∀ (l : List Nat) (u : State), (l.foldl (fun s t =>
      putTile s t { getTile s t with stopped := true, inflight := [] }) u).sync = u.sync :=
    fun l u => foldl_keeps State.sync (fun s t => putTile_sync ..) l u
  unfold holdPart
  dsimp only
  rw [getPart_congr (raise_parts ..), getPart_congr (addCtr_parts ..), getPart_putPart]
  refine ⟨rfl, rfl, rfl, rfl, fun w hw => ?_⟩
  rw [raise_sync, addCtr_sync, putPart_sync, hfold] at hw
  exact armed_cancelWatches hw

theorem exec_partitionRestart_held {s : State} {p : Fin 16} {c : Nat} (h : actOnCauses s p = holdPart s p c) :
    exec (.partitionRestart p) s = .next (holdPart s p c) := by
  have hheld := (holdPart_held s p c).1
  refine congrArg Host.Outcome.next ?_
  rw [h, finishRestart_idle (by rw [hheld]; simp)]

/-- A restart whose writes are settled and whose flows are UP rolls back once what that reads can be read. -/
theorem finishRestart_rolling {s : State} {p : Nat} (hs : (getPart s p).state = .restarting) (hc : (getPart s p).causes = [])
    (hf : flowsUp s p = true) (hset : settled s p = true) (hr : (getPart s p).rolling = true) (hcalm : calm s = true) :
    finishRestart s p = rollBack p s := by
  simp only [finishRestart, hs, hc, hf, hset, hr]
  exact onceLevels_calm hcalm _ _

/-- A restart that has rolled back and awaits nothing lets the streams run, where no restart item is to be read. -/
theorem finishRestart_replay {s : State} {p : Nat} (hs : (getPart s p).state = .restarting) (hc : (getPart s p).causes = [])
    (ha : (getPart s p).awaiting = []) (hf : flowsUp s p = true) (hset : settled s p = true)
    (hr : (getPart s p).rolling = false) (hitem : setting s 0x3006 (p + 1) = 0) :
    finishRestart s p = beginReplay p s := by
  simp only [finishRestart, hs, hc, ha, hf, hset, hr, hitem]
  exact onceRead_nothing _ _ _

/-- Without an address there is no restart item. -/
theorem restartItem_none {s : State} {p : Nat} (h : setting s 0x3006 (p + 1) = 0) : restartItem s p = s := if_pos h

/-- What the start of a replay or a job does to the placement's progress leaves all else alone. -/
theorem placeStart_keeps (s : State) (p : Nat) :
    training (placeStart s p) = training s ∧ (placeStart s p).settings = s.settings := by
  unfold placeStart
  dsimp only
  split <;> exact ⟨rfl, rfl⟩

/-- What a replay makes of its partition. -/
def replaying (s : State) (q : Part) : Part :=
  { q with
    state := if q.resumePreempted then .preempted else .running, replay := true, perBlock := true, resumePreempted := false
    preemptNs := nowNs s, stepStopped := if q.resumePreempted then marksOf s q else [] }

/-- The state of a replay before its restart item. -/
def replayed (s : State) (p : Nat) : State :=
  let u := addCtr s (0x4D00 + p) 3 (nowNs s - (getPart s p).restartNs)
  placeStart (putPart (dropDelivered u p) p (replaying u (getPart s p))) p

theorem beginReplay_eq (s : State) (p : Nat) : beginReplay p s = restartItem (replayed s p) p := rfl

theorem dropDelivered_keeps (s : State) (p : Nat) :
    training (dropDelivered s p) = training s ∧ (dropDelivered s p).settings = s.settings := ⟨rfl, rfl⟩

/-- A replay changes its partition and counts; memory, tiles, counters and settings stand. -/
theorem replayed_keeps (s : State) (p : Nat) :
    (∃ u, getPart (replayed s p) p = replaying u (getPart s p)) ∧ (replayed s p).mem = s.mem ∧
      (replayed s p).tiles = s.tiles ∧ (replayed s p).sync = s.sync ∧ (replayed s p).settings = s.settings := by
  unfold replayed
  dsimp only
  generalize nowNs s - (getPart s p).restartNs = n
  generalize hx : addCtr s (0x4D00 + p) 3 n = x
  obtain ⟨hplace, hplaceset⟩ := placeStart_keeps (putPart (dropDelivered x p) p (replaying x (getPart s p))) p
  obtain ⟨hmem, htiles, hparts, hsync⟩ := training_eq hplace
  obtain ⟨hdrop, hdropset⟩ := dropDelivered_keeps x p
  obtain ⟨hdmem, hdtiles, -, hdsync⟩ := training_eq hdrop
  rw [hmem, htiles, hsync, hplaceset, getPart_congr hparts, getPart_putPart, putPart_mem, putPart_tiles, putPart_sync,
    putPart_settings, hdmem, hdtiles, hdsync, hdropset, ← hx, addCtr_mem, addCtr_tiles, addCtr_sync, addCtr_settings]
  exact ⟨⟨_, rfl⟩, rfl, rfl, rfl, rfl⟩

theorem exec_partitionRestart_replay {s : State} {p : Fin 16} (hs : (getPart s p).state = .restarting)
    (hc : (getPart s p).causes = []) (ha : (getPart s p).awaiting = []) (hf : flowsUp s p = true)
    (hset : settled s p = true) (hr : (getPart s p).rolling = false) (hitem : setting s 0x3006 (p + 1) = 0) :
    ∃ u, exec (.partitionRestart p) s = .next u ∧
      (getPart u p).state = (if (getPart s p).resumePreempted = true then .preempted else .running) ∧
      (getPart u p).replay = true ∧ (getPart u p).perBlock = true ∧ (getPart u p).step = (getPart s p).step ∧
      (getPart u p).attempts = (getPart s p).attempts ∧ u.mem = s.mem ∧ u.tiles = s.tiles ∧ u.sync = s.sync := by
  obtain ⟨⟨x, hpart⟩, hmem, htiles, hsync, hsettings⟩ := replayed_keeps s p
  refine ⟨replayed s p, congrArg Host.Outcome.next ?_, ?_⟩
  · rw [actOnCauses_none hc, finishRestart_replay hs hc ha hf hset hr hitem, beginReplay_eq,
      restartItem_none ((setting_congr hsettings ..).trans hitem)]
  · rw [hpart]
    exact ⟨rfl, rfl, rfl, rfl, rfl, hmem, htiles, hsync⟩

/-! ## Step boundaries (R21 to R24) -/

/-- What the start of a step sets of a partition, and the ledger beside it. -/
def stepStart (p : Nat) (s : State) : (Nat × Nat × List Recur × Bool × Bool) × List LedgerEntry :=
  (((getPart s p).step, (getPart s p).attempts, (getPart s p).recur, (getPart s p).replay, (getPart s p).reload),
    s.lft.ledger)

theorem stepStart_congr {s u : State} (p : Nat) (hp : u.parts = s.parts) (hl : u.lft = s.lft) :
    stepStart p u = stepStart p s := by
  unfold stepStart
  rw [getPart_congr hp, hl]

theorem stepStart_takeSnapshots (s : State) (p : Nat) : stepStart p (takeSnapshots s p) = stepStart p s := by
  unfold takeSnapshots stepStart
  dsimp only
  rw [getPart_putPart]
  rfl

theorem beginTrail_parts_lft (s : State) (p : Nat) :
    (beginTrail s p).parts = s.parts ∧ (beginTrail s p).lft = s.lft := by
  unfold beginTrail
  split
  · exact ⟨rfl, rfl⟩
  · split
    · exact ⟨rfl, rfl⟩
    · dsimp only
      rw [writeNat_parts, writeNat_lft]
      exact ⟨rfl, rfl⟩

theorem stepStart_beginTrail (s : State) (p : Nat) : stepStart p (beginTrail s p) = stepStart p s :=
  stepStart_congr p (beginTrail_parts_lft s p).1 (beginTrail_parts_lft s p).2

theorem stepStart_freeTrailSlots (s : State) (p : Nat) (f : Nat → Bool) :
    stepStart p (freeTrailSlots s p f) = stepStart p s := rfl

theorem dropTile_parts_lft (s : State) (t : Nat) : (dropTile s t).parts = s.parts ∧ (dropTile s t).lft = s.lft := by
  unfold dropTile
  dsimp only
  split <;> exact ⟨rfl, rfl⟩

theorem stepStart_addCause (s : State) (p c : Nat) : stepStart p (addCause s p c) = stepStart p s := by
  unfold addCause
  dsimp only
  split
  case h_4 => rfl
  all_goals
    unfold stepStart
    rw [getPart_putPart, putPart_lft]

theorem stepStart_startRetirements (s : State) (p : Nat) : stepStart p (startRetirements s p) = stepStart p s := by
  unfold startRetirements
  dsimp only
  split
  · rfl
  · rw [stepStart_addCause]
    have hlft : ((getPart s p).retire.foldl dropTile (freshFree s).2).lft = s.lft :=
      foldl_keeps State.lft (fun s t => (dropTile_parts_lft s t).2) _ _
    unfold stepStart
    rw [getPart_putPart, putPart_lft, hlft]

theorem stepStart_tryPreempt (s : State) (p : Nat) : stepStart p (tryPreempt s p) = stepStart p s := by
  unfold tryPreempt
  dsimp only
  split
  · unfold stepStart
    rw [getPart_putPart, putPart_lft, addCtr_lft]
  · rfl

/-- The boundary of a step begins the next one, and no entry of the ledger is left of it. -/
theorem stepStart_passBoundary (s : State) (p : Nat) :
    ∃ l : List LedgerEntry, stepStart p (passBoundary s p) = (((getPart s p).step + 1, 0, [], false, false), l) ∧
      ∀ e ∈ l, e.part = p → e.step ≠ (getPart s p).step := by
  unfold passBoundary
  dsimp only
  rw [stepStart_tryPreempt, stepStart_startRetirements, stepStart_beginTrail, stepStart_freeTrailSlots,
    stepStart_takeSnapshots]
  generalize List.foldl _ _ _ = x
  refine ⟨x.lft.ledger.filter (fun e => !(e.part == p && e.step == (getPart s p).step)), ?_, fun e he hp hst => ?_⟩
  · unfold stepStart
    rw [getPart_putPart]
    rfl
  · simpa [hp, hst] using (List.mem_filter.mp he).2

theorem exec_stepBoundary_reached {s : State} {p : Fin 16} (hs : (getPart s p).state = .running) (hc : calm s = true)
    (hb : boundaryReached s p = true) :
    ∃ u, exec (.stepBoundary p) s = .next u ∧ u = passBoundary s p ∧ (getPart u p).step = (getPart s p).step + 1 ∧
      (getPart u p).attempts = 0 ∧ (getPart u p).recur = [] ∧ (getPart u p).replay = false ∧
      (getPart u p).reload = false ∧ ∀ l ∈ u.lft.ledger, l.part = p.val → l.step ≠ (getPart s p).step := by
  have hex : exec (.stepBoundary p) s = .next (passBoundary s p) := by
    refine (if_pos (by rw [hs]; rfl)).trans (congrArg Host.Outcome.next ?_)
    rw [onceLevels_calm hc, if_pos hb]
  obtain ⟨l, hstart, hl⟩ := stepStart_passBoundary s p
  obtain ⟨⟨hstep, hatt, hrec, hrep, hrel⟩, hled⟩ : (_ ∧ _ ∧ _ ∧ _ ∧ _) ∧ _ := by
    simpa only [stepStart, Prod.mk.injEq] using hstart
  exact ⟨_, hex, rfl, hstep, hatt, hrec, hrep, hrel, hled ▸ hl⟩

theorem exec_stepBoundary_early {s : State} {p : Fin 16}
    (h : (getPart s p).state ≠ .running ∨ (calm s = true ∧ boundaryReached s p = false)) :
    exec (.stepBoundary p) s = .next s := by
  by_cases hs : (getPart s p).state = .running
  · obtain ⟨hc, hb⟩ := h.resolve_left (fun hne => hne hs)
    refine (if_pos (by rw [hs]; rfl)).trans (congrArg Host.Outcome.next ?_)
    rw [onceLevels_calm hc, if_neg (by simp [hb])]
  · exact if_neg (by simpa using hs)

/-- Settles O35: what the waiting causes ask for, then how far the restart goes on; and the boundary, reached or not. -/
theorem restartsAndBoundariesAreCarriedOut : Obligations.RestartsAndBoundariesAreCarriedOut := by
  unfold Obligations.RestartsAndBoundariesAreCarriedOut
  intro s p
  refine ⟨fun c l hs hc hall => ⟨fun hl => ?restart, fun hl => ?limit⟩, fun h hs hh => ?hold,
    fun hs hc hf hset hr hcalm => ?rolls, fun hs hc ha hf hset hr hitem => ?replays,
    fun hs hc hb => exec_stepBoundary_reached hs hc hb, exec_stepBoundary_early⟩
  case restart =>
    exact congrArg (fun u => Host.Outcome.next (finishRestart u p)) (actOnCauses_restart hs hc hall hl)
  case limit => exact ⟨_, exec_partitionRestart_held (actOnCauses_limit hs hc hall hl), holdPart_held s p c⟩
  case hold =>
    obtain ⟨hstate, hcauses, hlast, -, harmed⟩ := holdPart_held s p h
    exact ⟨_, exec_partitionRestart_held (actOnCauses_hold hs hh), hstate, hcauses, hlast, harmed⟩
  case rolls =>
    refine congrArg Host.Outcome.next ?_
    rw [actOnCauses_none hc, finishRestart_rolling hs hc hf hset hr hcalm]
  case replays => exact exec_partitionRestart_replay hs hc ha hf hset hr hitem

end Sys2Proof.Machine

/-! Probes, replacements, retirements and self-tests of units (17 R400 to R404). -/

namespace Sys2Proof.Machine

/-! ## What leaves the units alone -/

/-- The state of a domain, and its trace record, change neither the tiles nor the partitions nor the units. -/
theorem setDom_keeps (s : State) (i st : Nat) :
    (setDom s i st).tiles = s.tiles ∧ (setDom s i st).parts = s.parts ∧ (setDom s i st).units = s.units := by
  unfold setDom
  dsimp only
  generalize i + getDom s i * 2 ^ 8 + st * 2 ^ 12 + _ = n
  obtain ⟨m, e, k, w, r, h, -⟩ := traceRecord_frame s 3 0 0xFF n
  rw [h]
  exact ⟨rfl, rfl, rfl⟩

theorem forceDom_keeps (s : State) (i st : Nat) :
    (forceDom s i st).tiles = s.tiles ∧ (forceDom s i st).parts = s.parts ∧ (forceDom s i st).units = s.units :=
  setDom_keeps s i st

/-- Where no entry of the domain is under way, its switch only sets its state. -/
theorem switchDom_none {s : State} {i : Nat} (h : mfind s.power.entering i = none) (st : Nat) :
    switchDom s i st = forceDom s i st := by
  simp only [switchDom, h]

/-- After the switch no entry of the domain is under way. -/
theorem switchDom_entering (s : State) (i st : Nat) : mfind (switchDom s i st).power.entering i = none :=
  mfind_mdel_same _ i

@[simp] theorem dropBanks_units (s : State) (t mask : Nat) : (dropBanks s t mask).units = s.units := by
  refine foldl_keeps State.units (fun s g => ?_) _ s
  split <;> simp

@[simp] theorem dropLanding_units (s : State) (d mask : Nat) (b : Bool) : (dropLanding s d mask b).units = s.units := by
  refine foldl_keeps State.units (fun s g => ?_) _ s
  split <;> simp

@[simp] theorem napLoss_units (s : State) (i : Nat) : (napLoss s i).units = s.units := by
  unfold napLoss
  dsimp only
  split
  · exact foldl_keeps State.units (fun s t => by rw [dropBanks_units, putTile_units]) _ s
  · exact dropLanding_units ..
  · rfl

@[simp] theorem sleepLoss_units (s : State) (i : Nat) : (sleepLoss s i).units = s.units := by
  unfold sleepLoss
  dsimp only
  split
  · refine foldl_keeps State.units (fun s t => ?_) _ s
    rw [dropBanks_units]
    split
    · exact putTile_units ..
    · exact (putSettings_units ..).trans (putTile_units ..)
  · rfl
  · split
    · exact dropLanding_units ..
    · exact (putMemErr_units ..).trans (dropLanding_units ..)
  · unfold ethLoss
    dsimp only
    split <;> rfl
  · unfold netLoss
    dsimp only
    split <;> rfl
  · rfl

@[simp] theorem completeEntry_units (s : State) (i st : Nat) : (completeEntry s i st).units = s.units := by
  have hset : (addCtr (setDom s i st) (0x4E00 + i) (5 + st) 1).units = s.units :=
    (addCtr_units ..).trans (setDom_keeps s i st).2.2
  unfold completeEntry
  dsimp only
  rw [putPower_units]
  split
  · rw [napLoss_units, hset]
  · split
    · rw [sleepLoss_units, hset]
    · exact hset

@[simp] theorem switchDom_units (s : State) (i st : Nat) : (switchDom s i st).units = s.units := by
  unfold switchDom
  rw [(forceDom_keeps _ i st).2.2]
  split
  · exact completeEntry_units ..
  · rfl

@[simp] theorem powerSpare_units (s : State) (ph st : Nat) : (powerSpare s ph st).units = s.units := by
  unfold powerSpare
  split
  · exact switchDom_units ..
  · rfl

/-- A spare that no entry is under way for is powered without touching tiles or partitions. -/
theorem powerSpare_keeps {s : State} {ph : Nat} (h : mfind s.power.entering (16 + ph / 17) = none) (st : Nat) :
    (powerSpare s ph st).tiles = s.tiles ∧ (powerSpare s ph st).parts = s.parts ∧
      mfind (powerSpare s ph st).power.entering (16 + ph / 17) = none := by
  unfold powerSpare
  split
  · refine ⟨?_, ?_, switchDom_entering ..⟩
    · rw [switchDom_none h, (forceDom_keeps ..).1]
    · rw [switchDom_none h, (forceDom_keeps ..).2.1]
  · exact ⟨rfl, rfl, h⟩

/-! ## Probes (R400) -/

/-- A setting that a unit has taken is the committed one. -/
theorem settingAt_takeSettings (s : State) : settingAt (takeSettings s 0 [0x300A]) 0 0x300A 2 = setting s 0x300A 2 := by
  have hgone : ∀ m : Map Value, mfind (mdrop (fun k => k / 2 ^ 24 == 0 && [0x300A].contains (k % 2 ^ 24 / 256)) m)
      (heldKey 0 0x300A 2) = none := by
    intro m
    induction m with
    | nil => rfl
    | cons e m ih =>
      unfold mdrop at ih ⊢
      by_cases hk : e.1 = heldKey 0 0x300A 2
      · rw [List.filter_cons_of_neg (by rw [hk]; decide)]
        exact ih
      · rw [List.filter_cons]
        split
        · rw [mfind, if_neg hk]
          exact ih
        · exact ih
  unfold settingAt takeSettings putSettings
  rw [hgone]
  rfl

/-- A probe of a unit in service that serves a job, on the state that has taken the probe settings. -/
theorem exec_healthProbe {s : State} {u : Fin 264} (hjob : (servedBy s u).any (jobRuns s) = true)
    (hdom : getDom s (unitDom s u) < 2) (hout : s.units.out.contains u.val = false)
    (hpres : u.val < 64 → tilePresent s u = true) (answered : Bool) :
    exec (.healthProbe u answered) s =
      (if answered then .next (putUnits (takeSettings s 0 [0x300A]) { s.units with misses := mset 0 s.units.misses u 0 })
      else if settingAt (takeSettings s 0 [0x300A]) 0 0x300A 2 ≤ mget 0 s.units.misses u + 1 then
        .next (declareDead (takeSettings s 0 [0x300A]) u)
      else .next (putUnits (takeSettings s 0 [0x300A])
        { s.units with misses := mset 0 s.units.misses u (mget 0 s.units.misses u + 1) })) := by
  have hgo : (!(servedBy s u).any (jobRuns s) || decide (2 ≤ getDom s (unitDom s u)) || s.units.out.contains u.val ||
      (decide (u.val < 64) && !tilePresent s u)) = false := by
    by_cases h : u.val < 64
    · rw [hjob, hout, hpres h]
      simpa using hdom
    · rw [hjob, hout]
      simpa [h] using hdom
  exact if_neg (Bool.eq_false_iff.mp hgo)

theorem exec_healthProbe_answered {s : State} {u : Fin 264} (hjob : (servedBy s u).any (jobRuns s) = true)
    (hdom : getDom s (unitDom s u) < 2) (hout : s.units.out.contains u.val = false)
    (hpres : u.val < 64 → tilePresent s u = true) :
    ∃ v, exec (.healthProbe u true) s = .next v ∧ v.units.misses = mset 0 s.units.misses u 0 ∧ v.mem = s.mem :=
  ⟨_, (exec_healthProbe hjob hdom hout hpres true).trans (if_pos rfl), rfl, rfl⟩

theorem exec_healthProbe_missed {s : State} {u : Fin 264} (hjob : (servedBy s u).any (jobRuns s) = true)
    (hdom : getDom s (unitDom s u) < 2) (hout : s.units.out.contains u.val = false)
    (hpres : u.val < 64 → tilePresent s u = true) :
    (mget 0 s.units.misses u + 1 < setting s 0x300A 2 → ∃ v, exec (.healthProbe u false) s = .next v ∧
      v.units.misses = mset 0 s.units.misses u (mget 0 s.units.misses u + 1) ∧ v.units.out = s.units.out) ∧
    (setting s 0x300A 2 ≤ mget 0 s.units.misses u + 1 →
      exec (.healthProbe u false) s = .next (declareDead (takeSettings s 0 [0x300A]) u)) := by
  rw [exec_healthProbe hjob hdom hout hpres false, settingAt_takeSettings, if_neg Bool.false_ne_true]
  refine ⟨fun h => ⟨_, if_neg (Nat.not_le.mpr h), rfl, rfl⟩, fun h => if_pos h⟩

/-! ## Replacements and retirements (R402, R403) -/

/-- A tile that found its replacement found one in the pool. -/
theorem poolNext_of_takeReplacement {s s2 : State} {t p : Nat} (h : takeReplacement s t p = (s2, true)) :
    (poolNext s (t / 16)).isSome = true := by
  cases hp : poolNext s (t / 16) with
  | none => simp [takeReplacement, hp] at h
  | some n => rfl

theorem poolNext_congr {s u : State} (h : u.units = s.units) (d : Nat) : poolNext u d = poolNext s d := by
  unfold poolNext poolOf
  rw [h]

theorem exec_replacementReady {s s2 : State} {t : Fin 64} {p : Nat}
    (hw : (upFrom 0 16).find? (fun p => (getPart s p).awaiting.contains t.val) = some p)
    (hc : (getPart s p).causes = []) (hr : (getPart s p).rolling = false)
    (ht : takeReplacement (putPart s p
      { getPart s p with awaiting := (getPart s p).awaiting.filter (· != t.val) }) t p = (s2, true)) :
    exec (.replacementReady t) s = .next (finishRestart (putPart (addCtr s2 (0x4D00 + p) 4 1) p
      { getPart (addCtr s2 (0x4D00 + p) 4 1) p with
        replaced := (getPart (addCtr s2 (0x4D00 + p) 4 1) p).replaced ||| 2 ^ t.val }) p) := by
  have hpool : (poolNext s (t.val / 16)).isSome = true :=
    (congrArg Option.isSome (poolNext_congr (putPart_units ..).symm _)).trans (poolNext_of_takeReplacement ht)
  have hgo : (!(getPart s p).causes.isEmpty || (getPart s p).rolling ||
      ((poolNext s (t.val / 16)).isNone && poolBusy s (t.val / 16))) = false := by
    simp [hc, hr, Option.isSome_iff_ne_none.mp hpool]
  change execReplacementReady t s = _
  unfold execReplacementReady
  rw [hw]
  dsimp only
  rw [if_neg (Bool.eq_false_iff.mp hgo), ht]
  exact if_pos rfl

theorem exec_retireRequest {s : State} {t : BitVec 8} {p : Nat} (hpres : tilePresent s t.toNat = true)
    (hp : partOfTile s t.toNat = some p) :
    ∃ u, exec (.retireRequest t) s = .next u ∧ t.toNat ∈ (getPart u p).retire ∧ u.units = s.units ∧ u.mem = s.mem := by
  refine ⟨putPart s p { getPart s p with retire := insertNew (getPart s p).retire t.toNat },
    congrArg Host.Outcome.next ?_, ?_, putPart_units .., putPart_mem ..⟩
  · simp [retireRequest, hpres, hp]
  · rw [getPart_putPart]
    exact mem_insertNew _ _

/-! ## Self-tests (R401, R404) -/

/-- A pool tile that is not under test begins its test. -/
theorem testPool_begins {s : State} {ph : Nat} (hlt : ph < 68) (hpool : bitSet (poolOf s (ph / 17)) (ph % 17) = true)
    (hnot : s.units.testing.contains ph = false) :
    testPool s ph = powerSpare (putUnits s { s.units with testing := s.units.testing ++ [ph] }) ph 0 :=
  if_pos (by rw [hpool, hnot]; simpa using hlt)

theorem exec_testRequest {s : State} {ph : BitVec 8} (hlt : ph.toNat < 68)
    (hpool : bitSet (poolOf s (ph.toNat / 17)) (ph.toNat % 17) = true)
    (hnot : s.units.testing.contains ph.toNat = false) (hent : mfind s.power.entering (16 + ph.toNat / 17) = none) :
    ∃ u, exec (.testRequest ph) s = .next u ∧ u.units.testing = s.units.testing ++ [ph.toNat] ∧
      u.tiles = s.tiles ∧ u.parts = s.parts := by
  obtain ⟨htiles, hparts, -⟩ := powerSpare_keeps (ph := ph.toNat)
    (s := putUnits s { s.units with testing := s.units.testing ++ [ph.toNat] }) hent 0
  refine ⟨_, congrArg Host.Outcome.next (testPool_begins hlt hpool hnot), ?_, htiles, hparts⟩
  rw [powerSpare_units]
  rfl

/-- The tests of the pool tiles of a die begin without an entry of its spare under way, and with no tile's test ended. -/
theorem testPool_keeps {s : State} {ph : Nat} (hent : mfind s.power.entering (16 + ph / 17) = none) :
    (testPool s ph).parts = s.parts ∧ (testPool s ph).units.pool = s.units.pool ∧
      s.units.testing ⊆ (testPool s ph).units.testing ∧ mfind (testPool s ph).power.entering (16 + ph / 17) = none := by
  unfold testPool
  split
  · obtain ⟨-, hparts, hentering⟩ := powerSpare_keeps (ph := ph)
      (s := putUnits s { s.units with testing := s.units.testing ++ [ph] }) hent 0
    rw [powerSpare_units]
    exact ⟨hparts, rfl, List.subset_append_left _ _, hentering⟩
  · exact ⟨rfl, rfl, fun _ h => h, hent⟩

/-- A pool tile whose test is asked for is under test. -/
theorem mem_testPool {s : State} {ph : Nat} (hlt : ph < 68) (hpool : bitSet (poolOf s (ph / 17)) (ph % 17) = true) :
    ph ∈ (testPool s ph).units.testing := by
  by_cases hin : ph ∈ s.units.testing
  · rw [testPool, if_neg (by simp [hin])]
    exact hin
  · rw [testPool_begins hlt hpool (by simpa using hin), powerSpare_units]
    exact List.mem_append_right _ (List.mem_singleton_self ph)

/-- Every pool tile among the tiles of a die whose tests are asked for is under test. -/
theorem testPools {d : Nat} (l : List Nat) (hl : ∀ ph ∈ l, ph / 17 = d ∧ ph < 68) {s : State}
    (hent : mfind s.power.entering (16 + d) = none) :
    (l.foldl testPool s).parts = s.parts ∧ s.units.testing ⊆ (l.foldl testPool s).units.testing ∧
      ∀ ph ∈ l, bitSet (poolOf s d) (ph % 17) = true → ph ∈ (l.foldl testPool s).units.testing := by
  induction l generalizing s with
  | nil => exact ⟨rfl, fun _ h => h, fun ph h => absurd h (List.not_mem_nil)⟩
  | cons a l ih =>
    obtain ⟨had, halt⟩ := hl a List.mem_cons_self
    obtain ⟨hparts, hpool, htest, hentering⟩ := testPool_keeps (s := s) (ph := a) (by rw [had]; exact hent)
    obtain ⟨iparts, itest, imem⟩ := ih (fun ph h => hl ph (List.mem_cons_of_mem a h)) (s := testPool s a)
      (by rw [← had]; exact hentering)
    have hsame : poolOf (testPool s a) d = poolOf s d := by
      unfold poolOf
      rw [hpool]
    refine ⟨iparts.trans hparts, List.Subset.trans htest itest, fun ph h hbit => ?_⟩
    rcases List.mem_cons.mp h with rfl | h
    · exact itest (mem_testPool halt (by rw [had]; exact hbit))
    · exact imem ph h (by rw [hsame]; exact hbit)

theorem exec_poolTestTimer {s : State} {d : Fin 4} (hent : mfind s.power.entering (16 + d) = none) :
    ∃ u, exec (.poolTestTimer d) s = .next u ∧
      (∀ nn, nn < 17 → bitSet (poolOf s d) nn = true → 17 * d.val + nn ∈ u.units.testing) ∧ u.parts = s.parts := by
  obtain ⟨hparts, -, hmem⟩ := testPools (upFrom (17 * d.val) 17) (d := d) (fun ph h => by
    have hbounds := mem_upFrom.mp h
    omega) hent
  refine ⟨_, rfl, fun nn hnn hbit => hmem _ (mem_upFrom.mpr (by omega)) ?_, hparts⟩
  rw [show (17 * d.val + nn) % 17 = nn by omega]
  exact hbit

/-- A mask with one bit cleared and set has that bit. -/
theorem bitSet_set (m k : Nat) : bitSet (m - m / 2 ^ k % 2 * 2 ^ k + 2 ^ k) k = true := by
  have hpos : 0 < 2 ^ k := Nat.two_pow_pos k
  have hsub : (m - m / 2 ^ k % 2 * 2 ^ k) / 2 ^ k = m / 2 ^ k - m / 2 ^ k % 2 := by
    rw [Nat.mul_comm]
    exact Nat.sub_mul_div m (2 ^ k) (m / 2 ^ k % 2)
  rw [bitSet, Nat.testBit_eq_decide_div_mod_eq, Nat.add_div_right _ hpos, hsub]
  simp only [decide_eq_true_eq]
  omega

/-- A tile that joins its die's pool is in it; all else of the units stands. -/
theorem setPool_in (s : State) (ph : Nat) :
    bitSet (poolOf (setPool s ph true) (ph / 17)) (ph % 17) = true ∧
      (setPool s ph true).units.testing = s.units.testing ∧ (setPool s ph true).units.switched = s.units.switched ∧
      (setPool s ph true).units.owed = s.units.owed := by
  refine ⟨?_, rfl, rfl, rfl⟩
  unfold setPool poolOf
  rw [putUnits_units, mget_mset_same, if_pos rfl]
  exact bitSet_set _ _

/-- Where no slot is owed a pool tile, none is served. -/
theorem serveOwed_none {s : State} (h : s.units.owed = []) (d : Nat) : (serveOwed s d).units = s.units := by
  simp only [serveOwed, h, List.filter_nil, List.foldl_nil, List.filterMap_nil, List.dedup_nil]
  split
  · rfl
  · rw [putUnits_units, ← h]

theorem stepDone_units (s : State) (b k : Nat) : (stepDone s b k).units = s.units := by
  unfold stepDone
  split <;> rfl

/-- A test that ends leaves the tests, and its switch is closed. -/
def testEnded (s : State) (ph : Nat) : State :=
  let s := putUnits s { s.units with
    testing := s.units.testing.filter (· != ph), switched := s.units.switched.filter (· != ph) }
  if s.units.testing.isEmpty then stepDone s 1 8 else s

theorem testEnded_units (s : State) (ph : Nat) : (testEnded s ph).units = { s.units with
    testing := s.units.testing.filter (· != ph), switched := s.units.switched.filter (· != ph) } := by
  unfold testEnded
  dsimp only
  split
  · exact stepDone_units ..
  · rfl

theorem tileTested_pool {s : State} {ph : Nat} (h : logicalOf s ph = none) :
    tileTested s ph true = serveOwed (powerSpare (setPool (testEnded s ph) ph true) ph 4) (ph / 17) := by
  have hlog : logicalOf (testEnded s ph) ph = none := by
    rw [← h]
    unfold logicalOf physOf
    rw [testEnded_units]
  unfold testEnded at hlog ⊢
  unfold tileTested
  dsimp only at hlog ⊢
  rw [hlog]
  rfl

theorem exec_selfTestDone {s : State} {ph : Nat} (hlt : ph < 68) (hin : ph ∈ s.units.testing)
    (hlog : logicalOf s ph = none) (howed : s.units.owed = []) :
    ∃ u, exec (.selfTestDone ⟨ph, by omega⟩ true) s = .next u ∧ bitSet (poolOf u (ph / 17)) (ph % 17) = true ∧
      u.units.testing = s.units.testing.filter (· != ph) ∧ u.units.switched = s.units.switched.filter (· != ph) := by
  obtain ⟨hbit, htest, hswitched, howed'⟩ := setPool_in (testEnded s ph) ph
  rw [testEnded_units] at htest hswitched howed'
  have hunits : (serveOwed (powerSpare (setPool (testEnded s ph) ph true) ph 4) (ph / 17)).units =
      (setPool (testEnded s ph) ph true).units := by
    rw [serveOwed_none (by rw [powerSpare_units, howed', howed]), powerSpare_units]
  refine ⟨_, (if_pos hlt).trans (congrArg Host.Outcome.next ((if_pos (by simpa using hin)).trans
    (tileTested_pool hlog))), ?_, ?_, ?_⟩
  · unfold poolOf at hbit ⊢
    rw [hunits]
    exact hbit
  · rw [hunits, htest]
  · rw [hunits, hswitched]

/-- Settles O36: each command takes the branch that its unit, its tile or its test is in. -/
theorem unitsAreProbedReplacedAndTested : Obligations.UnitsAreProbedReplacedAndTested := by
  unfold Obligations.UnitsAreProbedReplacedAndTested
  exact ⟨fun s u hjob hdom hout hpres => ⟨exec_healthProbe_answered hjob hdom hout hpres,
      exec_healthProbe_missed hjob hdom hout hpres⟩,
    fun s t p s2 hw hc hr ht => exec_replacementReady hw hc hr ht,
    fun s t p hpres hp => exec_retireRequest hpres hp,
    fun s ph hlt hpool hnot hent => exec_testRequest hlt hpool hnot hent,
    fun s d hent => exec_poolTestTimer hent,
    fun s ph hin hlog howed => exec_selfTestDone ph.isLt hin hlog howed⟩

end Sys2Proof.Machine
